-- ==== Sys2Proof/Word.lean ====
section
/-! DEFINITION. The widths the spec's registers and memory cells have (00 R3, R8): bytes, 32-bit register
words and 64-bit registers. -/

namespace Sys2Proof

/-- One byte of memory. -/
abbrev Byte := BitVec 8

/-- One 32-bit register word of BAR0 (R542). -/
abbrev W32 := BitVec 32

/-- One 64-bit register of BAR0 (R544). -/
abbrev W64 := BitVec 64

end Sys2Proof
end

