-- ==== Sys2Proof/Config.lean ====
section
/-! DEFINITION. What one module's silicon fixes, and the values the spec leaves open: every free value is an opaque
constant applied to a counter of the state or to the operands, so no proof can see what it is. -/

namespace Sys2Proof

/-- The two SKUs (R539 MEM_TYPE): 0x1 HBM4 16-high, 0x2 HBM3E 12-high. -/
inductive Sku where
  | h4 | h3e
deriving DecidableEq, Repr

/-- LC_NONCE's fresh value after the `n`-th reset or GO (R533): the spec gives no number. Log entry 3. -/
opaque Config.freshNonce : Nat → BitVec 64

/-- A byte the spec leaves unspecified, drawn by a counter of the state. Log entry 4. -/
opaque Config.freeByte : Nat → Byte

/-- A 64-bit value the spec leaves unspecified, drawn by a counter of the state. Log entry 4. -/
opaque Config.freeWord : Nat → BitVec 64

/-- Whether an Ed25519 signature (RFC 8032) over a message verifies against a key: the algorithm lies outside the spec's
text. Log entry 5. -/
opaque Config.sigValid : List Byte → List Byte → List Byte → Bool

/-- SCRAPE_FAILS of a life-cycle transition's scrape (R538): whether the silicon's lines verify is not the model's to say. Log entry 42. -/
opaque Config.scrapeFails : Nat → BitVec 32

/-- SCRAPE_LINES after the `n`-th reset (R540). Log entry 42. -/
opaque Config.scrapeLines : Nat → BitVec 64

/-- BOOT_US after the `n`-th reset (R521, R539): a measured duration. Log entry 42. -/
opaque Config.bootUs : Nat → BitVec 32

/-- Whether an otherwise idle DMA mover is at work `work` of R372 (3 fill or write-back, 4 context save or restore) while such work goes
on: the spec does not say which movers take it. Arguments: the work, a counter of the state, the mover. Log entry 64. -/
opaque Config.moverTakes : Nat → Nat → Nat → Bool

/-- Offset `k` (0 to 6) of set `n` (0 to 15) of the fixed table of read-reference sets (R358), as a signed 8-bit number: the spec does not
give the table. Log entry 30. -/
opaque Config.readRefSet : Nat → Nat → BitVec 8

end Sys2Proof
end

