-- ==== Sys2Proof/Syntax.lean ====
section
/-! DEFINITION. The commands the block takes: one constructor per row of spec/opcode_table.json, with its operands. -/

namespace Sys2Proof

/-- The two requesters that reach BAR0 (R545): the PCIe function and the management interface. -/
inductive Requester where
  | pcie | mgmt
deriving DecidableEq, Repr

/-- A transaction as a port receives it (14 R448): the header's fields and the payload. `e2e`: bit E2E is set and its
CRC-64 follows (R486); `e2eOk`: that check value agrees. -/
structure RxTx where
  dst : BitVec 16
  src : BitVec 16
  client : Fin 64
  epoch : BitVec 32
  seq : BitVec 32
  deadline : BitVec 64
  incarnation : BitVec 16
  floorSeq : BitVec 32
  add : Bool
  obj : Fin 16384
  amount : BitVec 64
  addr : BitVec 64
  payload : List Byte
  e2e : Bool
  e2eOk : Bool
deriving DecidableEq, Repr

/-- A REPLY as a port receives it (R448): the module it comes from, the fields it echoes and its RESULT code. -/
structure RxReply where
  src : BitVec 16
  epoch : BitVec 32
  seq : BitVec 32
  incarnation : BitVec 16
  result : BitVec 8
deriving DecidableEq, Repr

/-- The protected stores and paths of R478. -/
inductive Store where
  | palette | acc | shared | hbm | glaze | bridge | hub | flash | pcie
deriving DecidableEq, Repr

/-- What a unit meets while it works (R475, R478): nothing, an error its store corrects, an uncorrectable one, or a
lockstep mismatch of a pair on one compared item. `wher` is the interleave target, flash channel, tile or panel of the store, and
`addr` the address an ECC record names (R587). -/
inductive Hazard where
  | none
  | ce (store : Store) (wher : BitVec 16)
  | ue (store : Store) (wher : BitVec 16) (addr : W64)
  | page (addr : W64) (set : Fin 17)
  | lockstep (pair : Fin 4) (item : Fin 3)
deriving DecidableEq, Repr

/-- A command's start or a tile's WAIT, and what its reads meet. -/
structure MetBy where
  tok : Nat
  met : Hazard
deriving DecidableEq, Repr

/-- One unit of an engine entry: the entry's place in its command's run, and the unit's number in it. -/
structure EntryUnit where
  entry : Nat
  unit : Nat
deriving DecidableEq, Repr

/-- What a fault in the cells or the feed of a physical column does to one block sum S of R114: the row of the m-group, the block of the
reduction and what it adds to S. -/
structure ColFault where
  col : Fin 264
  row : Nat
  blk : Nat
  delta : Int
deriving DecidableEq, Repr

/-- A frame as a video decode engine hands it on (09 R279-R282): codec (0 H.264, 1 H.265, 2 AV1, 3 JPEG), profile (as R279's table lists a
codec's, from 0; above, one it does not list), level in tenths, size, bit depth, chroma (0 grey, 1 4:2:0, 2 4:2:2, 3 4:4:4), whether it is
coded interlaced, in several layers, with film grain synthesis, whether it is a random-access point, and the planes' samples, row by row.
The codecs' own standards are outside the spec. -/
structure Picture where
  codec : Fin 4
  profile : Nat
  level : Nat
  interlaced : Bool
  layered : Bool
  grain : Bool
  entry : Bool
  w : Nat
  h : Nat
  depth : Nat
  chroma : Fin 4
  luma : List Nat
  cb : List Nat
  cr : List Nat
deriving DecidableEq, Repr

/-- A junction temperature sensor (16 R511): of a tile, of a panel's engine ring, of the hub die, of an HBM stack. -/
inductive Junction where
  | tile (t : Fin 64)
  | ring (p : Fin 4)
  | hub
  | hbm (k : Fin 12)
deriving DecidableEq, Repr

/-- The commands of the block: one constructor per row of the opcode table. `tok` names an in-flight command by the
serial number its token has; `it` is the local IT at which a timed event happens. -/
inductive Instr where
  /-- NOP (R386) -/
  | nop (tok : Nat)
  /-- FENCE (R386) -/
  | fence (tok : Nat)
  /-- WAIT (R386) -/
  | wait (tok : Nat)
  /-- SIGNAL (R386) -/
  | signal (tok : Nat)
  /-- LOAD_PROGRAM (R168) -/
  | loadProgram (tok : Nat)
  /-- RUN (R171) -/
  | run (a : MetBy)
  /-- UNLOAD_PROGRAM (R172) -/
  | unloadProgram (tok : Nat)
  /-- SCENE_OPEN (R13) -/
  | sceneOpen (tok : Nat)
  /-- STREAM_OPEN (R26) -/
  | streamOpen (tok : Nat)
  /-- FORK (R32) -/
  | fork (tok : Nat)
  /-- FORK_COMMIT (R33) -/
  | forkCommit (tok : Nat)
  /-- STEP (R37) -/
  | step (a : MetBy)
  /-- INGEST_SEQ (R27) -/
  | ingestSeq (a : MetBy)
  /-- STREAM_COMMIT (R37) -/
  | streamCommit (tok : Nat) (idx : Nat)
  /-- PARK (R43) -/
  | park (tok : Nat)
  /-- PARK_RELEASE (R43) -/
  | parkRelease (tok : Nat)
  /-- CLOSE (R44) -/
  | close (tok : Nat)
  /-- CLOSE_SCENE (R14) -/
  | closeScene (tok : Nat)
  /-- COPY (R346) -/
  | copy (tok : Nat)
  /-- DMA_PIECE (R346) -/
  | dmaPiece (tok : Nat) (mover : Fin 16) (h : Hazard)
  /-- MIGRATE_TO_HBM (R343) -/
  | migrateToHbm (tok : Nat)
  /-- MIGRATE_FLUSH (R343) -/
  | migrateFlush (tok : Nat)
  /-- MIGRATE_TO_FLASH (R343) -/
  | migrateToFlash (tok : Nat)
  /-- MIGRATE_ZERO_FILL (R343) -/
  | migrateZeroFill (tok : Nat)
  /-- HINT_PIN (R342) -/
  | hintPin (tok : Nat)
  /-- HINT_UNPIN (R342) -/
  | hintUnpin (tok : Nat)
  /-- HINT_NO_WB (R342) -/
  | hintNoWb (tok : Nat)
  /-- HINT_WB (R342) -/
  | hintWb (tok : Nat)
  /-- HINT_STREAM (R342) -/
  | hintStream (tok : Nat)
  /-- HINT_NOSTREAM (R342) -/
  | hintNostream (tok : Nat)
  /-- HINT_WILLNEED (R342) -/
  | hintWillneed (tok : Nat)
  /-- HINT_DONTNEED (R342) -/
  | hintDontneed (tok : Nat)
  /-- PREFETCH_WINDOW (R348) -/
  | prefetchWindow (tok : Nat)
  /-- UPDATE (R314) -/
  | update (tok : Nat)
  /-- RETOUCH_CLAIM (R313) -/
  | retouchClaim (tok : Nat)
  /-- RETOUCH_CHUNK (R317) -/
  | retouchChunk (tok : Nat) (b : Nat) (h : Hazard)
  /-- ROOT_REFRESH (R310) -/
  | rootRefresh (tok : Nat)
  /-- NEWTON_ITERATION (R309) -/
  | newtonIteration (tok : Nat)
  /-- ROOT_FLIP (R310) -/
  | rootFlip (tok : Nat)
  /-- INGEST_OPEN (R276) -/
  | ingestOpen (tok : Nat)
  /-- INGEST_CLOSE (R275) -/
  | ingestClose (tok : Nat)
  /-- INGEST_VIDEO (R281) -/
  | ingestVideo (tok : Nat)
  /-- INGEST_STILL (R281) -/
  | ingestStill (tok : Nat)
  /-- INGEST_SCAN (R283) -/
  | ingestScan (tok : Nat)
  /-- INGEST_SEAL (R287) -/
  | ingestSeal (tok : Nat)
  /-- INGEST_RELEASE (R289) -/
  | ingestRelease (tok : Nat)
  /-- SLOT_SEAL (R287) -/
  | slotSeal (scene : Fin 24) (it : Nat)
  /-- PREEMPT (R431) -/
  | preempt (tok : Nat)
  /-- PREEMPT_DISCARD (R432) -/
  | preemptDiscard (tok : Nat)
  /-- RESUME (R433) -/
  | resume (tok : Nat)
  /-- SELF_TEST (R570) -/
  | selfTest (tok : Nat)
  /-- MARGIN (R575) -/
  | margin (tok : Nat)
  /-- CHECKPOINT (R488) -/
  | checkpoint (tok : Nat)
  /-- RESTORE (R492) -/
  | restore (tok : Nat)
  /-- PACKET_FETCH (R381) -/
  | packetFetch (h : Hazard)
  /-- COMMAND_DISPATCH (R382) -/
  | commandDispatch (q : Fin 512) (h : Hazard)
  /-- NOT_BEFORE_REACHED (R384) -/
  | notBeforeReached (tok : Nat) (it : Nat)
  /-- COMMAND_COMPLETION (R382) -/
  | commandCompletion (tok : Nat)
  /-- COMPLETION_RECORD_WRITE (R377) -/
  | completionRecordWrite (tok : Nat)
  /-- QUEUE_DRAINED (R375) -/
  | queueDrained (q : Fin 512)
  /-- UNIT_GRANT (R417) -/
  | unitGrant (kind : Fin 10)
  /-- LC_CAP_REACHED (R418) -/
  | lcCapReached (kind : Fin 10) (it : Nat)
  /-- QUANTUM_BOUNDARY (R421) -/
  | quantumBoundary (it : Nat)
  /-- QUIESCENT_POINT (R423) -/
  | quiescentPoint (tok : Nat)
  /-- DRAIN_END (R424) -/
  | drainEnd (tok : Nat)
  /-- CONTEXT_SAVE_DONE (R425) -/
  | contextSaveDone (tok : Nat)
  /-- CONTEXT_RESTORE_DONE (R426) -/
  | contextRestoreDone (tok : Nat)
  /-- MMA (R151) -/
  | mma (tok : Nat) (t : Fin 64) (mism : List ColFault) (h : Hazard)
  /-- TILE_REPLAY (R117) -/
  | tileReplay (tok : Nat) (t : Fin 64)
  /-- OUTPUT_BLOCK_RELEASE (R105) -/
  | outputBlockRelease (tok : Nat) (t : Fin 64) (h : Hazard)
  /-- FWD (R155) -/
  | fwd (tok : Nat) (t : Fin 64) (h : Hazard)
  /-- STAGE (R155) -/
  | stage (tok : Nat) (t : Fin 64) (h : Hazard)
  /-- TILE_NOP (R150) -/
  | tileNop (tok : Nat) (t : Fin 64)
  /-- TILE_WAIT (R155) -/
  | tileWait (a : MetBy) (t : Fin 64)
  /-- TILE_SIGNAL (R155) -/
  | tileSignal (tok : Nat) (t : Fin 64)
  /-- END (R150) -/
  | endTile (tok : Nat) (t : Fin 64)
  /-- ENGINE_ENTRY_START (R186) -/
  | engineEntryStart (tok : Nat) (e : Nat)
  /-- SCAN (R187) -/
  | scan (tok : Nat) (e : EntryUnit) (h : Hazard)
  /-- MASK (R189) -/
  | mask (tok : Nat) (e : EntryUnit) (h : Hazard)
  /-- CARRY (R191) -/
  | carry (tok : Nat) (e : EntryUnit) (h : Hazard)
  /-- QUERY_BLOCK (R223) -/
  | queryBlock (tok : Nat) (e : EntryUnit) (ev : List (Fin 64 × List ColFault × List ColFault)) (h : Hazard)
  /-- TX_IN (R259) -/
  | txIn (tok : Nat) (e : EntryUnit) (h : Hazard)
  /-- TX_OUT (R259) -/
  | txOut (tok : Nat) (e : EntryUnit) (h : Hazard)
  /-- S2D (R261) -/
  | s2d (tok : Nat) (e : EntryUnit) (h : Hazard)
  /-- D2S (R261) -/
  | d2s (tok : Nat) (e : EntryUnit) (h : Hazard)
  /-- RELAYOUT (R262) -/
  | relayout (tok : Nat) (e : EntryUnit) (h : Hazard)
  /-- CROP_BOX (R267) -/
  | cropBox (tok : Nat) (e : EntryUnit) (h : Hazard)
  /-- REMOTE_ADD (R455) -/
  | remoteAdd (port : Fin 12) (tx : RxTx) (it : Nat)
  /-- REMOTE_WRITE (R455) -/
  | remoteWrite (port : Fin 12) (tx : RxTx) (it : Nat)
  /-- REPLY (R457) -/
  | reply (port : Fin 12) (rep : RxReply) (it : Nat)
  /-- TRANSIT_FORWARD (R445) -/
  | transitForward (port : Fin 12) (tx : RxTx)
  /-- TRANSPORT_TIMEOUT (R457) -/
  | transportTimeout (tx : Nat) (it : Nat)
  /-- HELD_TRANSACTION_DEADLINE (R452) -/
  | heldTransactionDeadline (tx : Nat) (it : Nat)
  /-- SOURCE_FULL_RESEND (R453) -/
  | sourceFullResend (tx : Nat) (it : Nat)
  /-- LINK_FRAME_RECEIVE (R446) -/
  | linkFrameReceive (port : Fin 12) (seq : Nat) (len : Nat) (crcOk : Bool)
  /-- NAK_RECEIVED (R446) -/
  | nakReceived (port : Fin 12) (seq : Nat)
  /-- ACK_TIMER (R446) -/
  | ackTimer (port : Fin 12) (it : Nat)
  /-- LINK_FAIL (R447) -/
  | linkFail (port : Fin 12)
  /-- RETRAIN_DONE (R447) -/
  | retrainDone (port : Fin 12)
  /-- PORT_TRAINING_RETRY (R441) -/
  | portTrainingRetry (port : Fin 12) (it : Nat)
  /-- ROCE_RETRANSMIT (R460) -/
  | roceRetransmit (port : Fin 12) (seq : Nat)
  /-- ECN_CNP (R459) -/
  | ecnCnp (port : Fin 12) (dest : BitVec 16)
  /-- ECN_RATE_STEP (R459) -/
  | ecnRateStep (port : Fin 12) (dest : BitVec 16)
  /-- ARP_REQUEST (R459) -/
  | arpRequest (port : Fin 12) (addr : W32)
  /-- TIME_IN_PULSE (R462) -/
  | timeInPulse (it : Nat)
  /-- TOD_MESSAGE (R463) -/
  | todMessage (bytes : List Byte)
  /-- PTP_MESSAGE (R462) -/
  | ptpMessage (domain : Nat) (tai : Nat) (it : Nat)
  /-- HOLDOVER_TIMEOUT (R464) -/
  | holdoverTimeout (it : Nat)
  /-- CADENCE_WINDOW_CLOSE (R469) -/
  | cadenceWindowClose (it : Nat)
  /-- FILL_DONE (R339) -/
  | fillDone (g : Nat) (ok : Bool)
  /-- EVICTION_WRITEBACK_DONE (R340) -/
  | evictionWritebackDone (g : Nat)
  /-- REGULATOR_GRANT (R351) -/
  | regulatorGrant (stack : Fin 12) (src : Fin 65536) (idle : Bool) (it : Nat)
  /-- HBM_SCRUB (R479) -/
  | hbmScrub (line : Nat) (found : Nat)
  /-- HBM_RETRAIN (R572) -/
  | hbmRetrain (stack : Fin 12) (fails : List (Fin 32))
  /-- READ_DISTURB_SAMPLE (R356) -/
  | readDisturbSample (blk : Nat) (steps : List (Fin 3)) (bits : Nat)
  /-- RECLAIM (R353) -/
  | reclaim (blk : Nat) (bad : Bool)
  /-- WEAR_LEVEL_MOVE (R354) -/
  | wearLevelMove (blk : Nat)
  /-- READ_COUNTER_PERSIST (R357) -/
  | readCounterPersist
  /-- FLASH_MAP_LOADED (R362) -/
  | flashMapLoaded (ok : Bool)
  /-- POWER_ON (R521) -/
  | powerOn
  /-- PERST (R520) -/
  | perst
  /-- RESET_N_ASSERT (R580) -/
  | resetNAssert
  /-- RESET_N (R580) -/
  | resetN
  /-- HOT_RESET (R520) -/
  | hotReset
  /-- LOW_INPUT (R502) -/
  | lowInput (mv : Nat)
  /-- UNDER_VOLTAGE_TRIP (R504) -/
  | underVoltageTrip (mv : Nat)
  /-- OVER_VOLTAGE_TRIP (R502) -/
  | overVoltageTrip (mv : Nat)
  /-- PWR_WARN_ASSERT (R505) -/
  | pwrWarnAssert
  /-- PWR_WARN_CLEAR (R505) -/
  | pwrWarnClear
  /-- DROOP_STRETCH (R506) -/
  | droopStretch (t : Fin 64) (n : Nat)
  /-- STRETCH_END (R506) -/
  | stretchEnd (t : Fin 64) (n : Nat)
  /-- AVS_UPDATE (R507) -/
  | avsUpdate (panel : Fin 4) (need : Nat)
  /-- ALLOW_DECAY (R508) -/
  | allowDecay (panel : Fin 4)
  /-- CLAMP_RECOVER_STEP (R509) -/
  | clampRecoverStep (panel : Fin 4)
  /-- THERMAL_THROTTLE_STEP (R511) -/
  | thermalThrottleStep (panel : Fin 4) (temp : Nat)
  /-- THERMAL_RECOVER_STEP (R511) -/
  | thermalRecoverStep (panel : Fin 4) (temp : Nat)
  /-- HBM_STACK_HOT (R511) -/
  | hbmStackHot (stack : Fin 12) (temp : Nat)
  /-- JUNCTION_LIMIT (R511) -/
  | junctionLimit (sensor : Junction) (temp : Nat)
  /-- WASH_TICK (R512) -/
  | washTick (it : Nat) (demand : Nat)
  /-- GOVERNOR_ADJUST (R514) -/
  | governorAdjust (watts : Nat)
  /-- BURN_MISMATCH (R515) -/
  | burnMismatch (t : Fin 64)
  /-- PROFILE_SWITCH_DONE (R476) -/
  | profileSwitchDone (h : Hazard)
  /-- SB_DRAIN (R495) -/
  | sbDrain
  /-- TILE_TEST_DONE (R569) -/
  | tileTestDone (t : Fin 64) (fails : List (Nat × Nat))
  /-- HBM_MARGIN_DONE (R573) -/
  | hbmMarginDone (lane : Fin 32) (lo : Nat) (hi : Nat)
  /-- EYE_MEASURE_DONE (R574) -/
  | eyeMeasureDone (port : Fin 12) (width : Nat) (height : Nat)
  /-- REPAIR_DONE (R127) -/
  | repairDone (t : Fin 64) (verified : Bool)
  /-- PRIMER_OP_DONE (R530) -/
  | primerOpDone
  /-- TILE_QUARANTINE (R130) -/
  | tileQuarantine (req : Requester) (t : Fin 64)
  /-- TILE_RELEASE (R130) -/
  | tileRelease (req : Requester) (t : Fin 64)
  /-- REPAIR_GO (R127) -/
  | repairGo (req : Requester) (t : Fin 64)
  /-- POOL_APPLY (R243) -/
  | poolApply (req : Requester)
  /-- Q_ENABLE (R375) -/
  | qEnable (req : Requester) (q : Fin 512)
  /-- Q_DISABLE (R375) -/
  | qDisable (req : Requester) (q : Fin 512)
  /-- SQ_TAIL_DB (R376) -/
  | sqTailDb (req : Requester) (q : Fin 512) (v : W32)
  /-- CQ_HEAD_DB (R377) -/
  | cqHeadDb (req : Requester) (q : Fin 512) (v : W32)
  /-- OBJ_VALUE_WRITE (R406) -/
  | objValueWrite (req : Requester) (n : Fin 16384) (v : W64)
  /-- GRANULE_QUERY (R370) -/
  | granuleQuery (req : Requester) (v : W64)
  /-- SB_READ (R500) -/
  | sbRead (req : Requester) (v : W64)
  /-- SB_NOTE (R500) -/
  | sbNote (req : Requester) (v : W64)
  /-- RESET_CTL (R539) -/
  | resetCtl (req : Requester) (v : W32)
  /-- SAFE_CTL_ENTER (R498) -/
  | safeCtlEnter (req : Requester)
  /-- PROFILE_REQ (R476) -/
  | profileReq (req : Requester) (v : W32)
  /-- LC_GO (R534) -/
  | lcGo (req : Requester)
  /-- PRIMER_WRITE (R530) -/
  | primerWrite (req : Requester) (slotB : Bool)
  /-- PRIMER_ERASE (R530) -/
  | primerErase (req : Requester) (slotB : Bool)
  /-- PRIMER_VALIDATE (R530) -/
  | primerValidate (req : Requester) (slotB : Bool)
  /-- TILE_TEST_GO (R567) -/
  | tileTestGo (req : Requester) (t : Fin 64) (v : W32)
  /-- HBM_MARGIN_GO (R573) -/
  | hbmMarginGo (req : Requester) (v : W32)
  /-- EYE_GO (R574) -/
  | eyeGo (req : Requester) (port : Fin 12) (v : W32)
  /-- PORT_CFG_WRITE (R442) -/
  | portCfgWrite (req : Requester) (port : Fin 12) (v : W32)
  /-- TRANSPORT_TIMEOUT_WRITE (R456) -/
  | transportTimeoutWrite (req : Requester) (v : W32)
  /-- ACCT_ENABLE (R438) -/
  | acctEnable (req : Requester) (v : W32)
  /-- WASH_ENABLE (R512) -/
  | washEnable (req : Requester) (v : W32)
  /-- REG_ENABLE (R369) -/
  | regEnable (req : Requester) (v : W32)
  /-- PENDING_FIELD_WRITE (R529) -/
  | pendingFieldWrite (req : Requester) (off : Nat) (v : W32)
  /-- RES_CLEAR (R131) -/
  | resClear (req : Requester) (t : Fin 64)
  /-- GLZ_CLEAR (R206) -/
  | glzClear (req : Requester) (n : Fin 8)
  /-- ATT_CLEAR (R239) -/
  | attClear (req : Requester) (n : Fin 8)
  /-- POOL_CLEAR (R242) -/
  | poolClear (req : Requester)
  /-- ITX_CLEAR (R274) -/
  | itxClear (req : Requester) (n : Fin 4)
  /-- CRS_CLEAR (R274) -/
  | crsClear (req : Requester) (n : Fin 4)
  /-- ING_CLEAR (R291) -/
  | ingClear (req : Requester)
  /-- RTC_CLEAR (R325) -/
  | rtcClear (req : Requester) (n : Fin 4)
  /-- HBM_ERR_CLEAR (R368) -/
  | hbmErrClear (req : Requester)
  /-- MIG_CLEAR (R370) -/
  | migClear (req : Requester)
  /-- FTL_CLEAR (R371) -/
  | ftlClear (req : Requester)
  /-- DMA_CLEAR (R372) -/
  | dmaClear (req : Requester) (n : Fin 16)
  /-- CP_CLEAR (R402) -/
  | cpClear (req : Requester)
  /-- SCHED_CLEAR (R438) -/
  | schedClear (req : Requester)
  /-- LINK_CLEAR (R471) -/
  | linkClear (req : Requester)
  /-- TIME_CLEAR (R473) -/
  | timeClear (req : Requester)
  /-- DEP_CLEAR (R498) -/
  | depClear (req : Requester)
  /-- CV_CLEAR (R499) -/
  | cvClear (req : Requester) (n : Fin 24)
  /-- PWR_CLEAR (R517) -/
  | pwrClear (req : Requester)
  /-- ADAPT_CLEAR (R519) -/
  | adaptClear (req : Requester) (t : Fin 64)
  /-- GLOBAL_LOCK (R549) -/
  | globalLock (req : Requester)
  /-- PRIMER_LOCK (R549) -/
  | primerLock (req : Requester)
  /-- CP_LOCK (R549) -/
  | cpLock (req : Requester)
  /-- SCHED_LOCK (R549) -/
  | schedLock (req : Requester)
  /-- REPAIR_LOCK (R549) -/
  | repairLock (req : Requester) (t : Fin 64)
  /-- POOL_LOCK (R549) -/
  | poolLock (req : Requester)
  /-- HBM_LOCK (R549) -/
  | hbmLock (req : Requester)
  /-- FTL_LOCK (R549) -/
  | ftlLock (req : Requester)
  /-- LINK_LOCK (R549) -/
  | linkLock (req : Requester)
  /-- TIME_LOCK (R549) -/
  | timeLock (req : Requester)
  /-- DEP_LOCK (R549) -/
  | depLock (req : Requester)
  /-- PWR_LOCK (R549) -/
  | pwrLock (req : Requester)
  /-- DIAG_LOCK (R566) -/
  | diagLock (req : Requester)
  /-- REGISTER_WRITE (R546) -/
  | registerWrite (req : Requester) (off : Nat) (v : W64) (bytes : Nat)
  /-- ACK_RECEIVED (R446) -/
  | ackReceived (port : Fin 12) (seq : Nat)
  /-- TRAINING_DONE (R441) -/
  | trainingDone (port : Fin 12) (rate : Nat)
  /-- LOW_INPUT_END (R502) -/
  | lowInputEnd (mv : Nat)
  /-- HBM_STACK_COOL (R511) -/
  | hbmStackCool (stack : Fin 12) (temp : Nat)
  /-- FLUSH_WRITEBACK_DONE (R353) -/
  | flushWritebackDone (tok : Nat) (g : Nat)
  /-- VIDEO_FRAME (R281) -/
  | videoFrame (tok : Nat) (used : Nat) (frame : Option Picture)
  /-- SCAN_PACKET (R283) -/
  | scanPacket (tok : Nat)
  /-- REPLAY_WINDOW_WRITE (R456) -/
  | replayWindowWrite (req : Requester) (v : W32)
  /-- PFC_FRAME (R459) -/
  | pfcFrame (port : Fin 12) (prio : Nat) (pause : Bool)
deriving DecidableEq, Repr

end Sys2Proof
end

