-- ==== Sys2Proof/WellFormed.lean ====
section
/-! DEFINITION. Well-formed commands: operands in the ranges the spec gives them. A meaning is total on every command; these are the ones the
rows of the opcode table stand for. -/

namespace Sys2Proof

/-- A moment of installation time is a 64-bit number (14 R462). -/
def itOk (it : Nat) : Bool := decide (it < 2 ^ 64)

/-- The moment a timed row carries. -/
def Instr.moment (i : Instr) : Option Nat :=
  match i with
  | .nop _ => none
  | .fence _ => none
  | .wait _ => none
  | .signal _ => none
  | .loadProgram _ => none
  | .run _ => none
  | .unloadProgram _ => none
  | .sceneOpen _ => none
  | .streamOpen _ => none
  | .fork _ => none
  | .forkCommit _ => none
  | .step _ => none
  | .ingestSeq _ => none
  | .streamCommit _ _ => none
  | .park _ => none
  | .parkRelease _ => none
  | .close _ => none
  | .closeScene _ => none
  | .copy _ => none
  | .dmaPiece _ _ _ => none
  | .migrateToHbm _ => none
  | .migrateFlush _ => none
  | .migrateToFlash _ => none
  | .migrateZeroFill _ => none
  | .hintPin _ => none
  | .hintUnpin _ => none
  | .hintNoWb _ => none
  | .hintWb _ => none
  | .hintStream _ => none
  | .hintNostream _ => none
  | .hintWillneed _ => none
  | .hintDontneed _ => none
  | .prefetchWindow _ => none
  | .update _ => none
  | .retouchClaim _ => none
  | .retouchChunk _ _ _ => none
  | .rootRefresh _ => none
  | .newtonIteration _ => none
  | .rootFlip _ => none
  | .ingestOpen _ => none
  | .ingestClose _ => none
  | .ingestVideo _ => none
  | .ingestStill _ => none
  | .ingestScan _ => none
  | .ingestSeal _ => none
  | .ingestRelease _ => none
  | .slotSeal _ it => some it
  | .preempt _ => none
  | .preemptDiscard _ => none
  | .resume _ => none
  | .selfTest _ => none
  | .margin _ => none
  | .checkpoint _ => none
  | .restore _ => none
  | .packetFetch _ => none
  | .commandDispatch _ _ => none
  | .notBeforeReached _ it => some it
  | .commandCompletion _ => none
  | .completionRecordWrite _ => none
  | .queueDrained _ => none
  | .unitGrant _ => none
  | .lcCapReached _ it => some it
  | .quantumBoundary it => some it
  | .quiescentPoint _ => none
  | .drainEnd _ => none
  | .contextSaveDone _ => none
  | .contextRestoreDone _ => none
  | .mma _ _ _ _ => none
  | .tileReplay _ _ => none
  | .outputBlockRelease _ _ _ => none
  | .fwd _ _ _ => none
  | .stage _ _ _ => none
  | .tileNop _ _ => none
  | .tileWait _ _ => none
  | .tileSignal _ _ => none
  | .endTile _ _ => none
  | .engineEntryStart _ _ => none
  | .scan _ _ _ => none
  | .mask _ _ _ => none
  | .carry _ _ _ => none
  | .queryBlock _ _ _ _ => none
  | .txIn _ _ _ => none
  | .txOut _ _ _ => none
  | .s2d _ _ _ => none
  | .d2s _ _ _ => none
  | .relayout _ _ _ => none
  | .cropBox _ _ _ => none
  | .remoteAdd _ _ it => some it
  | .remoteWrite _ _ it => some it
  | .reply _ _ it => some it
  | .transitForward _ _ => none
  | .transportTimeout _ it => some it
  | .heldTransactionDeadline _ it => some it
  | .sourceFullResend _ it => some it
  | .linkFrameReceive _ _ _ _ => none
  | .nakReceived _ _ => none
  | .ackTimer _ it => some it
  | .linkFail _ => none
  | .retrainDone _ => none
  | .portTrainingRetry _ it => some it
  | .roceRetransmit _ _ => none
  | .ecnCnp _ _ => none
  | .ecnRateStep _ _ => none
  | .arpRequest _ _ => none
  | .timeInPulse it => some it
  | .todMessage _ => none
  | .ptpMessage _ _ it => some it
  | .holdoverTimeout it => some it
  | .cadenceWindowClose it => some it
  | .fillDone _ _ => none
  | .evictionWritebackDone _ => none
  | .regulatorGrant _ _ _ it => some it
  | .hbmScrub _ _ => none
  | .hbmRetrain _ _ => none
  | .readDisturbSample _ _ _ => none
  | .reclaim _ _ => none
  | .wearLevelMove _ => none
  | .readCounterPersist => none
  | .flashMapLoaded _ => none
  | .powerOn => none
  | .perst => none
  | .resetNAssert => none
  | .resetN => none
  | .hotReset => none
  | .lowInput _ => none
  | .underVoltageTrip _ => none
  | .overVoltageTrip _ => none
  | .pwrWarnAssert => none
  | .pwrWarnClear => none
  | .droopStretch _ _ => none
  | .stretchEnd _ _ => none
  | .avsUpdate _ _ => none
  | .allowDecay _ => none
  | .clampRecoverStep _ => none
  | .thermalThrottleStep _ _ => none
  | .thermalRecoverStep _ _ => none
  | .hbmStackHot _ _ => none
  | .junctionLimit _ _ => none
  | .washTick it _ => some it
  | .governorAdjust _ => none
  | .burnMismatch _ => none
  | .profileSwitchDone _ => none
  | .sbDrain => none
  | .tileTestDone _ _ => none
  | .hbmMarginDone _ _ _ => none
  | .eyeMeasureDone _ _ _ => none
  | .repairDone _ _ => none
  | .primerOpDone => none
  | .tileQuarantine _ _ => none
  | .tileRelease _ _ => none
  | .repairGo _ _ => none
  | .poolApply _ => none
  | .qEnable _ _ => none
  | .qDisable _ _ => none
  | .sqTailDb _ _ _ => none
  | .cqHeadDb _ _ _ => none
  | .objValueWrite _ _ _ => none
  | .granuleQuery _ _ => none
  | .sbRead _ _ => none
  | .sbNote _ _ => none
  | .resetCtl _ _ => none
  | .safeCtlEnter _ => none
  | .profileReq _ _ => none
  | .lcGo _ => none
  | .primerWrite _ _ => none
  | .primerErase _ _ => none
  | .primerValidate _ _ => none
  | .tileTestGo _ _ _ => none
  | .hbmMarginGo _ _ => none
  | .eyeGo _ _ _ => none
  | .portCfgWrite _ _ _ => none
  | .transportTimeoutWrite _ _ => none
  | .acctEnable _ _ => none
  | .washEnable _ _ => none
  | .regEnable _ _ => none
  | .pendingFieldWrite _ _ _ => none
  | .resClear _ _ => none
  | .glzClear _ _ => none
  | .attClear _ _ => none
  | .poolClear _ => none
  | .itxClear _ _ => none
  | .crsClear _ _ => none
  | .ingClear _ => none
  | .rtcClear _ _ => none
  | .hbmErrClear _ => none
  | .migClear _ => none
  | .ftlClear _ => none
  | .dmaClear _ _ => none
  | .cpClear _ => none
  | .schedClear _ => none
  | .linkClear _ => none
  | .timeClear _ => none
  | .depClear _ => none
  | .cvClear _ _ => none
  | .pwrClear _ => none
  | .adaptClear _ _ => none
  | .globalLock _ => none
  | .primerLock _ => none
  | .cpLock _ => none
  | .schedLock _ => none
  | .repairLock _ _ => none
  | .poolLock _ => none
  | .hbmLock _ => none
  | .ftlLock _ => none
  | .linkLock _ => none
  | .timeLock _ => none
  | .depLock _ => none
  | .pwrLock _ => none
  | .diagLock _ => none
  | .registerWrite _ _ _ _ => none
  | .ackReceived _ _ => none
  | .trainingDone _ _ => none
  | .lowInputEnd _ => none
  | .hbmStackCool _ _ => none
  | .flushWritebackDone _ _ => none
  | .videoFrame _ _ _ => none
  | .scanPacket _ => none
  | .replayWindowWrite _ _ => none
  | .pfcFrame _ _ _ => none

/-- Every operand lies in its range. -/
def Instr.wellFormed (i : Instr) : Bool :=
  match i with
  | .nop _ => true
  | .fence _ => true
  | .wait _ => true
  | .signal _ => true
  | .loadProgram _ => true
  | .run _ => true
  | .unloadProgram _ => true
  | .sceneOpen _ => true
  | .streamOpen _ => true
  | .fork _ => true
  | .forkCommit _ => true
  | .step _ => true
  | .ingestSeq _ => true
  | .streamCommit _ _ => true
  | .park _ => true
  | .parkRelease _ => true
  | .close _ => true
  | .closeScene _ => true
  | .copy _ => true
  | .dmaPiece _ _ _ => true
  | .migrateToHbm _ => true
  | .migrateFlush _ => true
  | .migrateToFlash _ => true
  | .migrateZeroFill _ => true
  | .hintPin _ => true
  | .hintUnpin _ => true
  | .hintNoWb _ => true
  | .hintWb _ => true
  | .hintStream _ => true
  | .hintNostream _ => true
  | .hintWillneed _ => true
  | .hintDontneed _ => true
  | .prefetchWindow _ => true
  | .update _ => true
  | .retouchClaim _ => true
  | .retouchChunk _ _ _ => true
  | .rootRefresh _ => true
  | .newtonIteration _ => true
  | .rootFlip _ => true
  | .ingestOpen _ => true
  | .ingestClose _ => true
  | .ingestVideo _ => true
  | .ingestStill _ => true
  | .ingestScan _ => true
  | .ingestSeal _ => true
  | .ingestRelease _ => true
  | .slotSeal _ it => itOk it
  | .preempt _ => true
  | .preemptDiscard _ => true
  | .resume _ => true
  | .selfTest _ => true
  | .margin _ => true
  | .checkpoint _ => true
  | .restore _ => true
  | .packetFetch _ => true
  | .commandDispatch _ _ => true
  | .notBeforeReached _ it => itOk it
  | .commandCompletion _ => true
  | .completionRecordWrite _ => true
  | .queueDrained _ => true
  | .unitGrant _ => true
  | .lcCapReached _ it => itOk it
  | .quantumBoundary it => itOk it
  | .quiescentPoint _ => true
  | .drainEnd _ => true
  | .contextSaveDone _ => true
  | .contextRestoreDone _ => true
  | .mma _ _ _ _ => true
  | .tileReplay _ _ => true
  | .outputBlockRelease _ _ _ => true
  | .fwd _ _ _ => true
  | .stage _ _ _ => true
  | .tileNop _ _ => true
  | .tileWait _ _ => true
  | .tileSignal _ _ => true
  | .endTile _ _ => true
  | .engineEntryStart _ _ => true
  | .scan _ _ _ => true
  | .mask _ _ _ => true
  | .carry _ _ _ => true
  | .queryBlock _ _ _ _ => true
  | .txIn _ _ _ => true
  | .txOut _ _ _ => true
  | .s2d _ _ _ => true
  | .d2s _ _ _ => true
  | .relayout _ _ _ => true
  | .cropBox _ _ _ => true
  | .remoteAdd _ tx it => itOk it && (tx.add && tx.payload.isEmpty)
  | .remoteWrite _ tx it => itOk it && (!tx.add && decide (tx.payload.length ≤ 4096))
  | .reply _ _ it => itOk it
  | .transitForward _ tx => decide (tx.payload.length ≤ 4096)
  | .transportTimeout _ it => itOk it
  | .heldTransactionDeadline _ it => itOk it
  | .sourceFullResend _ it => itOk it
  | .linkFrameReceive _ seq _ _ => decide (seq < 65536)
  | .nakReceived _ seq => decide (seq < 65536)
  | .ackTimer _ it => itOk it
  | .linkFail _ => true
  | .retrainDone _ => true
  | .portTrainingRetry _ it => itOk it
  | .roceRetransmit _ seq => decide (seq < 65536)
  | .ecnCnp _ _ => true
  | .ecnRateStep _ _ => true
  | .arpRequest _ _ => true
  | .timeInPulse it => itOk it
  | .todMessage _ => true
  | .ptpMessage domain _ it => itOk it && decide (domain < 256)
  | .holdoverTimeout it => itOk it
  | .cadenceWindowClose it => itOk it
  | .fillDone g _ => decide (g < 6291456)
  | .evictionWritebackDone g => decide (g < 6291456)
  | .regulatorGrant _ _ _ it => itOk it
  | .hbmScrub _ found => decide (found ≤ 2)
  | .hbmRetrain _ _ => true
  | .readDisturbSample blk steps _ => decide (blk < 1048576) && steps.length == 7
  | .reclaim blk _ => decide (blk < 1048576)
  | .wearLevelMove blk => decide (blk < 1048576)
  | .readCounterPersist => true
  | .flashMapLoaded _ => true
  | .powerOn => true
  | .perst => true
  | .resetNAssert => true
  | .resetN => true
  | .hotReset => true
  | .lowInput _ => true
  | .underVoltageTrip _ => true
  | .overVoltageTrip _ => true
  | .pwrWarnAssert => true
  | .pwrWarnClear => true
  | .droopStretch _ _ => true
  | .stretchEnd _ _ => true
  | .avsUpdate _ _ => true
  | .allowDecay _ => true
  | .clampRecoverStep _ => true
  | .thermalThrottleStep _ _ => true
  | .thermalRecoverStep _ _ => true
  | .hbmStackHot _ _ => true
  | .junctionLimit _ _ => true
  | .washTick it _ => itOk it
  | .governorAdjust _ => true
  | .burnMismatch _ => true
  | .profileSwitchDone _ => true
  | .sbDrain => true
  | .tileTestDone _ fails => fails.all fun f => decide (f.1 < 1024) && decide (f.2 < 512)
  | .hbmMarginDone _ _ _ => true
  | .eyeMeasureDone _ _ _ => true
  | .repairDone _ _ => true
  | .primerOpDone => true
  | .tileQuarantine _ _ => true
  | .tileRelease _ _ => true
  | .repairGo _ _ => true
  | .poolApply _ => true
  | .qEnable _ _ => true
  | .qDisable _ _ => true
  | .sqTailDb _ _ _ => true
  | .cqHeadDb _ _ _ => true
  | .objValueWrite _ _ _ => true
  | .granuleQuery _ _ => true
  | .sbRead _ _ => true
  | .sbNote _ _ => true
  | .resetCtl _ _ => true
  | .safeCtlEnter _ => true
  | .profileReq _ _ => true
  | .lcGo _ => true
  | .primerWrite _ _ => true
  | .primerErase _ _ => true
  | .primerValidate _ _ => true
  | .tileTestGo _ _ _ => true
  | .hbmMarginGo _ _ => true
  | .eyeGo _ _ _ => true
  | .portCfgWrite _ _ _ => true
  | .transportTimeoutWrite _ _ => true
  | .acctEnable _ _ => true
  | .washEnable _ _ => true
  | .regEnable _ _ => true
  | .pendingFieldWrite _ off _ => (List.range 8).any (fun n => off == 0x180020 + 4 * n) || off == 0x220020 || off == 0x220024
  | .resClear _ _ => true
  | .glzClear _ _ => true
  | .attClear _ _ => true
  | .poolClear _ => true
  | .itxClear _ _ => true
  | .crsClear _ _ => true
  | .ingClear _ => true
  | .rtcClear _ _ => true
  | .hbmErrClear _ => true
  | .migClear _ => true
  | .ftlClear _ => true
  | .dmaClear _ _ => true
  | .cpClear _ => true
  | .schedClear _ => true
  | .linkClear _ => true
  | .timeClear _ => true
  | .depClear _ => true
  | .cvClear _ _ => true
  | .pwrClear _ => true
  | .adaptClear _ _ => true
  | .globalLock _ => true
  | .primerLock _ => true
  | .cpLock _ => true
  | .schedLock _ => true
  | .repairLock _ _ => true
  | .poolLock _ => true
  | .hbmLock _ => true
  | .ftlLock _ => true
  | .linkLock _ => true
  | .timeLock _ => true
  | .depLock _ => true
  | .pwrLock _ => true
  | .diagLock _ => true
  | .registerWrite _ _ _ _ => true
  | .ackReceived _ seq => decide (seq < 65536)
  | .trainingDone _ rate => decide (1 ≤ rate) && decide (rate ≤ 3)
  | .lowInputEnd _ => true
  | .hbmStackCool _ _ => true
  | .flushWritebackDone _ g => decide (g < 6291456)
  | .videoFrame _ _ _ => true
  | .scanPacket _ => true
  | .replayWindowWrite _ _ => true
  | .pfcFrame _ prio _ => decide (prio < 8)

end Sys2Proof
end

