-- ==== Sys2Proof/Decode.lean ====
section
/-! DEFINITION. The block's commands have no encoding of their own: no row of the opcode table gives bits. A command reaches the queue
as a term of `Instr`. -/

namespace Sys2Proof

/-- The command a word of the opcode table's bits spells: none, since no row gives bits. -/
def decodeTableWord (_nbits _w : Nat) : Option Instr := none

end Sys2Proof
end

