-- ==== Sys2Proof/Machine/Num.lean ====
section
/-! DEFINITION. Number formats, block scales and rounding (03 R73-R96): exact values, one rounding, the codes of the
six element formats and the two scale formats, and the random word of stochastic rounding. -/

namespace Sys2Proof.Machine

/-- An exact number: NaN, an infinity, or `(-1)^neg * m * 2^e`. -/
inductive Val where
  | nan
  | inf (neg : Bool)
  | fin (neg : Bool) (m : Nat) (e : Int)
deriving DecidableEq, Repr

/-- Positive zero. -/
def Val.zero : Val := .fin false 0 0

/-- A natural number as a value. -/
def Val.ofNat (n : Nat) : Val := .fin false n 0

/-- An integer as a value. -/
def Val.ofInt (i : Int) : Val := .fin (decide (i < 0)) i.natAbs 0

/-- Bits of a magnitude: 0 for 0. -/
def bitLen (m : Nat) : Nat := if m = 0 then 0 else Nat.log2 m + 1

/-- `2^i` for a nonnegative exponent, 1 otherwise. -/
def pow2 (i : Int) : Nat := 2 ^ i.toNat

/-- The mantissa counted at a smaller or equal exponent `g`. -/
def alignTo (m : Nat) (e g : Int) : Nat := m * pow2 (e - g)

/-- The value is NaN or an infinity. -/
def Val.nonFinite : Val → Bool
  | .fin _ _ _ => false
  | _ => true

/-- The value is NaN. -/
def Val.isNan : Val → Bool
  | .nan => true
  | _ => false

/-- The value is a zero of either sign. -/
def Val.isZero : Val → Bool
  | .fin _ m _ => m == 0
  | _ => false

/-- The sign changed. -/
def Val.neg : Val → Val
  | .nan => .nan
  | .inf s => .inf (!s)
  | .fin s m e => .fin (!s) m e

/-- The magnitude. -/
def Val.abs : Val → Val
  | .nan => .nan
  | .inf _ => .inf false
  | .fin _ m e => .fin false m e

/-- The signed mantissa at exponent `g`. -/
def signedAt (s : Bool) (m : Nat) (e g : Int) : Int :=
  if s then -(Int.ofNat (alignTo m e g)) else Int.ofNat (alignTo m e g)

/-- Exact sum; an exact zero sum is +0 unless both operands are -0 (IEEE 754, round to nearest). -/
def Val.add : Val → Val → Val
  | .nan, _ => .nan
  | _, .nan => .nan
  | .inf a, .inf b => if a = b then .inf a else .nan
  | .inf a, .fin _ _ _ => .inf a
  | .fin _ _ _, .inf b => .inf b
  | .fin s m e, .fin t n f =>
    let g := min e f
    let x := signedAt s m e g + signedAt t n f g
    if x = 0 then .fin (s && t && (m == 0) && (n == 0)) 0 0
    else .fin (decide (x < 0)) x.natAbs g

/-- Exact product. -/
def Val.mul : Val → Val → Val
  | .nan, _ => .nan
  | _, .nan => .nan
  | .inf a, .inf b => .inf (a != b)
  | .inf a, .fin t n _ => if n = 0 then .nan else .inf (a != t)
  | .fin s m _, .inf b => if m = 0 then .nan else .inf (s != b)
  | .fin s m e, .fin t n f => .fin (s != t) (m * n) (e + f)

/-- Exact difference. -/
def Val.sub (a b : Val) : Val := a.add b.neg

/-- Exact scaling by `2^k`. -/
def Val.scale2 (k : Int) : Val → Val
  | .fin s m e => .fin s m (e + k)
  | v => v

/-- The quotient `a / b` to `prec` bits below the leading one, with a sticky last bit: every later rounding to at
most `prec - 2` bits is the rounding of the exact quotient. -/
def Val.divTo (prec : Nat) : Val → Val → Val
  | .nan, _ => .nan
  | _, .nan => .nan
  | .inf _, .inf _ => .nan
  | .inf a, .fin t _ _ => .inf (a != t)
  | .fin s _ _, .inf b => .fin (s != b) 0 0
  | .fin s m e, .fin t n f =>
    if n = 0 then (if m = 0 then .nan else .inf (s != t))
    else if m = 0 then .fin (s != t) 0 0
    else
      let k := prec + bitLen n
      let q := m * 2 ^ k / n
      let r := m * 2 ^ k % n
      .fin (s != t) (2 * q + (if r = 0 then 0 else 1)) (e - f - (k : Int) - 1)

/-- Order of two finite or infinite values: -1, 0, 1; 0 where either is NaN (callers test NaN first). -/
def Val.cmp : Val → Val → Int
  | .nan, _ => 0
  | _, .nan => 0
  | .inf a, .inf b => if a = b then 0 else if a then -1 else 1
  | .inf a, .fin _ _ _ => if a then -1 else 1
  | .fin _ _ _, .inf b => if b then 1 else -1
  | .fin s m e, .fin t n f =>
    let g := min e f
    let x := signedAt s m e g
    let y := signedAt t n f g
    if x < y then -1 else if x = y then 0 else 1

/-- `a < b`, false on NaN. -/
def Val.lt (a b : Val) : Bool := !a.isNan && !b.isNan && decide (Val.cmp a b < 0)

/-- `a ≤ b`, false on NaN. -/
def Val.le (a b : Val) : Bool := !a.isNan && !b.isNan && decide (Val.cmp a b ≤ 0)

/-- The rounding modes of R93, with the random word of the stochastic one, and rounding up (R89's scale). -/
inductive RMode where
  | rne
  | rtz
  | stoch (r : Nat)
  | up
deriving DecidableEq, Repr

/-- Whether magnitude `q + rem / 2^s` rounds to `q + 1` (R93). -/
def roundsUp (mode : RMode) (q rem s : Nat) : Bool :=
  match mode with
  | .rne => decide (2 * rem > 2 ^ s) || (decide (2 * rem = 2 ^ s) && decide (q % 2 = 1))
  | .rtz => false
  | .stoch r => decide (rem * 65536 / 2 ^ s + r ≥ 65536)
  | .up => rem != 0

/-- Magnitude `m * 2^e` rounded to a multiple of `2^g`: the multiple. -/
def roundToGrid (mode : RMode) (m : Nat) (e g : Int) : Nat :=
  if g ≤ e then alignTo m e g
  else
    let s := (g - e).toNat
    let q := m / 2 ^ s
    let rem := m % 2 ^ s
    if roundsUp mode q rem s then q + 1 else q

/-- A binary floating format: `p` significand bits, least unit `2^ulp`, largest exponent `top`. -/
structure FFmt where
  p : Nat
  ulp : Int
  top : Int
deriving DecidableEq, Repr

/-- binary32 (R73). -/
def f32 : FFmt := { p := 24, ulp := -149, top := 127 }
/-- binary16 (R73). -/
def f16 : FFmt := { p := 11, ulp := -24, top := 15 }
/-- L16 (R73). -/
def fL16 : FFmt := { p := 8, ulp := -133, top := 127 }
/-- S8 as a float grid (R74); its range ends at 448 by R91. -/
def fS8 : FFmt := { p := 4, ulp := -9, top := 8 }
/-- S4 as a float grid (R74); its range ends at 6 by R91. -/
def fS4 : FFmt := { p := 2, ulp := -1, top := 2 }

/-- The exponent of the grid step at magnitude `m * 2^e` in a format. -/
def FFmt.gridAt (f : FFmt) (m : Nat) (e : Int) : Int :=
  max (e + (bitLen m : Int) - (f.p : Int)) f.ulp

/-- A finite magnitude rounded on the format's grid with unbounded exponent. -/
def FFmt.roundMag (f : FFmt) (mode : RMode) (m : Nat) (e : Int) : Nat × Int :=
  let g := f.gridAt m e
  (roundToGrid mode m e g, g)

/-- Whether `m * 2^e` lies beyond the largest finite value of the format. -/
def FFmt.beyond (f : FFmt) (m : Nat) (e : Int) : Bool :=
  decide ((bitLen m : Int) + e > f.top + 1)

/-- The largest finite value's mantissa and exponent. -/
def FFmt.maxFin (f : FFmt) : Nat × Int := (2 ^ f.p - 1, f.top + 1 - (f.p : Int))

/-- Rounding to a format with IEEE 754 overflow to infinity. -/
def FFmt.round (f : FFmt) (mode : RMode) (v : Val) : Val :=
  match v with
  | .fin s m e =>
    let r := f.roundMag mode m e
    if f.beyond r.1 r.2 then (match mode with | .rtz => .fin s f.maxFin.1 f.maxFin.2 | _ => .inf s) else .fin s r.1 r.2
  | v => v

/-- Round to binary32, nearest even (R83, R84). -/
def r32 (v : Val) : Val := f32.round .rne v

/-- binary32 sum. -/
def add32 (a b : Val) : Val := r32 (a.add b)
/-- binary32 difference. -/
def sub32 (a b : Val) : Val := r32 (a.sub b)
/-- binary32 product. -/
def mul32 (a b : Val) : Val := r32 (a.mul b)
/-- binary32 quotient. -/
def div32 (a b : Val) : Val := r32 (Val.divTo 40 a b)
/-- binary32 fused multiply-add. -/
def fma32 (a b c : Val) : Val := r32 ((a.mul b).add c)

/-- Bits of the exponent field of a format. -/
def FFmt.bias (f : FFmt) : Int := 1 - (f.ulp + (f.p : Int) - 1)

/-- The magnitude code of a value on the format's grid: exponent field and fraction (R74). -/
def FFmt.magCode (f : FFmt) (m : Nat) (e : Int) : Nat :=
  let l := (bitLen m : Int)
  if m = 0 then 0
  else if e + l ≤ f.ulp + (f.p : Int) - 1 then alignTo m e f.ulp
  else
    let x := e + l - 1
    let frac := if (f.p : Int) ≤ l then m / 2 ^ (l - f.p).toNat else m * 2 ^ ((f.p : Int) - l).toNat
    ((x + f.bias).toNat - 1) * 2 ^ (f.p - 1) + frac

/-- The code of a value of an IEEE-like format of `bits` bits; canonical NaN of R76. -/
def FFmt.encode (f : FFmt) (bits : Nat) (v : Val) : Nat :=
  let expAll := (2 ^ (bits - f.p) - 1) * 2 ^ (f.p - 1)
  match v with
  | .nan => expAll + 2 ^ (f.p - 2)
  | .inf s => (if s then 2 ^ (bits - 1) else 0) + expAll
  | .fin s m e => (if s then 2 ^ (bits - 1) else 0) + f.magCode m e

/-- The value of a code of an IEEE-like format of `bits` bits (R74). -/
def FFmt.decode (f : FFmt) (bits : Nat) (c : Nat) : Val :=
  let s := decide (c / 2 ^ (bits - 1) % 2 = 1)
  let ex := c / 2 ^ (f.p - 1) % 2 ^ (bits - f.p)
  let fr := c % 2 ^ (f.p - 1)
  if ex = 2 ^ (bits - f.p) - 1 then (if fr = 0 then .inf s else .nan)
  else if ex = 0 then .fin s fr f.ulp
  else .fin s (fr + 2 ^ (f.p - 1)) (f.ulp + (ex : Int) - 1)

/-- The binary32 code of a value already on the grid. -/
def enc32 (v : Val) : Nat := f32.encode 32 v
/-- The value of a binary32 code. -/
def dec32 (c : Nat) : Val := f32.decode 32 c
/-- The value of a binary16 code. -/
def dec16 (c : Nat) : Val := f16.decode 16 c
/-- The value of an L16 code. -/
def decL16 (c : Nat) : Val := fL16.decode 16 c

/-- The value of an S8 code (R74, R76): no infinity, 0x7F and 0xFF are NaN. -/
def decS8 (c : Nat) : Val :=
  let s := decide (c / 128 % 2 = 1)
  let ex := c / 8 % 16
  let fr := c % 8
  if ex = 15 ∧ fr = 7 then .nan
  else if ex = 0 then .fin (s && (fr != 0)) fr (-9)
  else .fin s (fr + 8) ((ex : Int) - 10)

/-- The value of an S4 code (R74, R76). -/
def decS4 (c : Nat) : Val :=
  let s := decide (c / 8 % 2 = 1)
  let ex := c / 2 % 4
  let fr := c % 2
  if ex = 0 then .fin (s && (fr != 0)) fr (-1) else .fin s (fr + 2) ((ex : Int) - 2)

/-- The value of an I8 code. -/
def decI8 (c : Nat) : Val := if c % 256 < 128 then Val.ofNat (c % 256) else .fin true (256 - c % 256) 0

/-- The value of an E8M0 scale code (R77). -/
def decE8M0 (c : Nat) : Val := if c % 256 = 255 then .nan else .fin false 1 ((c % 256 : Nat) - 127 : Int)

/-- The element formats of R73 by code. -/
inductive EFmt where
  | b32 | b16 | l16 | s8 | s4 | i8
deriving DecidableEq, Repr

/-- The format a code names; none for the reserved codes 0x6 to 0xF. -/
def EFmt.ofCode : Nat → Option EFmt
  | 0 => some .b32
  | 1 => some .b16
  | 2 => some .l16
  | 3 => some .s8
  | 4 => some .s4
  | 5 => some .i8
  | _ => none

/-- Bits of one element. -/
def EFmt.bits : EFmt → Nat
  | .b32 => 32
  | .b16 => 16
  | .l16 => 16
  | .s8 => 8
  | .s4 => 4
  | .i8 => 8

/-- The formats that carry a block scale (R77). -/
def EFmt.scaled : EFmt → Bool
  | .s8 => true
  | .s4 => true
  | .i8 => true
  | _ => false

/-- Bytes of one scale: 1 for E8M0, 2 for binary16, 0 for none (R78). -/
def EFmt.scaleBytes : EFmt → Nat
  | .s8 => 1
  | .s4 => 1
  | .i8 => 2
  | _ => 0

/-- The decoded element value, its scale not applied (R74). -/
def EFmt.dec : EFmt → Nat → Val
  | .b32, c => dec32 c
  | .b16, c => dec16 c
  | .l16, c => decL16 c
  | .s8, c => decS8 c
  | .s4, c => decS4 c
  | .i8, c => decI8 c

/-- The scale value of a scale code (R77); 1 for an unscaled format. -/
def EFmt.decScale : EFmt → Nat → Val
  | .i8, c => dec16 c
  | .s8, c => decE8M0 c
  | .s4, c => decE8M0 c
  | _, _ => .fin false 1 0

/-- An element with its scale, exact but for overflow to infinity (R81). -/
def EFmt.value (f : EFmt) (elem scale : Nat) : Val :=
  if f.scaled then
    match (f.dec elem).mul (f.decScale scale) with
    | .fin s m e => if m != 0 && decide ((bitLen m : Int) + e > 128) then .inf s else .fin s m e
    | v => v
  else f.dec elem

/-- The conversion control word's fields (R86). -/
structure Cvt where
  fmt : EFmt
  sat : Bool
  ceil : Bool
  block : Nat
  rnd : Nat
deriving DecidableEq, Repr

/-- A CVT word, refused where a reserved field or code is set (R86). -/
def Cvt.ofWord (w : Nat) : Option Cvt :=
  if w / 4096 % 16 ≠ 0 ∨ w / 4 % 4 ≠ 0 ∨ w / 16 % 4 ≥ 2 then none
  else (EFmt.ofCode (w / 256 % 16)).map fun f =>
    { fmt := f, sat := decide (w / 128 % 2 = 1), ceil := decide (w / 64 % 2 = 1),
      block := if w / 16 % 4 = 1 then 16 else 32, rnd := w % 4 }

/-- The write points of R87. -/
inductive WritePoint where
  | glaze | retouch | other
deriving DecidableEq, Repr

/-- The mode RND resolves to (R87): `sketch` is the profile in force; `r` the element's random word. -/
def Cvt.mode (c : Cvt) (wp : WritePoint) (sketch : Bool) (r : Nat) : RMode :=
  if c.rnd = 1 then .rne
  else if c.rnd = 2 then .stoch r
  else if c.rnd = 3 then .rtz
  else if sketch then .rne
  else match wp with
    | .other => .rne
    | _ => .stoch r

/-- `z` reduced to 64 bits. -/
def u64 (z : Nat) : Nat := z % 2 ^ 64

/-- The mix function of R94. -/
def mix64 (z0 : Nat) : Nat :=
  let z := u64 (z0 + 0x9E3779B97F4A7C15)
  let z := u64 ((z ^^^ (z >>> 30)) * 0xBF58476D1CE4E5B9)
  let z := u64 ((z ^^^ (z >>> 27)) * 0x94D049BB133111EB)
  z ^^^ (z >>> 31)

/-- The random word of R94 from the inputs of R95. -/
def rndWord (seed stream pos purpose site element : Nat) : Nat :=
  let x := mix64 (u64 seed ^^^ u64 stream)
  let x := mix64 (x ^^^ u64 pos)
  let x := mix64 (x ^^^ ((purpose % 256) <<< 56 ||| (site % 2 ^ 24) <<< 32 ||| (element % 2 ^ 32)))
  x >>> 48

/-- `m * 2^e` reaches beyond an integer bound. -/
def overNat (m : Nat) (e : Int) (bound : Nat) : Bool :=
  let g := min e 0
  decide (alignTo m e g > alignTo bound 0 g)

/-- One converted element: its code, and whether it was saturated (R91). -/
structure ConvElem where
  code : Nat
  satd : Bool
deriving DecidableEq, Repr

/-- A quotient of a block-scaled destination written as an element (R88, R89, R91); none makes the whole block a NaN
block. -/
def convQuot (f : EFmt) (sat : Bool) (mode : RMode) (v : Val) : Option ConvElem :=
  match v with
  | .fin s m e =>
    match f with
    | .s4 =>
      if overNat m e 6 then (if sat then some ⟨(if s then 8 else 0) + 7, true⟩ else none)
      else
        let r := fS4.roundMag mode m e
        let c := fS4.magCode r.1 r.2
        some ⟨if c = 0 then 0 else (if s then 8 else 0) + min c 7, false⟩
    | .s8 =>
      if overNat m e 448 then (if sat then some ⟨(if s then 128 else 0) + 0x7E, true⟩ else some ⟨0x7F, false⟩)
      else
        let r := fS8.roundMag mode m e
        let c := fS8.magCode r.1 r.2
        some ⟨if c = 0 then 0 else (if s then 128 else 0) + min c 0x7E, false⟩
    | .i8 =>
      if overNat m e 127 then (if sat then some ⟨if s then 129 else 127, true⟩ else none)
      else
        let q := roundToGrid mode m e 0
        some ⟨if s then (256 - q) % 256 else q, false⟩
    | _ => none
  | _ => none

/-- One element written to binary32, binary16 or L16 (R90, R91); toward zero, no finite source is beyond the largest finite value. -/
def convPlain (f : EFmt) (sat : Bool) (mode : RMode) (v : Val) : ConvElem :=
  let go (ff : FFmt) (bits : Nat) : ConvElem :=
    match v with
    | .fin s m e =>
      let r := ff.roundMag mode m e
      if ff.beyond r.1 r.2 then
        (if mode = .rtz then ⟨ff.encode bits (.fin s ff.maxFin.1 ff.maxFin.2), false⟩
        else if sat then ⟨ff.encode bits (.fin s ff.maxFin.1 ff.maxFin.2), true⟩ else ⟨ff.encode bits (.inf s), false⟩)
      else ⟨ff.encode bits (.fin s r.1 r.2), false⟩
    | v => ⟨ff.encode bits v, false⟩
  match f with
  | .b16 => go f16 16
  | .l16 => go fL16 16
  | _ => ⟨enc32 v, false⟩

/-- The largest magnitude of a list of finite values. -/
def maxAbs (vs : List Val) : Val := vs.foldl (fun a v => if a.lt v.abs then v.abs else a) Val.zero

/-- `floor(log2 (m * 2^e))` of a nonzero magnitude. -/
def floorLog2 (m : Nat) (e : Int) : Int := e + (Nat.log2 m : Int)

/-- The E8M0 exponent of R88 for largest magnitude `m * 2^e`, nonzero. -/
def scaleExp (f : EFmt) (ceil : Bool) (m : Nat) (e : Int) : Int :=
  let emax : Int := if f = .s4 then 2 else 8
  let mmax : Nat := if f = .s4 then 6 else 448
  let x :=
    if ceil then
      -- the least k with m * 2^e ≤ mmax * 2^k
      let k0 := floorLog2 m e - (Nat.log2 mmax : Int)
      let g := min e (min k0 0)
      if alignTo m e g ≤ alignTo mmax k0 g then k0 else k0 + 1
    else floorLog2 m e - emax
  min (max x (-127)) 127

/-- A written block: its scale code, its element codes and how many were saturated. -/
structure ConvBlock where
  scale : Nat
  elems : List Nat
  satd : Nat
deriving DecidableEq, Repr

/-- A NaN block of `n` elements (R91). -/
def nanBlock (f : EFmt) (n : Nat) : ConvBlock :=
  { scale := if f = .i8 then 0x7E00 else 0xFF, elems := List.replicate n 0, satd := 0 }

/-- Collect the elements of a block, none where one of them makes it a NaN block. -/
def convElems (f : EFmt) (sat : Bool) (quot : Val → Val) : List Val → List RMode → Option (List ConvElem)
  | [], _ => some []
  | v :: vs, ms =>
    match convQuot f sat (ms.headD .rne) (quot v), convElems f sat quot vs ms.tail with
    | some x, some xs => some (x :: xs)
    | _, _ => none

/-- A block of a block-scaled destination (R88, R89, R91): the values that take part, one mode each. -/
def convBlock (c : Cvt) (vs : List Val) (modes : List RMode) : ConvBlock :=
  if vs.any Val.nonFinite then nanBlock c.fmt vs.length
  else
    match maxAbs vs with
    | .fin _ m e =>
      if m = 0 then
        { scale := if c.fmt = .i8 then 0x3C00 else 0x7F, elems := vs.map fun _ => 0, satd := 0 }
      else if c.fmt = .i8 then
        let s0 := f16.round .up (Val.divTo 40 (.fin false m e) (Val.ofNat 127))
        let s1 := if s0.lt (.fin false 1 (-24)) then .fin false 1 (-24) else s0
        if s1.nonFinite && !c.sat then nanBlock c.fmt vs.length
        else
          let s2 := if s1.nonFinite then Val.ofNat 65504 else s1
          match convElems .i8 c.sat (fun v => Val.divTo 40 v s2) vs modes with
          | some es => { scale := f16.encode 16 s2, elems := es.map (·.code), satd := (es.filter (·.satd)).length }
          | none => nanBlock c.fmt vs.length
      else
        let k := scaleExp c.fmt c.ceil m e
        match convElems c.fmt c.sat (fun v => v.scale2 (-k)) vs modes with
        | some es => { scale := (k + 127).toNat, elems := es.map (·.code), satd := (es.filter (·.satd)).length }
        | none => nanBlock c.fmt vs.length
    | _ => nanBlock c.fmt vs.length

/-- Split a list into runs of `n` (the last may be shorter), at most `fuel` runs. -/
def chunksOf {α : Type} (n : Nat) : Nat → List α → List (List α)
  | 0, _ => []
  | _, [] => []
  | fuel + 1, xs => xs.take n :: chunksOf n fuel (xs.drop n)

/-- A row of values converted under a CVT word: element codes, scale codes, saturated count. -/
def convRow (c : Cvt) (vs : List Val) (modes : List RMode) : List Nat × List Nat × Nat :=
  if c.fmt.scaled then
    let bs := (chunksOf c.block vs.length vs).zip (chunksOf c.block modes.length modes)
    let rs := bs.map fun b => convBlock c b.1 b.2
    (rs.flatMap (·.elems), rs.map (·.scale), rs.foldl (fun a b => a + b.satd) 0)
  else
    let rs := vs.zipWith (fun v m => convPlain c.fmt c.sat m v) modes
    (rs.map (·.code), [], (rs.filter (·.satd)).length)

/-- The integer of an element in its block unit (R83), and the unit's exponent: S4 2^-1, S8 2^-9, I8 1. -/
def EFmt.unitExp : EFmt → Int
  | .s4 => -1
  | .s8 => -9
  | _ => 0

/-- The exact block sum of R83 in units of both operands; none where an element is NaN. -/
def blockSum (fa fb : EFmt) (as bs : List Nat) : Val :=
  (as.zipWith (fun a b => (fa.dec a).mul (fb.dec b)) bs).foldl Val.add Val.zero

/-- The contribution of one block (R83): block sum times both scales, rounded once. -/
def contribution (fa fb : EFmt) (as bs : List Nat) (sa sb : Nat) : Val :=
  r32 ((blockSum fa fb as bs).mul ((fa.decScale sa).mul (fb.decScale sb)))

/-- The pairs of R82. -/
def pairOk (a b : EFmt) : Bool :=
  match a, b with
  | .s4, .s4 => true
  | .s4, .s8 => true
  | .s8, .s4 => true
  | .s8, .s8 => true
  | .i8, .i8 => true
  | .l16, .l16 => true
  | .b16, .b16 => true
  | _, _ => false

/-- Multiply-accumulates per cell per cycle of a pair (R82): the ρ of the pair. -/
def pairRho (a b : EFmt) : Nat :=
  match a, b with
  | .s4, .s4 => 4
  | .l16, .l16 => 1
  | .b16, .b16 => 1
  | _, _ => 2

end Sys2Proof.Machine
end

