-- ==== Sys2Proof/Machine/Math.lean ====
section
/-! DEFINITION. The correctly rounded functions the engines use: exp, sine and cosine of a 24-bit turn, square roots. Each is
computed in fixed point with 256 fraction bits and a sticky last bit, then rounded once; that this precision decides every
rounding is log entry 21. -/

namespace Sys2Proof.Machine

/-- Fraction bits of the fixed-point values. -/
def fpBits : Nat := 256

/-- `floor(ln 2 * 2^256)`. -/
def fpLn2 : Int := 80260960185991308862233904206310070533990667611589946606122867505419956976171

/-- `floor(pi * 2^256)`. -/
def fpPi : Int := 363771576891766324280234942777729862653393377328392429958772151117938894466185

/-- Fixed-point product. -/
def fpMul (a b : Int) : Int := (a * b).fdiv (2 ^ fpBits)

/-- Taylor sum of `exp` from term `k` on, `fuel` terms; `t` is the term before. -/
def expSum (r : Int) : Nat → Nat → Int → Int
  | 0, _, _ => 0
  | fuel + 1, k, t =>
    let t' := (fpMul t r).fdiv (k : Int)
    t' + expSum r fuel (k + 1) t'

/-- Taylor sum of sine or cosine: alternating terms, two powers a step. -/
def trigSum (r2 : Int) : Nat → Nat → Int → Int
  | 0, _, _ => 0
  | fuel + 1, k, t =>
    let t' := -((fpMul t r2).fdiv ((k * (k + 1) : Nat) : Int))
    t' + trigSum r2 fuel (k + 2) t'

/-- A value in fixed point, toward minus infinity. -/
def fpOf (s : Bool) (m : Nat) (e : Int) : Int :=
  let k := e + (fpBits : Int)
  let v : Int := if 0 ≤ k then ((m * pow2 k : Nat) : Int) else ((m : Int)).fdiv (2 ^ (-k).toNat)
  if s then -v else v

/-- A positive fixed-point number scaled by `2^n`, marked inexact. -/
def fpVal (v : Int) (n : Int) : Val := .fin (decide (v < 0)) (2 * v.natAbs + 1) (n - (fpBits : Int) - 1)

/-- `exp` of a value before its one rounding. -/
def expExact (v : Val) : Val :=
  match v with
  | .nan => .nan
  | .inf true => .zero
  | .inf false => .inf false
  | .fin s m e =>
    if m = 0 then .fin false 1 0
    else if overNat m e 1024 then (if s then .fin false 1 (-2000) else .fin false 1 2000)
    else
      let x := fpOf s m e
      let n := x.fdiv fpLn2
      let r := x - n * fpLn2
      fpVal (2 ^ fpBits + expSum r 60 1 (2 ^ fpBits)) n

/-- exp correctly rounded to binary32. -/
def exp32 (v : Val) : Val := r32 (expExact v)

/-- Cosine and sine of `rem / 2^22` of a quarter turn, `rem` not 0, in fixed point. -/
def quarterTrig (rem : Nat) : Int × Int :=
  let r := (fpPi * (rem : Int)).fdiv (2 ^ 23)
  let r2 := fpMul r r
  (2 ^ fpBits + trigSum r2 40 1 (2 ^ fpBits), r + trigSum r2 40 2 r)

/-- Cosine and sine of `t / 2^24` of a turn, correctly rounded to binary32 (R220). -/
def cosSinTurn (t : Nat) : Val × Val :=
  let q := t / 2 ^ 22 % 4
  let rem := t % 2 ^ 22
  let cs : Val × Val :=
    if rem = 0 then (.fin false 1 0, .zero)
    else
      let x := quarterTrig rem
      (fpVal x.1 0, fpVal x.2 0)
  let c := r32 cs.1
  let s := r32 cs.2
  match q with
  | 0 => (c, s)
  | 1 => (if s.isZero then .zero else s.neg, c)
  | 2 => (c.neg, if s.isZero then .zero else s.neg)
  | _ => (s, c.neg)

/-- Integer square root by bits, from bit `k - 1` down. -/
def isqrtFrom (n : Nat) : Nat → Nat → Nat
  | 0, a => a
  | k + 1, a => if (a + 2 ^ k) * (a + 2 ^ k) ≤ n then isqrtFrom n k (a + 2 ^ k) else isqrtFrom n k a

/-- `floor(sqrt n)` of a number below `2^400`. -/
def isqrt (n : Nat) : Nat := isqrtFrom n 200 0

/-- Square root with at least 60 result bits and a sticky last bit. -/
def sqrtExact (v : Val) : Val :=
  match v with
  | .nan => .nan
  | .inf s => if s then .nan else .inf false
  | .fin s m e =>
    if m = 0 then .fin s 0 0
    else if s then .nan
    else
      let sh : Nat := 128 + (if (e - 128) % 2 = 0 then 0 else 1)
      let n := m * 2 ^ sh
      let q := isqrt n
      .fin false (2 * q + (if q * q = n then 0 else 1)) ((e - sh) / 2 - 1)

/-- The square root rounded to binary32. -/
def sqrt32 (v : Val) : Val := r32 (sqrtExact v)

/-- `1 / sqrt(v)` rounded once to binary32: the quotient of the exact `v` and its root's square is never needed, since the root is
held to far more bits than one rounding can see. -/
def rsqrt32 (v : Val) : Val :=
  match v with
  | .fin s m e =>
    if m = 0 then .inf s
    else if s then .nan
    else
      -- 1 / sqrt(m * 2^e) = sqrt(2^K / m) * 2^((-e - K) / 2)
      let k : Nat := 220 + (if (-e - 220) % 2 = 0 then 0 else 1)
      let n := 2 ^ k / m
      let q := isqrt n
      r32 (.fin false (2 * q + (if q * q * m = 2 ^ k then 0 else 1)) ((-e - k) / 2 - 1))
  | .inf s => if s then .nan else .zero
  | .nan => .nan

end Sys2Proof.Machine
end

