-- ==== Sys2Proof/Machine/SMap.lean ====
section
/-! DEFINITION. A sparse table held as a list in one canonical form: keys strictly rising, and no entry equal to
what an unlisted key reads as. Every memory and every large table of the machine is one of these, so equal
contents are equal data. -/

namespace Sys2Proof.Machine

/-- Entries of a sparse table: key and value. -/
abbrev SMap (α : Type) := List (Nat × α)

/-- The value at key `k`; `d k` where nothing is listed. -/
def SMap.get {α : Type} (d : Nat → α) : SMap α → Nat → α
  | [], k => d k
  | (j, v) :: m, k => if j = k then v else SMap.get d m k

/-- `v` at key `k`, put before the first larger key. -/
def SMap.insert {α : Type} (k : Nat) (v : α) : SMap α → SMap α
  | [] => [(k, v)]
  | (j, w) :: m => if k < j then (k, v) :: (j, w) :: m else (j, w) :: SMap.insert k v m

/-- `v` at key `k`, every other key as before; an entry equal to `d k` is not listed. -/
def SMap.set {α : Type} [DecidableEq α] (d : Nat → α) (k : Nat) (v : α) : SMap α → SMap α
  | [] => if v = d k then [] else [(k, v)]
  | e :: m =>
    let r := (e :: m).filter fun e => e.1 != k
    if v = d k then r else SMap.insert k v r

/-- Every listed key lies at or above `lo`, keys rise strictly, and no entry is a default. -/
def SMap.wfFrom {α : Type} [DecidableEq α] (d : Nat → α) : Nat → SMap α → Bool
  | _, [] => true
  | lo, (k, v) :: m => decide (lo ≤ k) && decide (v ≠ d k) && SMap.wfFrom d (k + 1) m

/-- The canonical form. -/
def SMap.wf {α : Type} [DecidableEq α] (d : Nat → α) (m : SMap α) : Bool := SMap.wfFrom d 0 m

/-- The table without its entries in `[lo, lo + n)`: they read as the default. -/
def SMap.erase {α : Type} (lo n : Nat) (m : SMap α) : SMap α :=
  m.filter fun e => !(lo ≤ e.1 && e.1 < lo + n)

/-- The listed entries in `[lo, lo + n)`, their keys counted from `base`. -/
def SMap.slice {α : Type} (lo n base : Nat) (m : SMap α) : SMap α :=
  (m.filter fun e => decide (lo ≤ e.1) && decide (e.1 < lo + n)).map fun e => (e.1 - lo + base, e.2)

/-- Store every entry of a list, in order. -/
def SMap.setAll {α : Type} [DecidableEq α] (d : Nat → α) (es : SMap α) (m : SMap α) : SMap α :=
  es.foldl (fun m e => SMap.set d e.1 e.2 m) m

/-- Apply a change to every listed entry, keeping the canonical form. -/
def SMap.mapEntries {α : Type} [DecidableEq α] (d : Nat → α) (f : Nat → α → α) (m : SMap α) : SMap α :=
  (m.map fun e => (e.1, f e.1 e.2)).filter fun e => decide (e.2 ≠ d e.1)

/-- Replace the value at one key by a function of it. -/
def SMap.modify {α : Type} [DecidableEq α] (d : Nat → α) (k : Nat) (f : α → α) (m : SMap α) : SMap α :=
  SMap.set d k (f (SMap.get d m k)) m

end Sys2Proof.Machine
end

