-- ==== Sys2Proof/Machine/RegMap.lean ====
section
/-! DEFINITION. The register map of BAR0 (18 R542-R564) with every field's place, access code, reset value, range,
primer flag and lock bit, from the field tables of the owning chapters. A field not listed is reserved. -/

namespace Sys2Proof.Machine

/-- The access codes of R8. -/
inductive Acc where
  | ro | rw | rwl | w1c | w1s | wo
deriving DecidableEq, Repr

/-- The values a field accepts (R546): a write outside is ignored for that field. -/
inductive Rng where
  | any
  | between (lo hi : Nat)
  | atMost (hi : Nat)
  | oneOf (vs : List Nat)
  | multipleOf (n : Nat)
  | multipleUpTo (n hi : Nat)
deriving DecidableEq, Repr

/-- What a stored value reads as, where its description gives another treatment (R546). -/
inductive ReadAs where
  | raw
  | zeroAs (n : Nat)
  | capAt (n : Nat)
deriving DecidableEq, Repr

/-- One field of a register, bits `hi` to `lo` of its 32- or 64-bit value. -/
structure RField where
  hi : Nat
  lo : Nat
  acc : Acc
  reset : Nat := 0
  rng : Rng := .any
  rd : ReadAs := .raw
  /-- its documented range, where a write outside is stored and treated otherwise (R243, R333): what a primer entry must keep (R525) -/
  doc : Rng := .any
  primer : Bool := false
  pendingF : Bool := false
deriving DecidableEq, Repr

/-- A family of registers: `base + s1*i + s2*j` for `i < n1`, `j < n2`. `wide`: 64 bits. `lock`: the address of the
LOCK bit's word, `base`-independent but strided by `ls` per `i`; 0 where no lock covers it. -/
structure RegRow where
  base : Nat
  s1 : Nat := 0x4000000
  n1 : Nat := 1
  s2 : Nat := 0
  n2 : Nat := 1
  wide : Bool := false
  lock : Nat := 0
  ls : Nat := 0
  fields : List RField
deriving DecidableEq, Repr

/-- Bytes of one register of the row. -/
def RegRow.bytes (r : RegRow) : Nat := if r.wide then 8 else 4

/-- Indices of the row's register that covers BAR0 offset `o`, and the byte inside it. -/
def RegRow.locate (r : RegRow) (o : Nat) : Option (Nat × Nat × Nat) :=
  if o < r.base then none else
  let d := o - r.base
  let i := d / r.s1
  let e := d % r.s1
  if r.n1 ≤ i then none
  else if r.s2 = 0 then (if e < r.bytes then some (i, 0, e) else none)
  else
    let j := e / r.s2
    let b := e % r.s2
    if j < r.n2 ∧ b < r.bytes then some (i, j, b) else none

/-- A register found at an offset: its row, first index, second index, and its own BAR0 offset. -/
structure RegAt where
  row : RegRow
  i : Nat
  j : Nat
  off : Nat
  byte : Nat
deriving DecidableEq, Repr

/-- Plain read-only field. -/
def fro (hi lo : Nat) (reset : Nat := 0) : RField := { hi := hi, lo := lo, acc := .ro, reset := reset }
/-- Write-only field. -/
def fwo (hi lo : Nat) : RField := { hi := hi, lo := lo, acc := .wo }
/-- Lockable field that the primer image may override. -/
def flk (hi lo reset : Nat) (rng : Rng := .any) (rd : ReadAs := .raw) : RField :=
  { hi := hi, lo := lo, acc := .rwl, reset := reset, rng := rng, rd := rd, primer := true }
/-- Lockable field that the primer image may not override. -/
def fln (hi lo reset : Nat) (rng : Rng := .any) : RField :=
  { hi := hi, lo := lo, acc := .rwl, reset := reset, rng := rng }
/-- Read-write field. -/
def frw (hi lo reset : Nat) (rng : Rng := .any) : RField :=
  { hi := hi, lo := lo, acc := .rw, reset := reset, rng := rng }
/-- A LOCK bit (R549) that the primer image may set. -/
def fLock : List RField := [{ hi := 0, lo := 0, acc := .w1s, primer := true }]
/-- A CLEAR or GO bit. -/
def fGo : List RField := [fwo 0 0]
/-- A 32-bit counter. -/
def fCnt : List RField := [fro 31 0]
/-- A 64-bit counter. -/
def fCnt64 : List RField := [fro 63 0]

/-- Identity and global (R539, R551). -/
def regsGlobal : List RegRow := [
  { base := 0x000, fields := [fro 31 16 0x4C59, fro 15 0 0x2416] },
  { base := 0x004, fields := [fro 15 8, fro 7 0] },
  { base := 0x008, fields := [fro 15 8 0x0C, fro 3 0] },
  { base := 0x00C, fields := [fro 6 0] },
  { base := 0x010, wide := true, fields := fCnt64 },
  { base := 0x018, wide := true, fields := fCnt64 },
  { base := 0x100, fields := [fwo 15 8, fwo 0 0] },
  { base := 0x104, fields := [fro 3 0] },
  { base := 0x108, fields := [fro 12 12, fro 9 8, fro 4 4, fro 3 0] },
  { base := 0x10C, fields := fCnt },
  { base := 0x120, lock := 0x130, fields := [flk 31 0 0] },
  { base := 0x128, wide := true, lock := 0x130, fields := [flk 47 0 0] },
  { base := 0x130, fields := fLock }]

/-- Life cycle and scrape (R540, R552), primer control (R541), sketchbook (R500, R553). -/
def regsLife : List RegRow := [
  { base := 0x1000, fields := [fro 4 4, fro 2 0] },
  { base := 0x1008, wide := true, fields := fCnt64 },
  { base := 0x1010, fields := fGo },
  { base := 0x1014, fields := [fro 3 0] },
  { base := 0x1018, fields := fCnt },
  { base := 0x1020, fields := [fro 5 5, fro 4 4, fro 3 0 1] },
  { base := 0x1028, wide := true, fields := fCnt64 },
  { base := 0x1030, fields := fCnt },
  { base := 0x1034, fields := fCnt },
  { base := 0x1040, s2 := 4, n2 := 8, fields := fCnt },
  { base := 0x1060, s2 := 4, n2 := 8, fields := fCnt },
  { base := 0x1100, s2 := 4, n2 := 32, fields := [frw 31 0 0] },
  { base := 0x2000, fields := [fro 23 16, fro 15 8, fro 1 0] },
  { base := 0x2008, wide := true, fields := fCnt64 },
  { base := 0x2010, wide := true, fields := fCnt64 },
  { base := 0x2018, wide := true, fields := [frw 63 0 0 (.multipleOf 256)] },
  { base := 0x2020, fields := [fwo 8 8, frw 4 4 0, frw 1 0 2] },
  { base := 0x2024, fields := [fro 15 8, fro 3 0] },
  { base := 0x2028, fields := fLock },
  { base := 0x3000, fields := [fro 1 1, fro 0 0] },
  { base := 0x3008, wide := true, fields := fCnt64 },
  { base := 0x3010, wide := true, fields := fCnt64 },
  { base := 0x3018, fields := [fro 12 0] },
  { base := 0x301C, fields := fCnt },
  { base := 0x3020, wide := true, fields := [frw 63 63 0, frw 62 0 0] },
  { base := 0x3028, fields := [fro 1 0] },
  { base := 0x3040, wide := true, fields := [fwo 63 0] },
  { base := 0x3100, s2 := 4, n2 := 16, fields := fCnt }]

/-- Command processor and doorbells (R399-R402, R554). -/
def regsCp : List RegRow := [
  { base := 0x10000, s1 := 0x40, n1 := 512, fields := [frw 0 0 0] },
  { base := 0x10004, s1 := 0x40, n1 := 512, fields := [{ hi := 3, lo := 3, acc := .w1c }, { hi := 2, lo := 2, acc := .w1c }, fro 1 0] },
  { base := 0x10008, s1 := 0x40, n1 := 512, wide := true, fields := [frw 63 0 0 (.multipleOf 4096)] },
  { base := 0x10010, s1 := 0x40, n1 := 512, wide := true, fields := [frw 63 0 0 (.multipleOf 4096)] },
  { base := 0x10018, s1 := 0x40, n1 := 512, fields := [frw 12 8 4 (.between 4 16), frw 4 0 4 (.between 4 16)] },
  { base := 0x1001C, s1 := 0x40, n1 := 512, fields := [fro 15 0] },
  { base := 0x10020, s1 := 0x40, n1 := 512, fields := [fro 16 16 1, fro 15 0] },
  { base := 0x10028, s1 := 0x40, n1 := 512, wide := true, fields := fCnt64 },
  { base := 0x18000, s1 := 8, n1 := 512, fields := [fwo 15 0] },
  { base := 0x18004, s1 := 8, n1 := 512, fields := [fwo 15 0] },
  { base := 0x19000, s1 := 4, n1 := 64, lock := 0x1A018, fields := [flk 16 0 0 (.atMost 65536) (.zeroAs 65536)] },
  { base := 0x19100, s1 := 4, n1 := 64, fields := [fro 16 0] },
  { base := 0x1A000, fields := [fro 16 0] },
  { base := 0x1A008, wide := true, fields := fCnt64 },
  { base := 0x1A010, fields := fCnt },
  { base := 0x1A014, fields := fGo },
  { base := 0x1A018, fields := fLock }]

/-- Scheduler (R437-R439), synchronisation objects (R414), stream table summary (R20), all of R555. -/
def regsSched : List RegRow := [
  { base := 0x20000, lock := 0x20034, fields := [flk 23 16 0x46 .any (.capAt 100), flk 0 0 1] },
  { base := 0x20004, lock := 0x20034, fields := [flk 31 0 100000 (.between 10000 10000000)] },
  { base := 0x20010, wide := true, fields := [frw 63 0 0 (.multipleOf 4096)] },
  { base := 0x20018, fields := [frw 31 31 0, frw 4 0 8 (.between 8 16)] },
  { base := 0x20020, wide := true, fields := fCnt64 },
  { base := 0x20028, wide := true, fields := fCnt64 },
  { base := 0x20030, fields := fGo },
  { base := 0x20034, fields := fLock },
  { base := 0x20100, s1 := 4, n1 := 64, lock := 0x20034, fields := [flk 23 16 0, flk 7 0 0x10 .any (.zeroAs 1)] },
  { base := 0x20200, s1 := 4, n1 := 64, fields := [fro 23 16, fro 15 0] },
  { base := 0x40000, s1 := 16, n1 := 16384, wide := true, fields := [frw 63 0 0] },
  { base := 0x40008, s1 := 16, n1 := 16384, fields := [frw 31 31 0, frw 29 14 0, frw 13 0 0] },
  { base := 0x4000C, s1 := 16, n1 := 16384, fields := [{ hi := 31, lo := 31, acc := .w1c }, { hi := 30, lo := 30, acc := .w1c }, fro 16 0] },
  { base := 0x80000, s1 := 32, n1 := 16384, s2 := 8, n2 := 4, wide := true, fields := fCnt64 }]

/-- Tile control (R128-R135, R519, R556). -/
def regsTile : List RegRow := [
  { base := 0x100000, s1 := 0x1000, n1 := 64, fields := fCnt },
  { base := 0x100004, s1 := 0x1000, n1 := 64, fields := [fwo 31 0] },
  { base := 0x100100, s1 := 0x1000, n1 := 64, s2 := 4, n2 := 2, fields := fCnt },
  { base := 0x100108, s1 := 0x1000, n1 := 64, s2 := 4, n2 := 2, fields := [fro 15 0] },
  { base := 0x100110, s1 := 0x1000, n1 := 64, fields := fGo },
  { base := 0x100120, s1 := 0x1000, n1 := 64, s2 := 4, n2 := 8, fields := fCnt },
  { base := 0x100200, s1 := 0x1000, n1 := 64, s2 := 4, n2 := 16, fields := fCnt },
  { base := 0x100280, s1 := 0x1000, n1 := 64, lock := 0x10028C, ls := 0x1000, fields := [fln 30 28 0, fln 15 8 0, fln 3 0 0xF] },
  { base := 0x100284, s1 := 0x1000, n1 := 64, fields := fGo },
  { base := 0x100288, s1 := 0x1000, n1 := 64, fields := [fro 7 4, fro 3 0] },
  { base := 0x10028C, s1 := 0x1000, n1 := 64, fields := fLock },
  { base := 0x100300, s1 := 0x1000, n1 := 64, s2 := 4, n2 := 8, fields := fCnt },
  { base := 0x100320, s1 := 0x1000, n1 := 64, s2 := 4, n2 := 8, fields := fCnt },
  { base := 0x100800, s1 := 0x1000, n1 := 64, lock := 0x10028C, ls := 0x1000, fields := [flk 15 8 0x28 (.between 10 100), flk 1 0 0 (.oneOf [0, 1])] },
  { base := 0x100804, s1 := 0x1000, n1 := 64, fields := [fro 15 8, fro 1 1, fro 0 0] },
  { base := 0x100808, s1 := 0x1000, n1 := 64, fields := fCnt },
  { base := 0x100810, s1 := 0x1000, n1 := 64, wide := true, fields := fCnt64 },
  { base := 0x100818, s1 := 0x1000, n1 := 64, fields := fGo }]

/-- Engines (R557): glaze, attention and the pool registers, image transform, crop and resize, retouch, movers. -/
def regsEngine : List RegRow := [
  { base := 0x140000, s1 := 0x1000, n1 := 8, fields := fCnt },
  { base := 0x140008, s1 := 0x1000, n1 := 8, s2 := 8, n2 := 2, wide := true, fields := fCnt64 },
  { base := 0x140018, s1 := 0x1000, n1 := 8, s2 := 4, n2 := 3, fields := fCnt },
  { base := 0x140030, s1 := 0x1000, n1 := 8, fields := fGo },
  { base := 0x148000, s1 := 0x1000, n1 := 8, fields := fCnt },
  { base := 0x148008, s1 := 0x1000, n1 := 8, s2 := 8, n2 := 2, wide := true, fields := fCnt64 },
  { base := 0x148018, s1 := 0x1000, n1 := 8, fields := fCnt },
  { base := 0x148030, s1 := 0x1000, n1 := 8, fields := fGo },
  { base := 0x148040, s1 := 0x1000, n1 := 8, s2 := 4, n2 := 16, fields := fCnt },
  { base := 0x148800, fields := fGo },
  { base := 0x148804, fields := [fro 8 8, fro 3 0] },
  { base := 0x148808, wide := true, lock := 0x148838, fields := [{ flk 63 0 0 with doc := .multipleOf 0x200000 }] },
  { base := 0x148810, lock := 0x148838, fields := [{ flk 23 0 0 with doc := .atMost 0xFF0000 }] },
  { base := 0x148814, lock := 0x148838, fields := [flk 16 16 0, { flk 12 8 12 with doc := .between 12 28 },
      { flk 4 0 16 with doc := .between 14 16 }] },
  { base := 0x148818, fields := [fro 23 0] },
  { base := 0x14881C, fields := [fro 23 0] },
  { base := 0x148820, s2 := 4, n2 := 2, fields := fCnt },
  { base := 0x148828, s2 := 8, n2 := 2, wide := true, fields := fCnt64 },
  { base := 0x148838, fields := fLock },
  { base := 0x14883C, fields := fGo },
  { base := 0x150000, s1 := 0x1000, n1 := 4, fields := fCnt },
  { base := 0x150008, s1 := 0x1000, n1 := 4, s2 := 8, n2 := 2, wide := true, fields := fCnt64 },
  { base := 0x150018, s1 := 0x1000, n1 := 4, fields := fCnt },
  { base := 0x150030, s1 := 0x1000, n1 := 4, fields := fGo },
  { base := 0x154000, s1 := 0x1000, n1 := 4, fields := fCnt },
  { base := 0x154008, s1 := 0x1000, n1 := 4, s2 := 8, n2 := 2, wide := true, fields := fCnt64 },
  { base := 0x154018, s1 := 0x1000, n1 := 4, s2 := 4, n2 := 2, fields := fCnt },
  { base := 0x154030, s1 := 0x1000, n1 := 4, fields := fGo },
  { base := 0x158000, s1 := 0x1000, n1 := 4, fields := fCnt },
  { base := 0x158008, s1 := 0x1000, n1 := 4, s2 := 8, n2 := 2, wide := true, fields := fCnt64 },
  { base := 0x158018, s1 := 0x1000, n1 := 4, s2 := 4, n2 := 6, fields := fCnt },
  { base := 0x158030, s1 := 0x1000, n1 := 4, fields := fGo },
  { base := 0x158038, s1 := 0x1000, n1 := 4, wide := true, fields := fCnt64 },
  { base := 0x158040, s1 := 0x1000, n1 := 4, fields := fCnt },
  { base := 0x15C000, s1 := 0x1000, n1 := 16, fields := [fro 7 4, fro 3 0] },
  { base := 0x15C008, s1 := 0x1000, n1 := 16, wide := true, fields := fCnt64 },
  { base := 0x15C010, s1 := 0x1000, n1 := 16, fields := fCnt },
  { base := 0x15C030, s1 := 0x1000, n1 := 16, fields := fGo }]

/-- HBM controllers, regulators, migration and retraining (R366-R370, R558, R572). -/
def regsHbm : List RegRow := [
  { base := 0x180000, fields := [fro 3 0] },
  { base := 0x180004, fields := [fro 19 0] },
  { base := 0x180008, fields := [fro 11 0 0x4A0] },
  { base := 0x180020, s2 := 4, n2 := 8, lock := 0x180040, fields :=
      [{ hi := 31, lo := 31, acc := .rwl, primer := true, pendingF := true },
       { hi := 8, lo := 0, acc := .rwl, doc := .atMost 383, primer := true, pendingF := true }] },
  { base := 0x180040, fields := fLock },
  { base := 0x180800, s2 := 4, n2 := 384, fields := [fro 31 16, fro 15 0] },
  { base := 0x180E00, fields := fGo },
  { base := 0x181000, lock := 0x180040, fields := [flk 0 0 0] },
  { base := 0x181004, lock := 0x180040, fields := [flk 3 0 0xF] },
  { base := 0x181010, s2 := 4, n2 := 8, lock := 0x180040, fields := [flk 31 0 0] },
  { base := 0x181100, s2 := 0x10, n2 := 16, lock := 0x180040, fields := [flk 31 31 0, flk 15 0 0] },
  { base := 0x181104, s2 := 0x10, n2 := 16, lock := 0x180040, fields := [flk 15 0 0x40 .any (.zeroAs 1)] },
  { base := 0x181108, s2 := 0x10, n2 := 16, fields := fCnt },
  { base := 0x182000, lock := 0x180040, fields := [flk 16 16 1, flk 15 0 0x100 .any (.zeroAs 1)] },
  { base := 0x182008, s2 := 4, n2 := 3, fields := [fro 19 0] },
  { base := 0x182018, s2 := 8, n2 := 4, wide := true, fields := fCnt64 },
  { base := 0x182038, fields := fCnt },
  { base := 0x18203C, fields := fGo },
  { base := 0x182040, wide := true, fields := [frw 63 0 0] },
  { base := 0x182048, wide := true, fields := fCnt64 },
  { base := 0x183000, lock := 0x180040, fields := [fln 31 31 0, fln 15 0 0 (.atMost 60000)] },
  { base := 0x183004, fields := [fro 4 4, fro 3 0] },
  { base := 0x183100, s2 := 4, n2 := 12, fields := [fro 31 24, fro 23 0] }]

/-- Flash translation layer (R371, R559). -/
def regsFtl : List RegRow := [
  { base := 0x1C0000, fields := [fro 3 0 1] },
  { base := 0x1C0004, fields := [fro 15 0] },
  { base := 0x1C0008, s2 := 8, n2 := 2, wide := true, fields := fCnt64 },
  { base := 0x1C0018, s2 := 4, n2 := 2, fields := fCnt },
  { base := 0x1C0020, lock := 0x1C0054, fields := [flk 31 0 10000 (.between 1000 1000000)] },
  { base := 0x1C0024, lock := 0x1C0054, fields := [flk 31 0 400000] },
  { base := 0x1C0028, lock := 0x1C0054, fields := [flk 15 8 0x18, flk 7 0 0x28 (.between 4 120)] },
  { base := 0x1C0030, s2 := 8, n2 := 3, wide := true, fields := fCnt64 },
  { base := 0x1C0048, s2 := 4, n2 := 2, fields := fCnt },
  { base := 0x1C0050, fields := fGo },
  { base := 0x1C0054, fields := fLock }]

/-- Links and ports (R470-R472), route table, installation time (R473), all of R560. -/
def regsLink : List RegRow := [
  { base := 0x200000, lock := 0x20003C, fields := [flk 15 0 0] },
  { base := 0x200004, lock := 0x20003C, fields := [flk 31 0 1000000] },
  { base := 0x200008, lock := 0x20003C, fields := [flk 31 0 30000 (.between 1000 30000)] },
  { base := 0x20000C, lock := 0x20003C, fields := [flk 31 0 10000 (.between 1000 100000)] },
  { base := 0x200010, fields := [{ hi := 0, lo := 0, acc := .w1c }] },
  { base := 0x200014, fields := [fro 31 0 0x1D4C0] },
  { base := 0x200018, lock := 0x20003C, fields := [flk 31 16 0x0A00] },
  { base := 0x200020, s2 := 4, n2 := 5, fields := fCnt },
  { base := 0x200034, fields := [fro 12 0] },
  { base := 0x200038, fields := fGo },
  { base := 0x20003C, fields := fLock },
  { base := 0x200100, s1 := 0x40, n1 := 12, lock := 0x20003C, fields :=
      [flk 15 13 3, flk 12 12 1, flk 11 8 3 (.atMost 4), flk 6 4 0 (.atMost 3), flk 3 0 0 (.atMost 2)] },
  { base := 0x200104, s1 := 0x40, n1 := 12, fields := [fro 6 4, fro 3 0] },
  { base := 0x200108, s1 := 0x40, n1 := 12, fields := [fro 12 0] },
  { base := 0x200110, s1 := 0x40, n1 := 12, wide := true, fields := fCnt64 },
  { base := 0x200118, s1 := 0x40, n1 := 12, s2 := 4, n2 := 2, fields := fCnt },
  { base := 0x200120, s1 := 0x40, n1 := 12, wide := true, fields := fCnt64 },
  { base := 0x200128, s1 := 0x40, n1 := 12, fields := fCnt },
  { base := 0x200130, s1 := 0x40, n1 := 12, s2 := 8, n2 := 2, wide := true, lock := 0x20003C, fields := [flk 47 0 0] },
  { base := 0x210000, s1 := 4, n1 := 16384, lock := 0x20003C, fields := [flk 31 24 0xFF, flk 23 16 0xFF, flk 15 8 0xFF, flk 7 0 0xFF] },
  { base := 0x220000, wide := true, fields := fCnt64 },
  { base := 0x220008, lock := 0x220048, fields := [flk 31 24 0, flk 1 0 0 (.oneOf [0, 1])] },
  { base := 0x22000C, fields := [fro 3 0] },
  { base := 0x220010, wide := true, fields := fCnt64 },
  { base := 0x220018, wide := true, lock := 0x220048, fields := [flk 63 0 0] },
  { base := 0x220020, lock := 0x220048, fields := [{ hi := 31, lo := 0, acc := .rwl, reset := 10000000, rng := .between 1000000 1000000000, primer := true, pendingF := true }] },
  { base := 0x220024, lock := 0x220048, fields := [{ hi := 31, lo := 0, acc := .rwl, primer := true, pendingF := true }] },
  { base := 0x220028, fields := [{ hi := 31, lo := 0, acc := .rw, reset := 50000, rng := .atMost 1000000, primer := true }] },
  { base := 0x22002C, lock := 0x220048, fields := [flk 31 0 10000 (.between 1000 1000000)] },
  { base := 0x220030, wide := true, fields := fCnt64 },
  { base := 0x220038, s2 := 4, n2 := 3, fields := fCnt },
  { base := 0x220044, fields := fGo },
  { base := 0x220048, fields := fLock },
  { base := 0x22004C, lock := 0x220048, fields := [flk 15 0 0] }]

/-- Check-value units (R499) and dependability (R498), R561. -/
def regsDep : List RegRow := [
  { base := 0x240000, s1 := 0x1000, n1 := 24, fields := [fro 7 4, fro 3 0] },
  { base := 0x240008, s1 := 0x1000, n1 := 24, wide := true, fields := fCnt64 },
  { base := 0x240010, s1 := 0x1000, n1 := 24, fields := fCnt },
  { base := 0x240030, s1 := 0x1000, n1 := 24, fields := fGo },
  { base := 0x260000, lock := 0x260050, fields := [flk 1 0 1 (.atMost 2)] },
  { base := 0x260004, fields := [fro 2 2, fro 1 0 1] },
  { base := 0x260008, fields := fCnt },
  { base := 0x260010, fields := [fro 7 4, fro 0 0] },
  { base := 0x260014, fields := fGo },
  { base := 0x260020, s2 := 4, n2 := 11, fields := fCnt },
  { base := 0x26004C, fields := fGo },
  { base := 0x260050, fields := fLock }]

/-- Power, clocks and wash (R517, R518, R562). -/
def regsPower : List RegRow := [
  { base := 0x280000, fields := [fro 12 12, fro 11 11, fro 10 10, fro 9 9, fro 8 8, fro 6 0 0x40] },
  { base := 0x280004, s2 := 4, n2 := 3, fields := [fro 15 0] },
  { base := 0x280010, lock := 0x28006C, fields := [flk 11 0 2200 (.between 800 2200)] },
  { base := 0x280014, lock := 0x28006C, fields := [flk 17 16 1 (.atMost 2), flk 11 0 1200 (.between 400 2200)] },
  { base := 0x280018, lock := 0x28006C, fields := [flk 0 0 1] },
  { base := 0x28001C, lock := 0x28006C, fields := [flk 15 0 250 (.between 10 2200)] },
  { base := 0x280020, lock := 0x28006C, fields := [flk 6 0 60 (.atMost 100)] },
  { base := 0x280024, lock := 0x28006C, fields := [flk 31 0 100000 (.between 10000 1000000)] },
  { base := 0x280028, lock := 0x28006C, fields := [flk 31 0 0] },
  { base := 0x28002C, fields := [fro 15 0] },
  { base := 0x280030, lock := 0x28006C, fields := [flk 23 16 95 (.between 70 100), flk 3 0 3 (.between 1 10)] },
  { base := 0x280034, fields := [fro 15 8, fro 7 0] },
  { base := 0x280040, s2 := 4, n2 := 3, fields := fCnt },
  { base := 0x280050, s2 := 8, n2 := 3, wide := true, fields := fCnt64 },
  { base := 0x280068, fields := fGo },
  { base := 0x28006C, fields := fLock },
  { base := 0x280100, s1 := 0x10, n1 := 4, fields := [fro 25 16, fro 11 0] },
  { base := 0x280104, s1 := 0x10, n1 := 4, fields := [fro 5 0] },
  { base := 0x280108, s1 := 0x10, n1 := 4, fields := fCnt }]

/-- Margining and diagnostics (R563, R566-R574) and ingest (R291, R564). -/
def regsDiag : List RegRow := [
  { base := 0x2C0000, fields := [fro 23 16, fro 1 1, fro 0 0] },
  { base := 0x2C0004, fields := [{ hi := 0, lo := 0, acc := .w1s }] },
  { base := 0x2C0100, lock := 0x2C0004, fields := [fln 15 12 0, fln 9 8 0, fln 0 0 0] },
  { base := 0x2C0104, fields := [fro 31 28, fro 24 16, fro 15 8, fro 7 0] },
  { base := 0x2C1000, s1 := 0x20, n1 := 12, lock := 0x2C0004, fields := [fln 5 4 0, fln 0 0 0] },
  { base := 0x2C1004, s1 := 0x20, n1 := 12, fields := [fro 31 28, fro 23 16, fro 15 8] },
  { base := 0x2C2000, s1 := 0x10, n1 := 64, lock := 0x2C0004, fields := [fln 11 8 0, fln 0 0 0] },
  { base := 0x2C2004, s1 := 0x10, n1 := 64, fields := [fro 31 28, fro 27 24, fro 20 12, fro 8 0] },
  { base := 0x2C2008, s1 := 0x10, n1 := 64, fields := fCnt },
  { base := 0x300000, fields := [fro 9 8, fro 7 0] },
  { base := 0x300008, s2 := 8, n2 := 2, wide := true, fields := fCnt64 },
  { base := 0x300018, fields := [{ hi := 31, lo := 0, acc := .rw, reset := 50000, primer := true }] },
  { base := 0x300030, fields := fGo },
  { base := 0x300100, s1 := 0x20, n1 := 24, wide := true, fields := fCnt64 },
  { base := 0x300108, s1 := 0x20, n1 := 24, s2 := 4, n2 := 5, fields := fCnt }]

/-- Every register of R551 to R564. -/
def regMap : List RegRow :=
  regsGlobal ++ regsLife ++ regsCp ++ regsSched ++ regsTile ++ regsEngine ++ regsHbm ++ regsFtl ++ regsLink ++
  regsDep ++ regsPower ++ regsDiag

/-- The rows whose registers can lie in the 256 KiB-aligned block that holds `o`: the same rows in the same order, only
found faster. -/
def regBlock (o : Nat) : List RegRow :=
  if o < 0x10000 then regsGlobal ++ regsLife
  else if o < 0x20000 then regsCp
  else if o < 0x100000 then regsSched
  else if o < 0x140000 then regsTile
  else if o < 0x180000 then regsEngine
  else if o < 0x1C0000 then regsHbm
  else if o < 0x200000 then regsFtl
  else if o < 0x240000 then regsLink
  else if o < 0x280000 then regsDep
  else if o < 0x2C0000 then regsPower
  else regsDiag

/-- The first row of a list that covers `o`. -/
def regFind (o : Nat) : List RegRow → Option RegAt
  | [] => none
  | r :: rs =>
    match r.locate o with
    | some (i, j, b) => some { row := r, i := i, j := j, off := o - b, byte := b }
    | none => regFind o rs

/-- The register that covers BAR0 offset `o`; none where the offset is reserved (R542). -/
def regAt (o : Nat) : Option RegAt := regFind o (regBlock o)

/-- The value of a register when every field holds its factory-primer value (R542). -/
def RegRow.resetVal (r : RegRow) : Nat :=
  r.fields.foldl (fun v f => v + f.reset * 2 ^ f.lo) 0

/-- The reset value of the 32-bit word at offset `o` (a multiple of 4). -/
def regReset (o : Nat) : W32 :=
  match regAt o with
  | none => 0
  | some a => BitVec.ofNat 32 (a.row.resetVal / 2 ^ (8 * a.byte))

/-- The address of the LOCK word that covers a register; 0 for none. -/
def RegAt.lockOff (a : RegAt) : Nat := if a.row.lock = 0 then 0 else a.row.lock + a.row.ls * a.i

/-- Whether a value lies in a field's own range (R546). -/
def Rng.ok (r : Rng) (v : Nat) : Bool :=
  match r with
  | .any => true
  | .between a b => decide (a ≤ v) && decide (v ≤ b)
  | .atMost b => decide (v ≤ b)
  | .oneOf vs => vs.contains v
  | .multipleOf n => v % n == 0
  | .multipleUpTo n b => v % n == 0 && decide (v ≤ b)

/-- What a stored field value reads as. -/
def ReadAs.app (r : ReadAs) (v : Nat) : Nat :=
  match r with
  | .raw => v
  | .zeroAs n => if v = 0 then n else v
  | .capAt n => min v n

end Sys2Proof.Machine
end

