-- ==== Sys2Proof/Machine/State.lean ====
section
/-! DEFINITION. Everything the spec gives the module to hold, as plain data, and the state right after reset. -/

namespace Sys2Proof.Machine

/-- No run of the machine faults: every failure the spec describes is a completion status, an error counter or safe state,
all of them next states. The one constructor is for a caller that breaks `Instr.wellFormed`, and no meaning raises it. -/
inductive Fault where
  /-- Raised by no meaning. Safe: a fault never proves a claim about a next state. -/
  | none
deriving DecidableEq, Repr

/-- Why a command has no meaning. -/
inductive Refusal where
  /-- The row has no meaning yet; raised by `exec`'s arm alone. Safe: nothing is claimed of it. -/
  | notModelled (mnemonic : String)
deriving DecidableEq, Repr

/-! ## Silicon, fuses and the board's permanent memories -/

/-- What silicon and fuses fix (R531, R539): reset values of the identity registers. Log entry 2. -/
structure Silicon where
  sku : Sku := .h4
  major : Nat := 1
  minor : Nat := 0
  uid : Nat := 1
  mac : Nat := 0
  factoryKey : List Byte := []
deriving DecidableEq, Repr

/-- The life-cycle states of R532. -/
inductive LcState where
  | blank | issued | owned | ret
deriving DecidableEq, Repr

/-- A transition in progress: its target and keys (R535 step 2). -/
structure LcMarker where
  target : LcState
  issuer : List Byte
  owner : List Byte
deriving DecidableEq, Repr

/-- The life-cycle record in NOR (R532, R540). -/
structure LcRecord where
  st : LcState := .blank
  issuer : List Byte := []
  owner : List Byte := []
  transitions : Nat := 0
  result : Nat := 0
  marker : Option LcMarker := none
  incarnation : Nat := 0
deriving DecidableEq, Repr

/-- One user slot of the NOR device (R524): its bytes (erased bytes read 0xFF), none while erased. -/
structure PrimerSlot where
  bytes : List Byte := []
deriving DecidableEq, Repr

/-- A 64-byte sketchbook record (R493). -/
structure SbRecord where
  seq : Nat
  bytes : List Byte
deriving DecidableEq, Repr

/-- The sketchbook (15 R493-R496): MRAM records not yet drained, the flash ring, the protected head. -/
structure Sketchbook where
  nextSeq : Nat := 0
  oldest : Nat := 0
  mram : List SbRecord := []
  ring : List SbRecord := []
  head : List SbRecord := []
  dropped : Nat := 0
  /-- records dropped since the last DROPPED record: how many, and the first SEQ skipped -/
  dropRun : Option (Nat × Nat) := none
deriving DecidableEq, Repr

/-! ## Tiles -/

/-- TILE_STATUS.STATE (R129). -/
inductive TileSt where
  | idle | running | replaying | quarantined | retired | selfTest
deriving DecidableEq, Repr

/-- A field-repair record (R123, R133). -/
structure FieldRec where
  kind : Nat
  logical : Nat
  spare : Nat
deriving DecidableEq, Repr

/-- A SUSPECT entry (R132). -/
structure Suspect where
  col : Nat
  count : Nat
deriving DecidableEq, Repr

/-- One physical tile: its state, fuses and suspect table (04 R123-R135). -/
structure Tile where
  st : TileSt := .idle
  residueOn : Bool := false
  quarPending : Bool := false
  factRow : List (Option Nat) := []
  factCol : List (Option Nat) := []
  recs : List FieldRec := []
  retireFuse : Bool := false
  suspects : List Suspect := []
  /-- the REPAIR_STAGE word of the commit in progress (R127) -/
  staged : Option Nat := none
deriving DecidableEq, Repr

/-- One row of a transfer on a neighbour link (R154): element codes and scale codes. -/
structure LinkRow where
  elems : List Nat
  scales : List Nat
deriving DecidableEq, Repr

/-- One transfer on a directed link: rows sent and not yet taken, and whether its sender has sent its last row. -/
structure Transfer where
  rows : List LinkRow
  closed : Bool
  /-- its receiver has taken its last row -/
  taken : Bool := false
deriving DecidableEq, Repr

/-! ## Programs (05) -/

/-- An LTILE entry (R139). -/
structure LTile where
  group : Nat
  y : Nat
  x : Nat
  palBytes : Nat
  codeFirst : Nat
  codeCount : Nat
deriving DecidableEq, Repr

/-- A GROUP entry (R140). -/
structure PGroup where
  rows : Nat
  cols : Nat
  sharedBytes : Nat
deriving DecidableEq, Repr

/-- A REGION entry (R145). -/
structure Region where
  rho : Nat
  bind : Nat
  layout : Nat
  block : Nat
  fmt : Nat
  kind : Nat
  binding : Nat
  owner : Nat
  elemBase : Nat
  elemBytes : Nat
  scaleBase : Nat
  scaleBytes : Nat
  rowPitch : Nat
  scalePitch : Nat
  rows : Nat
  rowElems : Nat
deriving DecidableEq, Repr

/-- A BOUND entry (R157). -/
structure Bound where
  word : Nat
  src : Nat
  region : Nat
  offset : Nat
  rawMax : Nat
  sub : Nat
  clamp : Nat
deriving DecidableEq, Repr

/-- An ENTRY entry (R166). -/
structure PEntry where
  kind : Nat
  start : List Nat
deriving DecidableEq, Repr

/-- A BINDING entry (R167). -/
structure Binding where
  index : Nat
  cls : Nat
  alignLog2 : Nat
  minBytes : Nat
deriving DecidableEq, Repr

/-- A PALETTE_INIT entry (R168). -/
structure PalInit where
  region : Nat
  plane : Nat
  binding : Nat
  srcOffset : Nat
  bytes : Nat
deriving DecidableEq, Repr

/-- A program image read into its sections (R136-R138): code, CONV and ENGINE entries are kept as their 32-bit words. -/
structure Image where
  ltiles : List LTile := []
  groups : List PGroup := []
  regions : List Region := []
  bounds : List Bound := []
  entries : List PEntry := []
  code : List (List Nat) := []
  bindings : List Binding := []
  palInit : List PalInit := []
  conv : List (List Nat) := []
  engine : List (List Nat) := []
deriving DecidableEq, Repr

/-- A loaded program (R168-R169): its image, its mapping, its reservations and its static buffers. -/
structure Program where
  image : Image
  map : List Nat
  palBase : List Nat
  groupPanel : List Nat
  shrBase : List Nat
  statics : List (Nat × Nat)
  /-- OP_FLAGS of its LOAD_PROGRAM and IMAGE_CRC of its image -/
  flags : Nat
  crc : Nat
deriving DecidableEq, Repr

/-- A program slot (R169). -/
structure PSlot where
  gen : Nat := 0
  prog : Option Program := none
deriving DecidableEq, Repr

/-! ## Streams and scenes (01) -/

/-- The states of a stream (01, table of STATE). -/
inductive StreamSt where
  | free | ready | ingesting | stepping | forking | parked | closing
deriving DecidableEq, Repr

/-- One entry of the stream table (R16, R20), with the glaze half and state slot kept beside it (R179). -/
structure Stream where
  st : StreamSt := .free
  quota : Nat := 0
  pagesOwn : Nat := 0
  rootPage : Nat := 0
  parent : Nat := 0
  hasParent : Bool := false
  scene : Nat := 0
  bucket : Nat := 0
  parkReason : Nat := 0
  commitSeq : Nat := 0
  forkPos : Nat := 0
  pos : Nat := 0
  half : Nat := 0
  stateSlot : Nat := 0
deriving DecidableEq, Repr

/-- An open scene slot (R12). -/
structure Scene where
  program : Nat
  rows : Nat
  cols : Nat
  maxStreams : Nat
  stateBase : Nat
  stateBytes : Nat
  condBase : Nat
  condBytes : Nat
  pageSync : Nat
  defQuota : Nat
deriving DecidableEq, Repr

/-! ## The page pool (07) -/

/-- The configuration the pool was last applied with (R207, R241, R243). -/
structure PoolCfg where
  base : Nat := 0
  pages : Nat := 0
  pageLog2 : Nat := 16
  dirLog2 : Nat := 12
  scale16 : Bool := false
deriving DecidableEq, Repr

/-! ## Memory (11) -/

/-- A granule table entry (R338). `move`: 0 none, 1 FILLING, 2 EVICTING. -/
structure Granule where
  frame : Nat := 0
  resident : Bool := false
  dirty : Bool := false
  ref : Bool := false
  pin : Bool := false
  noWb : Bool := false
  stream : Bool := false
  poison : Bool := false
  move : Nat := 0
  access : Nat := 0
  /-- token, plus one, of the MIGRATE or CHECKPOINT that copies its frame to flash: with `move` 2 a TO_FLASH, otherwise a FLUSH -/
  by_ : Nat := 0
  /-- a write has met that copy (R344) -/
  met : Bool := false
deriving DecidableEq, Repr

/-- One erase block's records (R354, R356, R358). -/
structure EBlock where
  erases : Nat := 0
  /-- its read counter, above the base of every block's counter -/
  reads : Int := 0
  /-- the same as last written to flash (R357) -/
  saved : Int := 0
  since : Nat := 0
  /-- sample interval; none: RD_SAMPLE -/
  interval : Option Nat := none
  offsets : List Int := []
  bad : Bool := false
deriving DecidableEq, Repr

/-- What the flash translation layer keeps on flash (R371 'from flash', R537). Log entry 2. -/
structure FlashRec where
  life : Nat := 0
  hostWritten : Nat := 0
  nandWritten : Nat := 0
  spare : Nat := 4096
  badBlocks : Nat := 0
  readOnly : Bool := false
  /-- page reads since the counters were last written to flash -/
  totalReads : Nat := 0
  /-- base of every block's read counter now, and as last written to flash -/
  rdBase : Nat := 0
  rdSaved : Nat := 0
  /-- the flash map (R352, R353): the stripe group that holds a granule's home and its place there; none: never written. Log entry 30 -/
  homes : SMap (Option (Nat × Nat)) := []
  /-- the erase blocks of each stripe group that have not been erased since -/
  groups : SMap (List Nat) := []
  /-- the group now being written, and how many granules it has taken -/
  cur : Nat := 0
  taken : Nat := 184
deriving DecidableEq, Repr

/-- An address a mover or an engine reaches: the device range, the host's bus, a tile's palette, a panel's shared
memory. -/
inductive Loc where
  | dva (a : Nat)
  | host (a : Nat)
  | pal (tile off : Nat)
  | shr (panel off : Nat)
deriving DecidableEq, Repr

/-! ## Synchronisation objects (13) -/

/-- A synchronisation object (R414); WAITERS is counted from the waiters themselves (R407). -/
structure SyncObj where
  value : Nat := 0
  config : W32 := 0
  sat : Bool := false
  rfail : Bool := false
deriving DecidableEq, Repr

/-! ## Queues and commands (12) -/

/-- A queue's state (R375). -/
inductive QSt where
  | disabled | enabled | draining
deriving DecidableEq, Repr

/-- One of the 512 queues (R373-R377, R431). -/
structure Queue where
  st : QSt := .disabled
  sqHead : Nat := 0
  sqTail : Nat := 0
  cqWrite : Nat := 0
  phase : Bool := true
  readIdx : Nat := 0
  unread : Nat := 0
  suspended : Bool := false
deriving DecidableEq, Repr

/-- Where a command stands between fetch and its record (R382, R423-R426). -/
inductive Phase where
  /-- held at step 2 -/
  | fence
  /-- held at step 3 -/
  | wait
  /-- held at step 4 -/
  | time
  /-- steps 2 to 4 satisfied -/
  | ready
  /-- dispatched, its dispatch checks not yet made (it may wait under R24) -/
  | dispatched
  /-- running -/
  | running
  /-- pre-empted: running on to its quiescent point (R423) -/
  | stopping
  /-- at its quiescent point, outbound remote operations draining (R424) -/
  | draining
  /-- its context being saved (R425) -/
  | saving
  /-- saved -/
  | saved
  /-- its units granted again, its context being restored (R426) -/
  | restoring
  /-- every effect has taken effect, its status is decided -/
  | ended
  /-- its completion signal is a remote add not yet acknowledged (R413) -/
  | signalled
  /-- completed, its record waiting for a free entry (R377) -/
  | recordWait
deriving DecidableEq, Repr

/-- One piece of mover work (R346, R422): its end is a pre-emption point. -/
structure Piece where
  src : Loc
  dst : Loc
  len : Nat
  /-- object and amount signalled once the piece has taken effect (R348) -/
  sig : Option (Nat × Nat) := none
  /-- what the piece belongs to: 1 copy, 2 window, 5 fork copy, 6 palette init, 7 gather, 8 scatter, 9 checkpoint -/
  kind : Nat := 1
  /-- entry of the list the piece serves -/
  entry : Nat := 0
deriving DecidableEq, Repr

/-- A running MMA's progress (R102-R105, R117): extents, next m-group, blocks run and not yet released. -/
structure MmaProg where
  m : Nat
  n : Nat
  k : Nat
  np : Nat
  g : Nat
  todo : List (Nat × Nat × Nat)
  /-- mismatch events of this execution of the instruction -/
  mism : Nat
  replayPending : Bool
  /-- blocks of the m-group being replayed and not yet released -/
  replaying : List (Nat × Nat × Nat) := []
  /-- the instruction has stopped: only the blocks that have begun release go on (R105) -/
  dead : Bool := false
deriving DecidableEq, Repr

/-- A needed tile of a running command: its logical tile, program counter within the tile's code, and state. -/
structure TileRun where
  logical : Nat
  phys : Nat
  pc : Nat
  ended : Bool
  stopped : Bool
  waitObj : Option (Nat × Nat)
  waitMet : Bool
  mma : Option MmaProg
deriving DecidableEq, Repr

/-- A unit of an engine entry (R186, R225, R269): its number (a stream of the command, an image or a box), the next chunk, row or query
block within it, and its state codes (the state buffer, R173). -/
structure UnitRun where
  n : Nat
  chunk : Nat := 0
  buf : List Nat := []
deriving DecidableEq, Repr

/-- An engine entry of a running command: its section (CONV or ENGINE) and index, its progress and state. -/
structure EntryRun where
  conv : Bool
  idx : Nat
  /-- resource kind of R415 -/
  kind : Nat
  started : Bool := false
  done : Bool := false
  waitOn : Option (Nat × Nat) := none
  waitMet : Bool := false
  /-- the units that have not ended, in issue order -/
  units : List UnitRun
deriving DecidableEq, Repr

/-- How a page index of a command's span is served (R229). -/
inductive PageAct where
  /-- written in place: the tail page, or a ring page over dead positions -/
  | inPlace
  /-- the tail copied to a reserved page -/
  | cow
  /-- a reserved page for an empty slot or a linear index -/
  | fresh
  /-- a reserved page in place of the page the slot holds -/
  | replace
deriving DecidableEq, Repr

/-- One entry of a command's pending map (R210, R229): attention layer, page index, directory slot, page, the page the slot held
before. -/
structure PagePend where
  layer : Nat
  j : Nat
  slot : Nat
  page : Nat
  old : Nat
  act : PageAct
deriving DecidableEq, Repr

/-- One stream of a STEP or INGEST_SEQ (R35-R37): its list entry, its slots, its reservation and its status. -/
structure StepStream where
  listIdx : Nat
  stream : Nat
  p0 : Nat
  inOff : Nat
  outOff : Nat
  passed : Bool
  pend : List PagePend
  status : Nat
  committed : Bool
deriving DecidableEq, Repr

/-- A running RUN, STEP or INGEST_SEQ (05, R394-R395). -/
structure ProgRun where
  handle : Nat
  entry : Nat
  kind : Nat
  syncs : List Nat
  binds : List (Nat × Nat)
  words : List Nat
  bounds : SMap (Option Nat)
  scene : Nat
  frame : Nat
  streams : List StepStream
  tiles : List TileRun
  entries : List EntryRun
  wrote : Bool
  started : Bool
  scattering : Bool
  listLen : Nat
deriving DecidableEq, Repr

/-- A FORK in progress (R32-R33). -/
structure ForkWork where
  parent : Nat
  prior : StreamSt
  children : List Nat
  slots : List Nat
  tails : List (List PagePend)
  quota : Nat
  wasParked : Nat
deriving DecidableEq, Repr

/-- One parameter block of an UPDATE or ROOT_REFRESH (10 R312-R319): its list entry, the descriptor's words as the check pass read
them, and its progress. -/
structure BlockRun where
  idx : Nat
  addr : Nat
  desc : List Nat := []
  started : Bool := false
  /-- some weight, slot, factor or gradient of it has been written -/
  wrote : Bool := false
  /-- next element, or next sub-block of a PRECOND block -/
  next : Nat := 0
  /-- the command's retouch unit it runs on -/
  unit : Nat := 0
  /-- binary32 codes of a privileged block's coefficients, once they are evaluated (R306) -/
  coef : List Nat := []
  status : Option Nat := none
deriving DecidableEq, Repr

/-- Where a ROOT_REFRESH stands with its current entry (R310). -/
inductive RefreshStage where
  /-- step 1 -/
  | check
  /-- waiting for the claim of the snapshot -/
  | claimSnap
  /-- the claim held: step 2 -/
  | snap
  /-- step 3 -/
  | compute
  /-- waiting for the claim of the flip -/
  | claimFlip
  /-- the claim held: step 4 -/
  | flip
deriving DecidableEq, Repr

/-- A running UPDATE or ROOT_REFRESH (R309-R319). -/
structure RtcWork where
  blocks : List BlockRun
  /-- every claim is held -/
  claimed : Bool := false
  checked : Bool := false
  /-- binary32 codes of k0 to k27 -/
  scalars : List Nat := []
  stage : RefreshStage := .check
  /-- the refresh's current entry -/
  cur : Nat := 0
  /-- STEP_CTR at the snapshot -/
  snap : Nat := 0
  sub : Nat := 0
  /-- 0: the root of L; 1: the root of Rf -/
  mat : Nat := 0
  it : Nat := 0
  /-- binary32 codes of X and M, row-major -/
  x : List Nat := []
  m : List Nat := []
  rejected : Bool := false
deriving DecidableEq, Repr

/-- A page of a checkpoint image: identifier, the page table entry's OWNED and OWNER. -/
structure CkPage where
  page : Nat
  owned : Bool
  owner : Nat
deriving DecidableEq, Repr

/-- A stream as a CHECKPOINT captured it (15 R488): its summary, directory bytes and glaze half. -/
structure CkStream where
  stream : Nat
  summary : List Byte
  dir : SMap Byte
  state : SMap Byte
deriving DecidableEq, Repr

/-- A running CHECKPOINT (R487-R490). -/
structure CkWork where
  todo : List Nat
  caps : List CkStream := []
  pages : List CkPage := []
  data : List (SMap Byte × SMap Byte) := []
  lastIt : Nat := 0
  bytes : Nat := 0
  written : Bool := false
  /-- buddy transactions still to send: offset in the image and length; the header section's come last -/
  send : List (Nat × Nat) := []
  header : List (Nat × Nat) := []
  /-- granules still to flush -/
  flush : List Nat := []
deriving DecidableEq, Repr

/-- An in-flight command: the packet's fields and its progress. -/
structure Cmd where
  tok : Nat
  qid : Nat
  op : Nat
  flags : Nat
  tag : Nat
  notBefore : Nat
  waitValue : Nat
  signalValue : Nat
  signalObj : Nat
  waitObj : Nat
  stream : Nat
  epoch : Nat
  seed : Nat
  par : List Nat
  phase : Phase
  lc : Bool := false
  order : Nat := 0
  readyAt : Nat := 0
  status : Nat := 0
  detail : Nat := 0
  recStream : Nat := 0xFFFF
  itDone : Nat := 0
  /-- the synchronisation object list, binding list and bound words it read at dispatch (R389) -/
  syncs : List Nat := []
  bufs : List (Nat × Nat) := []
  words : List Nat := []
  pieces : List Piece := []
  total : Nat := 0
  run : Option ProgRun := none
  fork : Option ForkWork := none
  items : List (List Nat) := []
  targets : List Nat := []
  remotes : Nat := 0
  rfail : Option (Nat × Nat) := none
  discard : Bool := false
  pastLast : Bool := false
  /-- it has begun its work (a dispatched command may still wait under R24) -/
  begun : Bool := false
  /-- it is stopping under R160: status, DETAIL -/
  stop : Option (Nat × Nat) := none
  /-- order in which it completed, for R377 -/
  doneSeq : Nat := 0
  savedPal : List (Nat × Nat × List (Nat × Byte)) := []
  profile : Nat := 1
  /-- links its tiles' columns held when it was saved (R425) -/
  savedLinks : SMap (List Transfer) := []
  /-- the PREEMPT that saved it, plus one -/
  preBy : Nat := 0
  /-- a PREEMPT acts on it once it is restored (R431) -/
  preNext : Bool := false
  /-- an operation it drains has reached the transport timeout (R424) -/
  drainFail : Bool := false
  /-- running check value of a checked COPY (R485) -/
  crcRun : Nat := 0
  /-- running and check value still to be written to CHECK_ADDR (R484) -/
  check : Option (Nat × Nat) := none
  rtc : Option RtcWork := none
  /-- the program slot and the placed program of a LOAD_PROGRAM whose PALETTE_INIT copies run (R168) -/
  load : Option (Nat × Program) := none
  ck : Option CkWork := none
  /-- a switch of profile happened while it ran (R477) -/
  straddled : Bool := false
  /-- waiting time before its queue was suspended (R435) -/
  waitedFor : Nat := 0
deriving DecidableEq, Repr

/-! ## Scheduler (13) -/

/-- A unit of a command on one resource (R415): `res` its tiles (tile kind) or its granted instance. -/
structure SUnit where
  id : Nat
  tok : Nat
  kind : Nat
  entry : Nat
  tiles : List Nat
  held : Bool
  inst : Nat
  since : Nat
  readySeq : Nat
  readyAt : Nat
  asLc : Bool
  /-- its engine or tile context is in the save area (R425, R427) -/
  saved : Bool := false
  /-- its number within its engine entry -/
  sub : Nat := 0
  /-- the instance whose slot of the save area its context is in (R427) -/
  slot : Nat := 0
deriving DecidableEq, Repr

/-- One client's accounting of the open cadence window (R435-R436). -/
structure Acct where
  preempts : Nat := 0
  waitSum : Nat := 0
  waitMax : Nat := 0
  dispatched : Nat := 0
  late : Nat := 0
  engine : List Nat := []
  active : Bool := false
deriving DecidableEq, Repr

/-- The scheduler's own state (R417-R421, R435). -/
structure Sched where
  units : List SUnit := []
  nextUnit : Nat := 0
  nextReady : Nat := 0
  nextOrder : Nat := 0
  vt : SMap Nat := []
  /-- LC use: (window modulo 4) * 16 + kind -/
  lcUse : SMap Nat := []
  capped : List Nat := []
  /-- healthy tiles at the start of window `tilesWin`, kept where a tile has been retired in it (R418) -/
  winTiles : Nat := 64
  tilesWin : Option Int := none
  /-- the IT to which quantum boundaries have been acted on (R421, R466) -/
  lastQuantum : Nat := 0
  acct : SMap Acct := []
  fetchRound : SMap Nat := []
  lastLcQ : Nat := 0
  lastBe : SMap Nat := []
  /-- the client whose turn it is in the fetch round -/
  fetchPtr : Nat := 0
  /-- the window `capped` holds for -/
  lcWin : Int := 0
  /-- windows, modulo 4, in which a kind was capped -/
  wasCapped : List Nat := []
  /-- the order in which commands complete -/
  nextDone : Nat := 0
deriving DecidableEq, Repr

/-- A requester's staged low half of a 64-bit register (R544): its BAR0 offset and value. -/
structure Stage where
  off : Nat
  val : W32
deriving DecidableEq, Repr

/-! ## Links and time (14) -/

/-- An open transaction of this module as requester (R448-R457). -/
structure OpenTx where
  id : Nat
  dest : Nat
  seq : Nat
  client : Nat
  epoch : Nat
  deadline : Nat
  add : Bool
  obj : Nat
  amount : Nat
  addr : Nat
  payload : List Byte
  e2e : Bool
  /-- the port whose credit it holds; none while it waits for a free credit -/
  port : Option Nat
  /-- the port it was last sent on -/
  sentOn : Option Nat
  tok : Option Nat
  proxy : Option Nat
  detail : Nat
  floorSeq : Nat
  /-- next resend after SOURCE_FULL (R453); 0 for none -/
  resendAt : Nat
deriving DecidableEq, Repr

/-- What a link frame carries: a part of an own transaction, of a reply, or of transit traffic. -/
inductive Msg where
  | own (id : Nat)
  | reply (dst : Nat) (epoch seq deadline inc result : Nat)
  | transit (tx : RxTx)
deriving DecidableEq, Repr

/-- A frame kept until it is acknowledged (R446). -/
structure Frame where
  seq : Nat
  msg : Msg
  part : Nat
  len : Nat
  /-- 0 while a pause holds it unsent (R459) -/
  sends : Nat
  firstAt : Nat
  lastAt : Nat
  /-- its eighth send was answered NAK -/
  spent : Bool := false
deriving DecidableEq, Repr

/-- What a port last answered at link level: an acknowledgement, a NAK or an ARP reply (R446, R459). -/
inductive Answer where
  | ack (seq : Nat)
  | nak (seq : Nat)
  | arp (addr mac : Nat)
deriving DecidableEq, Repr

/-- PORT_STATUS.STATE (R472). -/
inductive PortSt where
  | down | training | up | retrain
deriving DecidableEq, Repr

/-- A scale-out port (R440-R447). -/
structure Port where
  st : PortSt := .down
  rate : Nat := 0
  trained : Bool := false
  txSeq : Nat := 0
  rxSeq : Nat := 0
  frames : List Frame := []
  transit : List RxTx := []
  paused : Bool := false
  lateWindow : Option Int := none
  /-- when the training try in progress began (R441) -/
  tryAt : Nat := 0
  answer : Option Answer := none
deriving DecidableEq, Repr

/-- A source table entry (R453-R455). -/
structure Source where
  src : Nat
  inc : Nat
  seen : Bool := false
  highest : Nat := 0
  applied : List Nat := []
  closed : List Nat := []
  /-- the largest FLOOR_SEQ seen: every lower SEQ not seen is closed (R452) -/
  shut : Option Nat := none
  held : List RxTx := []
  floors : SMap (Option Nat) := []
  lastUse : Nat := 0
deriving DecidableEq, Repr

/-- The discipline loop and the cadence windows (R462-R469). -/
structure TimeSt where
  st : Nat := 0
  tod : Option Nat := none
  lastPulse : Option Nat := none
  /-- IT at which the last pulse edge was seen (for the 50-950 us span of R463) -/
  edgeAt : Option Nat := none
  small : Nat := 0
  big : Nat := 0
  lastUpdate : Nat := 0
  winNs : Nat := 10000000
  winPhase : Nat := 0
  /-- windows below this index have closed -/
  closedTo : Option Int := none
deriving DecidableEq, Repr

/-! ## Ingest (09) -/

/-- A SENSOR_TABLE entry (R277, R284, R285). -/
structure Sensor where
  kind : Nat
  fmt : Nat
  c32 : Bool
  mat : Nat
  full : Bool
  buf : Nat
  offset : Int
  origin : Nat
  drift : Int
  w : Nat
  h : Nat
  /-- binary32 codes of the quaternion and the translation -/
  extr : List Nat
  /-- binary32 codes of X0, Y0, Z0, VXY, VZ -/
  grid : List Nat
  nz : Nat
deriving DecidableEq, Repr

/-- What a slot holds of one sensor (R286, R288, R290). -/
structure SlotSens where
  present : Bool := false
  corrupt : Bool := false
  late : Bool := false
  it : Nat := 0
  order : Nat := 0
deriving DecidableEq, Repr

/-- One column of a voxel grid (R285): bin counts, point count, intensity sum, binary32 codes of the lowest and highest z. -/
structure GridCol where
  bins : SMap Nat := []
  count : Nat := 0
  sum : Nat := 0
  lo : Nat := 0
  hi : Nat := 0
deriving DecidableEq, Repr

/-- A slot that has been opened and not sealed: `cols` keyed by sensor * 2^22 + row * 2^11 + column. -/
structure IngSlot where
  k : Nat
  sens : SMap SlotSens := []
  points : Nat := 0
  cols : SMap GridCol := []
deriving DecidableEq, Repr

/-- A scene's ingest context (R275). -/
structure Ingest where
  epoch : Nat
  period : Nat
  ringBase : Nat
  ringSlots : Nat
  slotBytes : Nat
  sensors : List Sensor
  poseBase : Nat
  poseCount : Nat
  live : Bool
  sealSync : Nat
  /-- slots below are sealed -/
  sealedTo : Nat := 0
  /-- slots below are released -/
  releasedTo : Nat := 0
  slots : List IngSlot := []
deriving DecidableEq, Repr

/-! ## Supply and adaptive loops (16), supervision (15, 17, 19) -/

/-- What the power unit keeps beside its registers (R502-R515). Clocks in MHz, targets in steps of 2.5 mV. -/
structure PowerSt where
  /-- rail target of each panel; 0 before its first update -/
  target : SMap Nat := []
  /-- clamp limit of a clamped panel -/
  clamp : SMap Nat := []
  /-- thermal limit of a throttled panel -/
  thermal : SMap Nat := []
  /-- DROOP_EVENTS counted by each tile since its panel's last update -/
  droops : SMap Nat := []
  /-- panels in which a tile reached 16 since their last decay -/
  noisy : SMap Bool := []
  /-- HBM stacks at half their request rate -/
  hot : SMap Bool := []
  /-- burn mismatches of a tile in window `burnWin` -/
  burnBad : SMap Nat := []
  burnWin : Int := 0
  /-- the window of the last SUPPLY record of a low input -/
  supplyWin : Option Int := none
  /-- the window in which the wash was last enabled, or the module booted -/
  washFrom : Int := 0
  /-- the IT to which wash ticks have been acted on (R466, R512) -/
  lastTick : Option Nat := none
  /-- samples of input power in the open cadence window: sum and count -/
  pinSum : Nat := 0
  pinCnt : Nat := 0
  /-- hottest temperature last given: panel p as p, HBM stack as 16 + stack -/
  temps : SMap Nat := []
  /-- IT since which a panel is throttled, and since which d is below 64 -/
  throttleAt : Option Nat := none
  pacedAt : Option Nat := none
  /-- tile clocks and panel rails stopped (R480, R504) -/
  stopped : Bool := false
  /-- W waits for the first measured input power (R512) -/
  wStart : Bool := true
deriving DecidableEq, Repr

/-- An NOR operation in progress (17 R530): WRITE 0, ERASE 1, VALIDATE 2, on slot B or A. -/
structure PrimerJob where
  op : Nat
  slotB : Bool
  req : Requester
deriving DecidableEq, Repr

/-! ## The whole state -/

/-- Everything the module holds. -/
structure State where
  pending : List Instr
  /-- silicon and fuses -/
  silicon : Silicon
  /-- power and run state: powered, RESET_N held, safe state and transition are fields of `regs` -/
  held : Bool
  regs : SMap W32
  stagePcie : Option Stage
  stageMgmt : Option Stage
  heldFields : List Nat
  lc : LcRecord
  nonceCtr : Nat
  freeCtr : Nat
  slotA : PrimerSlot
  slotB : PrimerSlot
  sb : Sketchbook
  tiles : SMap Tile
  links : SMap (List Transfer)
  pal : SMap Byte
  acc : SMap Nat
  shr : SMap Byte
  progs : SMap PSlot
  scenes : SMap (Option Scene)
  streams : SMap Stream
  pool : PoolCfg
  hbm : SMap Byte
  badLines : SMap Bool
  flash : SMap Byte
  gran : SMap Granule
  sweep : Nat
  blocks : SMap EBlock
  ftl : FlashRec
  /-- POISON as the flash map records it (R365) -/
  flashBad : SMap Bool
  /-- granules whose queued fill waits for a frame (R341, R342) -/
  fillQ : List Nat
  /-- token buckets: key 2k the tokens missing, in twelfths of a byte, key 2k + 1 the IT of that count, k = 16 stack + partition -/
  buckets : SMap Nat
  /-- line requests held for tokens (R351): stack, and the unit in whose requester port it waits -/
  heldReqs : List (Nat × Nat)
  host : SMap Byte
  hostReject : List (Nat × Nat)
  objs : SMap SyncObj
  queues : SMap Queue
  cmds : List Cmd
  nextTok : Nat
  sch : Sched
  itNow : Nat
  ports : SMap Port
  openTx : List OpenTx
  nextTx : Nat
  seqCtr : SMap Nat
  sources : List Source
  qpRate : SMap Nat
  qpAt : SMap Nat
  time : TimeSt
  mapped : List Nat
  ingest : SMap (Option Ingest)
  /-- the retouch claim table: descriptor address and token (10 R313) -/
  claims : List (Nat × Nat)
  power : PowerSt
  primerJob : Option PrimerJob
  /-- profiles of the switch in progress: the one asked for (15 R476) -/
  switchTo : Option Nat
  /-- commands, units and IT of the moment safe state was entered: what the registers go on showing (R480, R550) -/
  abandoned : List Cmd
  abandonedUnits : List SUnit
  safeIt : Nat
  /-- power came back while RESET_N was asserted: the reset at its deassertion is cold (R520, R580) -/
  coldPend : Bool
deriving DecidableEq, Repr

/-! ## After reset -/

/-- The BOOT record of the first boot (15 R493, R494, R587): SEQ 0, IT 0, cause POWER_ON, factory primer, Study, and its CRC-32C. -/
def bootBytes : List Byte :=
  List.replicate 16 0 ++ [1, 0, 0, 0xF0, 0, 1, 0, 0] ++ List.replicate 36 0 ++ [0x4F, 0xD0, 0xF8, 0xC7]

/-- A module as shipped, right after its first power-on reset (17 R520-R529, R537): BLANK, READY, no queue enabled, no scene open, the flash
map loading. The registers listed differ from their field tables' reset values because the boot set them: HBM_BYTES, BOOT_STATUS,
PRIMER_STATUS, POOL_RESULT, HBM_FRAMES and the four CLOCK_MHZ. Log entries 2 and 43. -/
def State.reset : State :=
  { pending := [], silicon := {}, held := false
    regs := [(0x14, 0x90), (0x108, 0x17), (0x2000, 0x80800), (0x148804, 2), (0x180004, 294912), (0x280100, 1800), (0x280110, 1800),
      (0x280120, 1800), (0x280130, 1800)]
    stagePcie := none, stageMgmt := none, heldFields := []
    lc := { incarnation := 1 }, nonceCtr := 1, freeCtr := 0, slotA := {}, slotB := {}
    sb := { nextSeq := 1, mram := [{ seq := 0, bytes := bootBytes }] }
    tiles := [], links := [], pal := [], acc := [], shr := [], progs := [], scenes := [], streams := [], pool := {}
    hbm := [], badLines := [], flash := [], gran := [], sweep := 0, blocks := [], ftl := { rdBase := 10000 }, flashBad := []
    fillQ := [], buckets := [], heldReqs := [], host := [], hostReject := [], objs := [], queues := [], cmds := [], nextTok := 0, sch := {}
    itNow := 0, ports := [], openTx := [], nextTx := 0, seqCtr := [], sources := [], qpRate := [], qpAt := [], time := {}, mapped := []
    ingest := [], claims := [], power := {}, primerJob := none, switchTo := none, abandoned := [], abandonedUnits := [], safeIt := 0
    coldPend := false }

end Sys2Proof.Machine
end

