-- ==== Sys2Proof/Machine/Ops.lean ====
section
/-! DEFINITION. The named operations over registers, check values, the sketchbook, safe state, memory, synchronisation
objects, remote transactions and the waits of commands. -/

namespace Sys2Proof.Machine

/-- Every register field is reached through one word of the register file. -/
def State.reg (s : State) (o : Nat) : W32 := SMap.get regReset s.regs o

/-- The register file with one word changed. -/
def State.setReg (s : State) (o : Nat) (v : W32) : State := { s with regs := SMap.set regReset o v s.regs }

/-- Bits `hi` to `lo` of a number. -/
def bits (v hi lo : Nat) : Nat := v / 2 ^ lo % 2 ^ (hi + 1 - lo)

/-- `v` with bits `hi` to `lo` replaced by `x`. -/
def putBits (v hi lo x : Nat) : Nat :=
  v / 2 ^ (hi + 1) * 2 ^ (hi + 1) + x % 2 ^ (hi + 1 - lo) * 2 ^ lo + v % 2 ^ lo

/-- Field [hi:lo] of the register word at `o`. -/
def State.fld (s : State) (o hi lo : Nat) : Nat := bits (s.reg o).toNat hi lo

/-- Field [hi:lo] of the register word at `o` set. -/
def State.setFld (s : State) (o hi lo x : Nat) : State :=
  s.setReg o (BitVec.ofNat 32 (putBits (s.reg o).toNat hi lo x))

/-- The 64-bit register at `o`. -/
def State.reg64 (s : State) (o : Nat) : Nat := (s.reg o).toNat + 2 ^ 32 * (s.reg (o + 4)).toNat

/-- The 64-bit register at `o` set. -/
def State.setReg64 (s : State) (o v : Nat) : State :=
  (s.setReg o (BitVec.ofNat 32 v)).setReg (o + 4) (BitVec.ofNat 32 (v / 2 ^ 32))

/-- A field-wide counter raised, saturating at its largest value. -/
def State.bumpF (s : State) (o hi lo n : Nat) : State :=
  s.setFld o hi lo (min (s.fld o hi lo + n) (2 ^ (hi + 1 - lo) - 1))

/-- A 32-bit counter raised, saturating. -/
def State.bump (s : State) (o n : Nat) : State := s.bumpF o 31 0 n

/-- A 64-bit counter raised, saturating. -/
def State.bump64 (s : State) (o n : Nat) : State := s.setReg64 o (min (s.reg64 o + n) (2 ^ 64 - 1))

/-! ## Bytes -/

/-- A little-endian number from bytes. -/
def leNat : List Byte → Nat
  | [] => 0
  | b :: bs => b.toNat + 256 * leNat bs

/-- `n` little-endian bytes of a number. -/
def leBytes : Nat → Nat → List Byte
  | 0, _ => []
  | n + 1, v => BitVec.ofNat 8 v :: leBytes n (v / 256)

/-- `x` before the first element it may precede. -/
def insertBy {α : Type} (le : α → α → Bool) (x : α) : List α → List α
  | [] => [x]
  | y :: ys => if le x y then x :: y :: ys else y :: insertBy le x ys

/-- The elements in order of `le`, equal ones in the order they stand. -/
def sortBy {α : Type} (le : α → α → Bool) : List α → List α
  | [] => []
  | x :: xs => insertBy le x (sortBy le xs)

/-- Nothing to sort. -/
@[simp] theorem sortBy_nil {α : Type} (le : α → α → Bool) : sortBy le [] = [] := rfl

/-- One element is in order. -/
@[simp] theorem sortBy_singleton {α : Type} (le : α → α → Bool) (x : α) : sortBy le [x] = [x] := rfl

/-- A list of bytes made exactly `n` long, zeros at its end. -/
def padTo (n : Nat) (bs : List Byte) : List Byte := (bs ++ List.replicate n 0).take n

/-- Listed cells of a run of bytes, keys from 0. -/
def cellsOf (bs : List Byte) : SMap Byte :=
  ((List.range bs.length).zip bs).filter fun e => decide (e.2 ≠ 0)

/-- `n` bytes from sparse cells, keys from 0. -/
def bytesOf (n : Nat) (cs : SMap Byte) : List Byte :=
  (List.range n).map fun i => SMap.get (fun _ => 0) cs i

/-! ## Check values (R481) -/

/-- A check-value algorithm. -/
structure CrcAlg where
  width : Nat
  poly : Nat
  init : Nat
  refl : Bool
  xorOut : Nat
deriving DecidableEq, Repr

/-- The algorithm of a code; the polynomial of a reflected one is held reversed. -/
def CrcAlg.ofCode : Nat → Option CrcAlg
  | 0 => some ⟨32, 0x82F63B78, 0xFFFFFFFF, true, 0xFFFFFFFF⟩
  | 1 => some ⟨32, 0xEDB88320, 0xFFFFFFFF, true, 0xFFFFFFFF⟩
  | 2 => some ⟨64, 0x42F0E1EBA9EA3693, 0, false, 0⟩
  | 3 => some ⟨16, 0x1021, 0xFFFF, false, 0⟩
  | _ => none

/-- One bit of a reflected CRC register. -/
def crcBitR (poly r : Nat) : Nat := if r % 2 = 1 then (r / 2) ^^^ poly else r / 2

/-- One bit of an unreflected CRC register of `w` bits. -/
def crcBitN (poly w r : Nat) : Nat :=
  if r / 2 ^ (w - 1) % 2 = 1 then (2 * r % 2 ^ w) ^^^ poly else 2 * r % 2 ^ w

/-- Apply a function `n` times. -/
def iter {α : Type} (f : α → α) : Nat → α → α
  | 0, x => x
  | n + 1, x => iter f n (f x)

/-- The running value after one more byte. -/
def CrcAlg.step (a : CrcAlg) (r : Nat) (b : Byte) : Nat :=
  if a.refl then iter (crcBitR a.poly) 8 (r ^^^ b.toNat)
  else iter (crcBitN a.poly a.width) 8 (r ^^^ (b.toNat * 2 ^ (a.width - 8)))

/-- The running value after bytes, from a start value. -/
def CrcAlg.run (a : CrcAlg) (start : Nat) (bs : List Byte) : Nat := bs.foldl a.step start

/-- The check value of bytes. -/
def CrcAlg.check (a : CrcAlg) (bs : List Byte) : Nat := a.run a.init bs ^^^ a.xorOut

/-- CRC-32C of bytes. -/
def crc32c (bs : List Byte) : Nat := (⟨32, 0x82F63B78, 0xFFFFFFFF, true, 0xFFFFFFFF⟩ : CrcAlg).check bs

/-- CRC-64 of bytes. -/
def crc64 (bs : List Byte) : Nat := (⟨64, 0x42F0E1EBA9EA3693, 0, false, 0⟩ : CrcAlg).check bs

/-- CRC-16 of bytes. -/
def crc16 (bs : List Byte) : Nat := (⟨16, 0x1021, 0xFFFF, false, 0⟩ : CrcAlg).check bs

/-! ## Module state -/

/-- In safe state (R480, R498). -/
def State.safe (s : State) : Bool := s.fld 0x260010 0 0 == 1

/-- A life-cycle transition is running (R540 SCRAPING). -/
def State.scraping (s : State) : Bool := s.fld 0x1000 4 4 == 1

/-- READY (R539) and not held in reset. -/
def State.ready (s : State) : Bool := s.fld 0x108 4 4 == 1 && !s.held

/-- The module runs commands: READY, not in safe state, not in a transition. -/
def State.live (s : State) : Bool := s.ready && !s.safe && !s.scraping

/-- The profile in force (R476): 0 Sketch, 1 Study, 2 Finish. -/
def State.profile (s : State) : Nat := s.fld 0x260004 1 0

/-- A profile switch is in progress (R476). -/
def State.switching (s : State) : Bool := s.fld 0x260004 2 2 == 1

/-- Advance the local IT to a moment at or after now. -/
def State.advance (s : State) (it : Nat) : State := { s with itNow := max s.itNow (it % 2 ^ 64) }

/-! ## The sketchbook (R493-R495) -/

/-- A record's 64 bytes (R493). -/
def sbBytes (s : State) (cat sev src : Nat) (payload : List Byte) : List Byte :=
  let b := leBytes 8 s.sb.nextSeq ++ leBytes 8 s.itNow ++ leBytes 1 cat ++ leBytes 1 sev ++ leBytes 2 src
    ++ leBytes 1 s.time.st ++ leBytes 1 s.profile ++ leBytes 2 0 ++ padTo 36 payload
  b ++ leBytes 4 (crc32c b)

/-- Write a record: it takes the next SEQ, and enters MRAM unless no entry is open to it (R495). -/
def State.record (s : State) (cat sev src : Nat) (payload : List Byte) : State :=
  let n := s.sb.mram.length
  let seq := s.sb.nextSeq
  if n < 64512 ∨ (sev = 2 ∧ n < 65536) then
    { s with sb := { s.sb with nextSeq := seq + 1, mram := s.sb.mram ++ [{ seq := seq, bytes := sbBytes s cat sev src payload }] } }
  else
    { s with sb := { s.sb with
        nextSeq := seq + 1
        dropped := min (s.sb.dropped + 1) (2 ^ 32 - 1)
        dropRun := match s.sb.dropRun with
          | none => some (1, seq)
          | some (k, q) => some (k + 1, q) } }

/-- SOURCE of a hub event (R587): kind 0xE with an instance. -/
def srcHub (i : Nat) : Nat := 0xE000 + i
/-- SOURCE of the module as a whole. -/
def srcModule : Nat := 0xF000
/-- SOURCE of a unit of R415. -/
def srcUnit (kind inst : Nat) : Nat := kind * 4096 + inst

/-- The code of a store in an ECC record (R587). -/
def Store.code : Store → Nat
  | .palette => 0
  | .acc => 1
  | .shared => 2
  | .hbm => 3
  | .glaze => 4
  | .bridge => 5
  | .hub => 6
  | .flash => 7
  | .pcie => 8

/-- An ECC record (R494, R587): store, the command that met it, where, and the address. -/
def State.eccRecord (s : State) (src : Nat) (st : Nat) (client op tag wher addr : Nat) : State :=
  s.record 0x20 1 src (leBytes 1 st ++ leBytes 1 client ++ leBytes 2 op ++ leBytes 2 wher ++ leBytes 2 0 ++ leBytes 8 addr ++ leBytes 8 tag)

/-- Lines of one target (R334): Qtop of each SKU. -/
def qTop (k : Sku) : Nat :=
  match k with
  | .h4 => 3145728
  | .h3e => 2359296

/-- The interleave target and the line index of an HBM byte with the given map-outs in force, targets of `qTop` lines (R332, R334). -/
def hbmPlace (qTop : Nat) (out : List Nat) (pa : Nat) : Nat × Nat :=
  let l := pa / 512
  let fold := bits l 13 7 ^^^ bits l 20 14 ^^^ bits l 27 21 ^^^ bits l 34 28
  let b := l / 128
  let t := 128 * (b % 3) + (l % 128 ^^^ fold)
  match out.idxOf? t with
  | none => (t, b / 3)
  | some j =>
    let k := b / 3 * out.length + j
    (((List.range 384).filter fun x => !out.contains x).getD (k % (384 - out.length)) t, qTop - 1 - k / (384 - out.length))

/-- The target alone. -/
def hbmTarget (out : List Nat) (pa : Nat) : Nat := (hbmPlace 0 out pa).1

/-- Where the module's HBM controllers put a byte. -/
def State.hbmPlace (s : State) (pa : Nat) : Nat × Nat := Sys2Proof.Machine.hbmPlace (qTop s.silicon.sku) s.mapped pa

/-- Entering safe state (R480): the cause is shown, every unit stops, the commands in flight are abandoned, a SAFE_STATE
record is written and the sketchbook is flushed (MRAM holds every accepted record, so the flush moves nothing). The
commands in flight stay abandoned: no record, no signal. -/
def State.enterSafe (s : State) (cause : Nat) : State :=
  if s.safe then s
  else
    let s := (s.setFld 0x260010 7 4 cause).setFld 0x260010 0 0 1
    let s := { s with abandoned := s.cmds, abandonedUnits := s.sch.units, safeIt := s.itNow, cmds := [], sch := { s.sch with units := [] }
                      power := { s.power with stopped := true } }
    s.record 0x71 2 srcModule (leBytes 1 cause)

/-! ## Tables -/

/-- Tile `t`. -/
def State.tile (s : State) (t : Nat) : Tile := SMap.get (fun _ => {}) s.tiles t
/-- Tile `t` changed. -/
def State.setTile (s : State) (t : Nat) (x : Tile) : State := { s with tiles := SMap.set (fun _ => {}) t x s.tiles }
/-- Healthy tiles (R2, R126): those whose retire fuse is not burned. -/
def State.healthyTiles (s : State) : Nat := ((List.range 64).filter fun t => !(s.tile t).retireFuse).length
/-- Program slot `i`. -/
def State.pslot (s : State) (i : Nat) : PSlot := SMap.get (fun _ => {}) s.progs i
/-- Program slot `i` changed. -/
def State.setPslot (s : State) (i : Nat) (x : PSlot) : State := { s with progs := SMap.set (fun _ => {}) i x s.progs }
/-- Scene slot `i`. -/
def State.scene (s : State) (i : Nat) : Option Scene := SMap.get (fun _ => none) s.scenes i
/-- Scene slot `i` changed. -/
def State.setScene (s : State) (i : Nat) (x : Option Scene) : State := { s with scenes := SMap.set (fun _ => none) i x s.scenes }
/-- Stream `i`. -/
def State.strm (s : State) (i : Nat) : Stream := SMap.get (fun _ => {}) s.streams i
/-- Stream `i` changed. -/
def State.setStrm (s : State) (i : Nat) (x : Stream) : State := { s with streams := SMap.set (fun _ => {}) i x s.streams }
/-- Object `i`. -/
def State.obj (s : State) (i : Nat) : SyncObj := SMap.get (fun _ => {}) s.objs i
/-- Object `i` changed. -/
def State.setObj (s : State) (i : Nat) (x : SyncObj) : State := { s with objs := SMap.set (fun _ => {}) i x s.objs }
/-- Queue `q`. -/
def State.queue (s : State) (q : Nat) : Queue := SMap.get (fun _ => {}) s.queues q
/-- Queue `q` changed. -/
def State.setQueue (s : State) (q : Nat) (x : Queue) : State := { s with queues := SMap.set (fun _ => {}) q x s.queues }
/-- Granule `g`. -/
def State.granule (s : State) (g : Nat) : Granule := SMap.get (fun _ => {}) s.gran g
/-- Granule `g` changed. -/
def State.setGranule (s : State) (g : Nat) (x : Granule) : State := { s with gran := SMap.set (fun _ => {}) g x s.gran }
/-- Port `p`. -/
def State.port (s : State) (p : Nat) : Port := SMap.get (fun _ => {}) s.ports p
/-- Port `p` changed. -/
def State.setPort (s : State) (p : Nat) (x : Port) : State := { s with ports := SMap.set (fun _ => {}) p x s.ports }
/-- Erase block `b`; the sample interval starts at RD_SAMPLE (R356). -/
def State.block (s : State) (b : Nat) : EBlock := SMap.get (fun _ => {}) s.blocks b
/-- Erase block `b` changed. -/
def State.setBlock (s : State) (b : Nat) (x : EBlock) : State := { s with blocks := SMap.set (fun _ => {}) b x s.blocks }

/-! ## Memory (11) -/

/-- Bytes of a granule: 2 MiB. -/
def gBytes : Nat := 2097152
/-- The end of the range: 12 TiB (R326). -/
def dvaEnd : Nat := 13194139533312
/-- The flash translation layer's state (R371): 0 READY, 1 LOADING, 2 READ_ONLY, 3 FAILED. -/
def State.ftlState (s : State) : Nat := s.fld 0x1C0000 3 0
/-- Residency frames: F - 1,184 (R331). -/
def State.resFrames (s : State) : Nat := s.fld 0x180004 19 0 - 1184

/-- The result of an access: done, not possible yet, or failed with a command status. -/
inductive Res (α : Type) where
  | ok (a : α)
  | wait
  | err (status : Nat)
deriving DecidableEq, Repr

/-- Sequence two accesses. -/
def Res.bind {α β : Type} (r : Res α) (f : α → Res β) : Res β :=
  match r with
  | .ok a => f a
  | .wait => .wait
  | .err e => .err e

/-- The granules an access touches, in increasing order. -/
def granulesOf (a n : Nat) : List Nat :=
  if n = 0 then [] else (List.range ((a + n - 1) / gBytes - a / gBytes + 1)).map (· + a / gBytes)

/-- The lowest uncorrectable 64 B line of a run of HBM bytes. -/
def State.badLine (s : State) (pa n : Nat) : Option Nat :=
  (s.badLines.find? fun e => e.2 && decide (pa / 64 ≤ e.1) && decide (n ≠ 0) && decide (e.1 ≤ (pa + n - 1) / 64)).map (·.1)

/-- A 64 B line of a run of HBM bytes is uncorrectable. -/
def State.badIn (s : State) (pa n : Nat) : Bool := (s.badLine pa n).isSome

/-- Part of an access that lies in granule `g`: its first byte and its length. -/
def gPart (a n g : Nat) : Nat × Nat :=
  let lo := max a (gBytes * g)
  let hi := min (a + n) (gBytes * (g + 1))
  (lo, hi - lo)

/-- The HBM address of a byte of a resident granule (R331). -/
def Granule.pa (x : Granule) (g a : Nat) : Nat := gBytes * x.frame + (a - gBytes * g)

/-- A read of one granule's part: what it returns (R327, R328, R345, R362, R365, R478). -/
def State.readPart (s : State) (a n g : Nat) : Res (SMap Byte) :=
  let x := s.granule g
  let p := gPart a n g
  if x.resident then
    if s.badIn (x.pa g p.1) p.2 then .err 0x4002 else .ok (SMap.slice (x.pa g p.1) p.2 (p.1 - a) s.hbm)
  else if s.ftlState = 1 then .wait
  else if s.ftlState = 3 || x.poison then .err 0x4002
  else .ok (SMap.slice p.1 p.2 (p.1 - a) s.flash)

/-- The first address of an access at which it cannot be read: its own part of a bad line, or of a granule whose flash home fails. -/
def State.badAt (s : State) (a n : Nat) : Nat :=
  ((granulesOf a n).findSome? fun g =>
    let x := s.granule g
    let p := gPart a n g
    if x.resident then (s.badLine (x.pa g p.1) p.2).map fun l => max p.1 (gBytes * g + 64 * l - gBytes * x.frame)
    else if s.ftlState = 3 || x.poison then some p.1
    else none).getD a

/-- Read parts in increasing granule order. -/
def State.readParts (s : State) (a n : Nat) : List Nat → Res (SMap Byte)
  | [] => .ok []
  | g :: gs => (s.readPart a n g).bind fun c => (s.readParts a n gs).bind fun d => .ok (c ++ d)

/-- The bytes of the range at `[a, a + n)`, as cells from 0 (R326: above 12 TiB nothing translates). -/
def State.dvaCells (s : State) (a n : Nat) : Res (SMap Byte) :=
  if n = 0 then .ok [] else if a + n > dvaEnd then .err 0x1006 else s.readParts a n (granulesOf a n)

/-- Frames that hold a granule or are being filled. -/
def State.usedFrames (s : State) : List Nat :=
  (s.gran.filter fun e => e.2.resident || e.2.move == 1).map (·.2.frame)

/-- The lowest free residency frame. -/
def State.freeFrame (s : State) : Option Nat :=
  ((List.range (s.usedFrames.length + 1)).find? fun f => !s.usedFrames.contains f).filter fun f => decide (f < s.resFrames)

/-- The granule in a frame. -/
def State.frameOwner (s : State) (f : Nat) : Option Nat :=
  (s.gran.find? fun e => e.2.resident && e.2.frame == f).map (·.1)

/-- The sweep of R340: walk the frames from the pointer, clearing REF, to the first victim; at most `fuel` frames. A frame that a FLUSH copies
is passed over, since two movements of a granule never overlap (R343). A dirty granule without NO_WB is passed over where the flash cannot
take it (R362, R363), and where a line of it is uncorrectable, since nothing read from it may be written (R478; log entry 26). -/
def State.sweepTo (s : State) : Nat → State × Option Nat
  | 0 => (s, none)
  | fuel + 1 =>
    let f := s.sweep % max 1 s.resFrames
    let s' := { s with sweep := (f + 1) % max 1 s.resFrames }
    match s.frameOwner f with
    | none => s'.sweepTo fuel
    | some g =>
      let x := s.granule g
      if x.pin || x.move != 0 || x.by_ != 0 || (x.dirty && !x.noWb && (s.ftlState != 0 || s.badIn (gBytes * x.frame) gBytes)) then
        s'.sweepTo fuel
      else if x.ref then (s'.setGranule g { x with ref := false }).sweepTo fuel
      else (s', some g)

/-- A granule out of HBM: NONRESIDENT, its frame's bytes gone. -/
def State.dropFrame (s : State) (g : Nat) : State :=
  let x := s.granule g
  let s := { s with hbm := SMap.erase (gBytes * x.frame) gBytes s.hbm
                    badLines := SMap.erase (x.frame * (gBytes / 64)) (gBytes / 64) s.badLines }
  (s.setGranule g { x with frame := 0, resident := false, dirty := false, ref := false, move := 0, by_ := 0, met := false }).bump64 0x182028 1

/-- A mover has moved bytes for a fill, a write-back or a context (R58, R372); which one is free (log entry 64). -/
def State.moverBytes (s : State) (n : Nat) : State :=
  { s.bump64 (0x15C008 + 0x1000 * ((Config.freeWord s.freeCtr).toNat % 16)) n with freeCtr := s.freeCtr + 1 }

/-! ### The flash map (R352-R358)

Erase blocks are written in groups of 24, one a channel: 1,024 stripes of 23 data pages and a parity page, 184 homes of 128 data pages.
DESIGN CHOICE, log entry 30. -/

/-- Erase blocks of the device (R352). -/
def eraseBlocks : Nat := 1048576

/-- Homes a stripe group holds. -/
def groupHomes : Nat := 184

/-- The stripe of a data page of a group, by the page's number there. -/
def stripeOf (n : Nat) : Nat := n / 23

/-- The free erase blocks a group takes: in service, in no group, lowest erase count first (R354). -/
def State.freeBlocks (s : State) : List Nat :=
  let used := s.ftl.groups.flatMap (·.2)
  let n := min eraseBlocks (s.blocks.length + used.length + 24)
  (sortBy (fun a b => decide ((s.block a).erases ≤ (s.block b).erases))
    ((List.range n).filter fun b => !used.contains b && !(s.block b).bad)).take 24

/-- A fresh group is opened where the last is full. -/
def State.openGroup (s : State) : State :=
  if s.ftl.taken < groupHomes then s
  else
    { s with ftl := { s.ftl with cur := s.ftl.cur + 1, taken := 0
                                 groups := SMap.set (fun _ => []) (s.ftl.cur + 1) s.freeBlocks s.ftl.groups } }

/-- A granule is written to fresh pages, 128 of data and the parity pages of the stripes they fill, and the flash map entry switches to them
in one step (R353). -/
def State.programHome (s : State) (g : Nat) : State :=
  let s := s.openGroup
  let k := s.ftl.taken
  let pages := 128 + (stripeOf (128 * (k + 1)) - stripeOf (128 * k))
  { s with ftl := { s.ftl with
      homes := SMap.set (fun _ => none) g (some (s.ftl.cur, k)) s.ftl.homes
      taken := k + 1
      nandWritten := min (2 ^ 64 - 1) (s.ftl.nandWritten + 16384 * pages) } }

/-- Where a granule's pages lie. -/
def State.homeOf (s : State) (g : Nat) : Option (Nat × Nat) := SMap.get (fun _ => none) s.ftl.homes g

/-- The channel, and the erase block, of page `p` of a granule's home. -/
def State.pagePlace (s : State) (g p : Nat) : Option (Nat × Nat) :=
  match s.homeOf g with
  | none => none
  | some (k, i) =>
    let ch := (128 * i + p) % 23
    ((SMap.get (fun _ => []) s.ftl.groups k)[ch]?).map fun b => (ch, b)

/-- Page reads of a block (R356, R357); the counter is 32 bits wide. -/
def State.countReads (s : State) (b n : Nat) : State :=
  let x := s.block b
  { s.setBlock b { x with reads := min (x.reads + n) ((2 ^ 32 - 1 : Int) - s.ftl.rdBase), since := x.since + n } with
    ftl := { s.ftl with totalReads := s.ftl.totalReads + n } }

/-- Pages `p` to `p + n - 1` of a granule's home are read; a home never written has none. -/
def State.readPages (s : State) (g p n : Nat) : State :=
  if (s.homeOf g).isNone then s
  else (List.range n).foldl (fun s i => match s.pagePlace g (p + i) with
    | some (_, b) => s.countReads b 1
    | none => s) s

/-- Granules whose home lies in group `k`, each with its place. -/
def State.homesIn (s : State) (k : Nat) : List (Nat × Nat) :=
  s.ftl.homes.filterMap fun e => match e.2 with
    | some (j, i) => if j = k then some (e.1, i) else none
    | none => none

/-- Granules move to fresh pages (R353, R356, R359, R365): their pages are read and written again. -/
def State.moveHomes (s : State) (gs : List Nat) : State := gs.foldl (fun s g => (s.readPages g 0 128).programHome g) s

/-- The group an erase block belongs to. -/
def State.groupOf (s : State) (b : Nat) : Option Nat := (s.ftl.groups.find? fun e => e.2.contains b).map (·.1)

/-- Every valid granule of an erase block moves to fresh pages; a group that was being written takes no more. -/
def State.vacate (s : State) (b : Nat) : State :=
  match s.groupOf b with
  | none => s
  | some k =>
    let s := if s.ftl.cur = k then { s with ftl := { s.ftl with taken := groupHomes } } else s
    s.moveHomes ((s.homesIn k).map (·.1))

/-- A flash home is found unreadable (R345, R365, R587): UNCORRECTABLE counts, the granule is POISON, which the flash map records. -/
def State.poisonFlash (s : State) (g : Nat) : State :=
  { (s.bump 0x1C0048 1).setGranule g { s.granule g with poison := true } with flashBad := SMap.set (fun _ => false) g true s.flashBad }

/-- The flash channel of a device address, for an ECC record. -/
def State.channelAt (s : State) (a : Nat) : Nat :=
  match s.pagePlace (a / gBytes) (a % gBytes / 16384) with
  | some (ch, _) => ch
  | none => 0xFFFF

/-- A page read at device address `a` that needed a retry (R358, R365): set `k` decoded it and becomes its block's offsets; 16: none did,
and the page is rebuilt from its stripe, whose granules move. -/
def State.retryPage (s : State) (a k : Nat) : State :=
  let g := a / gBytes
  if (s.granule g).resident then s
  else
    match s.homeOf g, s.pagePlace g (a % gBytes / 16384) with
    | some (grp, i), some (_, b) =>
      let s := s.bump64 0x1C0038 1
      if k < 16 then
        (s.setBlock b { s.block b with offsets := (List.range 7).map fun j => (Config.readRefSet k j).toInt }).bump64 0x1C0040 1
      else
        let st := stripeOf (128 * i + a % gBytes / 16384)
        let meets (j : Nat) : Bool := decide (stripeOf (128 * j) ≤ st) && decide (st ≤ stripeOf (128 * j + 127))
        (s.moveHomes (((s.homesIn grp).filter fun e => meets e.2).map (·.1))).bump64 0x1C0030 1
    | _, _ => s

/-- Write-back commit (R353): the flash home takes the frame's bytes in one step, POISON is cleared (R365), the counters
move. -/
def State.commitWriteback (s : State) (g : Nat) : State :=
  let x := s.granule g
  let cs := SMap.slice (gBytes * x.frame) gBytes (gBytes * g) s.hbm
  let s := { s with flash := SMap.setAll (fun _ => 0) cs (SMap.erase (gBytes * g) gBytes s.flash)
                    ftl := { s.ftl with hostWritten := min (2 ^ 64 - 1) (s.ftl.hostWritten + gBytes) }
                    flashBad := SMap.set (fun _ => false) g false s.flashBad }
  (((s.programHome g).moverBytes gBytes).setGranule g { x with dirty := false, poison := false }).bump64 0x182030 1

/-- A frame for a fill that must happen now: a free one, or one whose victim leaves HBM (its write-back commits first
where it is dirty without NO_WB). -/
def State.takeFrame (s : State) : State × Option Nat :=
  match s.freeFrame with
  | some f => (s, some f)
  | none =>
    match s.sweepTo (2 * s.resFrames + 1) with
    | (s', none) => (s', none)
    | (s', some g) =>
      let x := s'.granule g
      let s'' := if x.dirty && !x.noWb then (s'.commitWriteback g).dropFrame g else s'.dropFrame g
      (s'', some x.frame)

/-- Copy a flash home into frame `f` and make the granule resident (R339). -/
def State.fillInto (s : State) (g f : Nat) : State :=
  let x := s.granule g
  let cs := SMap.slice (gBytes * g) gBytes (gBytes * f) s.flash
  let s := { s with hbm := SMap.setAll (fun _ => 0) cs (SMap.erase (gBytes * f) gBytes s.hbm) }
  ((s.readPages g 0 128).moverBytes gBytes).setGranule g { x with frame := f, resident := true, dirty := false, move := 0 }

/-- Granules in FILLING or EVICTING. -/
def State.moving (s : State) : Nat := (s.gran.filter fun e => e.2.move != 0).length

/-- A running MIGRATE TO_HBM waits for the granule. -/
def State.wanted (s : State) (g : Nat) : Bool :=
  s.cmds.any fun c => c.op == 0x0301 && bits (c.par.getD 4 0) 1 0 == 0 && c.phase == .running && c.targets.contains g

/-- A queued fill leaves the queue. -/
def State.unqueue (s : State) (g : Nat) : State := { s with fillQ := s.fillQ.filter fun x => x != g }

/-- Start a queued fill where a frame can be had now (R340, R341): a free frame, a clean victim's, or none while a dirty victim is
written back. A fill that no MIGRATE waits for is dropped where two rotations of the sweep find no victim. -/
def State.startFill (s : State) (g : Nat) : State :=
  let x := s.granule g
  if x.resident || x.move != 0 then s.unqueue g
  else if 1024 ≤ s.moving || s.ftlState == 1 then s
  else
    match s.freeFrame with
    | some f => (s.setGranule g { x with frame := f, move := 1 }).unqueue g
    | none =>
      if s.gran.any fun e => e.2.move == 2 && e.2.by_ == 0 then s
      else
        match s.sweepTo (2 * s.resFrames) with
        | (s', none) => if s.wanted g then s' else (s'.bump 0x182038 1).unqueue g
        | (s', some v) =>
          let y := s'.granule v
          if y.dirty && !y.noWb then s'.setGranule v { y with move := 2 }
          else ((s'.dropFrame v).setGranule g { x with frame := y.frame, move := 1 }).unqueue g

/-- Every queued fill that can start does. -/
def State.startFills (s : State) : State := s.fillQ.foldl (fun s g => s.startFill g) s

/-- A write needs its granule resident (R328, R339-R341, R343, R344, R363): a FILLING one is filled now and its fill counts, a NONRESIDENT one
is demand filled; the write cancels an eviction, after which the sweep moves on for the fill that waits, and a FLUSH's copy learns of it. A
demand fill that finds no victim waits, or fails in READ_ONLY where nothing moves. -/
def State.ensure (s : State) (g : Nat) : Res State :=
  let x := s.granule g
  if x.resident then
    .ok (if x.move = 2 then (s.setGranule g { x with move := 0, by_ := 0 }).startFills
      else if x.by_ ≠ 0 then s.setGranule g { x with met := true }
      else s)
  else if s.ftlState = 1 then .wait
  else if s.ftlState = 3 || x.poison then .err 0x4002
  else if x.move = 1 then .ok ((s.fillInto g x.frame).bump64 0x182020 1)
  else
    match s.takeFrame with
    | (s', some f) => .ok ((s'.fillInto g f).bump64 0x182018 1)
    | (_, none) => if s.ftlState = 2 && !(s.gran.any fun e => e.2.move != 0 || e.2.by_ != 0) then .err 0x4004 else .wait

/-- Make every granule of a list resident. -/
def State.ensureAll (s : State) : List Nat → Res State
  | [] => .ok s
  | g :: gs => (s.ensure g).bind fun s' => s'.ensureAll gs

/-- Store cells into the part of a resident granule: DIRTY and REF are set (R328); lines written whole lose their poison
code (R479). -/
def State.storePart (s : State) (a n : Nat) (cs : SMap Byte) (g : Nat) : State :=
  let x := s.granule g
  let p := gPart a n g
  let pa := x.pa g p.1
  let here := SMap.slice (p.1 - a) p.2 pa cs
  let l0 := (pa + 63) / 64
  let l1 := (pa + p.2) / 64
  let s := { s with hbm := SMap.setAll (fun _ => 0) here (SMap.erase pa p.2 s.hbm)
                    badLines := SMap.erase l0 (l1 - l0) s.badLines }
  s.setGranule g { x with dirty := true, ref := true }

/-- Store `n` bytes, given as cells from 0, at a DVA. -/
def State.dvaStore (s : State) (a n : Nat) (cs : SMap Byte) : Res State :=
  if n = 0 then .ok s
  else if a + n > dvaEnd then .err 0x1006
  else (s.ensureAll (granulesOf a n)).bind fun s' =>
    .ok ((granulesOf a n).foldl (fun s g => s.storePart a n cs g) s')

/-- 16 KiB flash pages of an access within one granule. -/
def pagesTouched (a n : Nat) : Nat := if n = 0 then 0 else (a + n - 1) / 16384 - a / 16384 + 1

/-- What reads do to the granule table (R338, R339, R349, R356): REF of a resident one; of the others ACCESS, their pages' read counters and,
where allowed, a promotion. -/
def State.touchPart (s : State) (promote : Bool) (a n g : Nat) : State :=
  let x := s.granule g
  let p := gPart a n g
  if x.resident then s.setGranule g { x with ref := true }
  else
    let x := { x with access := min (x.access + pagesTouched p.1 p.2) 0xFFFF }
    let s := (s.setGranule g x).readPages g (p.1 % gBytes / 16384) (pagesTouched p.1 p.2)
    let thr := let t := s.fld 0x182000 15 0; if t = 0 then 1 else t
    if promote && s.fld 0x182000 16 16 == 1 && !x.stream && x.move == 0 && !s.fillQ.contains g && decide (thr ≤ x.access) then
      { s with fillQ := s.fillQ ++ [g] }.startFill g
    else s

/-- The granule table after a read of `[a, a + n)`. -/
def State.touch (s : State) (promote : Bool) (a n : Nat) : State :=
  if a + n > dvaEnd then s else (granulesOf a n).foldl (fun s g => s.touchPart promote a n g) s

/-- The host rejects an access that meets one of its rejecting ranges (R378, R588). -/
def State.hostOk (s : State) (a n : Nat) : Bool :=
  s.hostReject.all fun r => decide (a + n ≤ r.1) || decide (r.1 + r.2 ≤ a)

/-- Palette bytes of one tile: 24 MiB (R53). -/
def palBytes : Nat := 25165824
/-- Shared bytes of one panel: 128 MiB (R55). -/
def shrBytes : Nat := 134217728

/-- Bytes at a place, as cells from 0. -/
def State.cells (s : State) (l : Loc) (n : Nat) : Res (SMap Byte) :=
  match l with
  | .dva a => s.dvaCells a n
  | .host a => if s.hostOk a n then .ok (SMap.slice a n 0 s.host) else .err 0x1006
  | .pal t o => .ok (SMap.slice (palBytes * t + o) n 0 s.pal)
  | .shr p o => .ok (SMap.slice (shrBytes * p + o) n 0 s.shr)

/-- Store `n` bytes, given as cells from 0, at a place. -/
def State.store (s : State) (l : Loc) (n : Nat) (cs : SMap Byte) : Res State :=
  match l with
  | .dva a => s.dvaStore a n cs
  | .host a =>
    if s.hostOk a n then .ok { s with host := SMap.setAll (fun _ => 0) (SMap.slice 0 n a cs) (SMap.erase a n s.host) }
    else .err 0x1006
  | .pal t o =>
    let b := palBytes * t + o
    .ok { s with pal := SMap.setAll (fun _ => 0) (SMap.slice 0 n b cs) (SMap.erase b n s.pal) }
  | .shr p o =>
    let b := shrBytes * p + o
    .ok { s with shr := SMap.setAll (fun _ => 0) (SMap.slice 0 n b cs) (SMap.erase b n s.shr) }

/-- An (H) field (R374): a host address where [63] is 1, otherwise a DVA. -/
def locH (v : Nat) : Loc := if v / 2 ^ 63 % 2 = 1 then .host (v % 2 ^ 63) else .dva v

/-- A place `n` bytes further on. -/
def Loc.plus (l : Loc) (n : Nat) : Loc :=
  match l with
  | .dva a => .dva (a + n)
  | .host a => .host (a + n)
  | .pal t o => .pal t (o + n)
  | .shr p o => .shr p (o + n)

/-- `n` bytes at a place. -/
def State.bytesAt (s : State) (l : Loc) (n : Nat) : Res (List Byte) :=
  (s.cells l n).bind fun c => .ok (bytesOf n c)

/-- A little-endian number of `n` bytes at a place. -/
def State.natAt (s : State) (l : Loc) (n : Nat) : Res Nat :=
  (s.bytesAt l n).bind fun b => .ok (leNat b)

/-- Store bytes at a place. -/
def State.storeBytes (s : State) (l : Loc) (bs : List Byte) : Res State := s.store l bs.length (cellsOf bs)

/-- A word already known readable: 0 where it is not. -/
def Res.getD {α : Type} (r : Res α) (d : α) : α :=
  match r with
  | .ok a => a
  | _ => d

/-- Run a store that a command may not fail on: unchanged where it cannot be made. -/
def Res.orElse {α : Type} (r : Res α) (d : α) : α := r.getD d

/-- `n` bytes at a place take contents the spec leaves open (log entry 4). -/
def State.scribble (s : State) (l : Loc) (n : Nat) : State :=
  { (s.storeBytes l ((List.range n).map fun i => Config.freeByte (s.freeCtr + i))).orElse s with freeCtr := s.freeCtr + n }

/-! ## Commands -/

/-- An in-flight command. -/
def State.cmd (s : State) (tok : Nat) : Option Cmd := s.cmds.find? fun c => c.tok == tok

/-- A command changed. -/
def State.updCmd (s : State) (tok : Nat) (f : Cmd → Cmd) : State :=
  { s with cmds := s.cmds.map fun c => if c.tok = tok then f c else c }

/-- A command's client and queue. -/
def Cmd.client (c : Cmd) : Nat := c.qid / 8

/-- A flag bit of the header. -/
def Cmd.flag (c : Cmd) (b : Nat) : Bool := c.flags / 2 ^ b % 2 == 1

/-- A 32-bit word of the packet at byte offset `o`, 0x40 to 0x7C. -/
def Cmd.w (c : Cmd) (o : Nat) : Nat := c.par.getD ((o - 0x40) / 4) 0

/-- A 64-bit field of the parameter area. -/
def Cmd.q (c : Cmd) (o : Nat) : Nat := c.w o + 2 ^ 32 * c.w (o + 4)

/-- A field of the parameter area. -/
def Cmd.f (c : Cmd) (o hi lo : Nat) : Nat := bits (c.w o) hi lo

/-- A status did what was asked (R397: class 0x00 or 0x01). -/
def statusGood (st : Nat) : Bool := st / 256 == 0 || st / 256 == 1

/-- The command has not dispatched. -/
def Phase.held : Phase → Bool
  | .fence => true
  | .wait => true
  | .time => true
  | .ready => true
  | _ => false

/-- The command has completed (its record may still wait). -/
def Phase.completed : Phase → Bool
  | .recordWait => true
  | _ => false

/-- The record and the target counter of an uncorrectable read (R368, R478, R494, R587), made by the unit `src` for a command.
`d`: the DVA plus one, 0 where the access had none. -/
def State.noteEcc (s : State) (src client op tag d : Nat) : State :=
  if d = 0 then s.eccRecord src 3 client op tag 0xFFFF (2 ^ 64 - 1)
  else
    let a := d - 1
    let x := s.granule (a / gBytes)
    if x.resident then
      let t := hbmTarget s.mapped (x.pa (a / gBytes) a)
      (s.bumpF (0x180800 + 4 * t) 31 16 1).eccRecord src 3 client op tag t a
    else (if x.poison then s.bump 0x1C0048 1 else s).eccRecord src 7 client op tag (s.channelAt a) a

/-- The address (one more, 0 for none) that the detail of a failed read carries: an ECC_UNCORRECTABLE's is the address alone, a
BOUND_READ_FAIL's stands above the bound's index. -/
def eccAddr (st d : Nat) : Nat := if st = 0x4002 then d else if st = 0x1002 then d / 256 else 0

/-- The DETAIL such a read leaves in the record: 0, or the bound's index (R159, R396). -/
def ownDetail (st d : Nat) : Nat := if st = 0x4002 then 0 else if st = 0x1002 then d % 256 else d

/-- The ECC record of an uncorrectable read the unit `src` met for a command. -/
def State.noteRead (s : State) (c : Cmd) (src st d : Nat) : State :=
  if eccAddr st d = 0 then s else s.noteEcc src c.client c.op c.tag (eccAddr st d)

/-- The ECC record of a command that ends on an uncorrectable read its own command processor met. -/
def State.noteCmd (s : State) (tok st d : Nat) : State :=
  match s.cmd tok with
  | some c => s.noteRead c (srcHub 0) st d
  | none => s

/-- A command ends: its status is decided and its effects are done (R382 step 6, R385). -/
def State.endCmd (s : State) (tok st detail : Nat) : State :=
  let s := s.noteCmd tok st detail
  s.updCmd tok fun c => { c with phase := .ended, status := st, detail := ownDetail st detail, itDone := s.itNow }

/-- A command ends with a DETAIL that is no address, naming a stream in the record. -/
def State.finishCmd (s : State) (tok st detail strm : Nat) : State :=
  s.updCmd tok fun c =>
    { c with phase := .ended, status := st, detail := detail, recStream := strm, itDone := s.itNow }

/-- As `endCmd`, naming a stream in the record. -/
def State.endCmdS (s : State) (tok st detail strm : Nat) : State :=
  (s.noteCmd tok st detail).finishCmd tok st (ownDetail st detail) strm

/-! ## Waits (R407-R408, R429) -/

/-- Whether waits of a command are parked: it is pre-empted (R429). -/
def Phase.parked : Phase → Bool
  | .stopping => true
  | .draining => true
  | .saving => true
  | .saved => true
  | .restoring => true
  | _ => false

/-- Judge one wait against a value. -/
def judge (obj value : Nat) (w : Option (Nat × Nat)) (met : Bool) : Bool :=
  met || (match w with | some (o, t) => o == obj && decide (t ≤ value) | none => false)

/-- Judge every tile and entry wait of a command on an object. -/
def Cmd.judgeRun (c : Cmd) (obj value : Nat) : Cmd :=
  if c.phase.parked then c
  else
    match c.run with
    | none => c
    | some r =>
      { c with run := some { r with
          tiles := r.tiles.map fun t => { t with waitMet := judge obj value t.waitObj t.waitMet }
          entries := r.entries.map fun e => { e with waitMet := judge obj value e.waitOn e.waitMet } } }

end Sys2Proof.Machine
end

