-- ==== Sys2Proof/Machine/Operands.lean ====
section
/-! DEFINITION. The packet a queue fetches: its header fields, the defined bits of each opcode's parameter area, and the
checks made at fetch (12 R379-R381, R386, R390-R393; 14 R449; 15 R487, R491; 19 R570, R575). -/

namespace Sys2Proof.Machine

/-- What the STREAM field of an opcode may hold (R391). -/
inductive StreamCol where
  /-- 0xFFFF only -/
  | none
  /-- a stream -/
  | stream
  /-- a stream or 0xFFFF -/
  | any
  /-- STEP: a stream when LIST_COUNT is 0, otherwise 0xFFFF -/
  | step
  /-- CLOSE: a stream without SCENE, 0xFFFF with it -/
  | close
deriving DecidableEq, Repr

/-- An opcode's row: its STREAM column, its defined OP_FLAGS and the defined bits of the 16 parameter words, as offset and
mask; a word not listed is reserved whole. -/
structure OpInfo where
  col : StreamCol
  opFlags : Nat
  params : List (Nat × Nat)
deriving DecidableEq, Repr

/-- All 32 bits of a word. -/
def wAll : Nat := 0xFFFFFFFF

/-- The masks of a 64-bit field. -/
def qAll (o : Nat) : List (Nat × Nat) := [(o, wAll), (o + 4, wAll)]

/-- A COPY endpoint (R393, R449). -/
def endpointMask (o : Nat) : List (Nat × Nat) := qAll o ++ [(o + 8, wAll), (o + 12, 7)]

/-- The opcode table (R391-R393). -/
def opInfo (op : Nat) : Option OpInfo :=
  match op with
  | 0x0000 => some ⟨.none, 0, []⟩
  | 0x0001 => some ⟨.none, 0, []⟩
  | 0x0002 => some ⟨.none, 0, []⟩
  | 0x0003 => some ⟨.none, 0, []⟩
  | 0x0100 => some ⟨.none, 3, qAll 0x40 ++ [(0x48, wAll), (0x4C, 0x7F)] ++ qAll 0x50 ++ qAll 0x58⟩
  | 0x0101 => some ⟨.none, 0, [(0x40, 0xFFFFFF), (0x44, 0x1F007F)] ++ qAll 0x48 ++ qAll 0x50 ++ qAll 0x58⟩
  | 0x0102 => some ⟨.none, 0, [(0x40, 0xFFFF)]⟩
  | 0x0200 => some ⟨.none, 0, [(0x40, 0xFFFF001F), (0x44, 0x1FF01FF), (0x48, 0x3FFF7FFF), (0x4C, 0xFFFFFF)]
      ++ qAll 0x50 ++ qAll 0x58 ++ qAll 0x60 ++ qAll 0x68⟩
  | 0x0201 => some ⟨.any, 1, [(0x40, 0x1F), (0x44, 0xFFFFFF)]⟩
  | 0x0202 => some ⟨.stream, 3, [(0x40, 0x1FF), (0x44, 0xFFFFFF)] ++ qAll 0x48⟩
  | 0x0203 => some ⟨.step, 0, [(0x40, 0x1F1FFF), (0x44, wAll)] ++ qAll 0x48 ++ qAll 0x50 ++ qAll 0x58
      ++ [(0x60, wAll), (0x64, wAll)] ++ qAll 0x68 ++ qAll 0x70⟩
  | 0x0204 => some ⟨.stream, 0, [(0x40, wAll), (0x44, wAll)] ++ qAll 0x48 ++ qAll 0x50 ++ qAll 0x58 ++ qAll 0x60
      ++ qAll 0x68 ++ qAll 0x70 ++ [(0x78, 0x1F)]⟩
  | 0x0205 => some ⟨.stream, 1, []⟩
  | 0x0206 => some ⟨.close, 1, [(0x40, 0x1F)]⟩
  | 0x0300 => some ⟨.none, 0, endpointMask 0x40 ++ endpointMask 0x50 ++ qAll 0x60 ++ [(0x68, 0xFE3FFFFF)]
      ++ qAll 0x70 ++ qAll 0x78⟩
  | 0x0301 => some ⟨.none, 0, qAll 0x40 ++ qAll 0x48 ++ [(0x50, 3)]⟩
  | 0x0302 => some ⟨.none, 0, qAll 0x40 ++ qAll 0x48 ++ [(0x50, 7)]⟩
  | 0x0303 => some ⟨.none, 0, [(0x40, 0xFFFF), (0x44, 0x7FF)] ++ qAll 0x48⟩
  | 0x0400 => some ⟨.none, 1, [(0x40, 0xFFFF), (0x44, 0x1FFF)] ++ qAll 0x48 ++ qAll 0x50 ++ qAll 0x58⟩
  | 0x0401 => some ⟨.none, 1, [(0x44, 0x1FFF)] ++ qAll 0x50 ++ qAll 0x58 ++ qAll 0x60⟩
  | 0x0500 => some ⟨.none, 1, [(0x40, 0x1F), (0x44, 0x3FFF003F)] ++ qAll 0x48 ++ [(0x50, wAll), (0x54, 0x1FFF)]
      ++ qAll 0x58 ++ [(0x60, wAll), (0x64, wAll)] ++ qAll 0x68 ++ qAll 0x70⟩
  | 0x0501 => some ⟨.none, 0, [(0x40, 0x1F)]⟩
  | 0x0502 => some ⟨.none, 0, [(0x40, 0x1F1F), (0x44, wAll)] ++ qAll 0x48 ++ qAll 0x50 ++ qAll 0x58⟩
  | 0x0503 => some ⟨.none, 0, [(0x40, 0x1F1F), (0x44, wAll)] ++ qAll 0x48 ++ qAll 0x50 ++ qAll 0x58⟩
  | 0x0504 => some ⟨.none, 0, [(0x40, 0x1F1F)] ++ qAll 0x48 ++ qAll 0x50⟩
  | 0x0505 => some ⟨.none, 3, [(0x40, 0x1F)] ++ qAll 0x48 ++ qAll 0x50⟩
  | 0x0600 => some ⟨.none, 1, [(0x40, 0x3F), (0x44, 0xFF)]⟩
  | 0x0601 => some ⟨.none, 0, [(0x40, 0x3F), (0x44, 0xFF)]⟩
  | 0x0700 => some ⟨.none, 0, qAll 0x40 ++ [(0x48, 0xF)] ++ qAll 0x50⟩
  | 0x0701 => some ⟨.none, 0, [(0x40, 0xFFF)] ++ qAll 0x48⟩
  | 0x0800 => some ⟨.none, 3, [(0x40, 0x1F), (0x44, 0x7FFF)] ++ qAll 0x48 ++ qAll 0x50 ++ qAll 0x58 ++ qAll 0x60
      ++ [(0x68, 0xFFFF)] ++ qAll 0x70 ++ qAll 0x78⟩
  | 0x0801 => some ⟨.none, 1, [(0x40, 0x1F)] ++ qAll 0x48 ++ qAll 0x50⟩
  | _ => none

/-- The defined bits of parameter word at `o`. -/
def OpInfo.mask (i : OpInfo) (o : Nat) : Nat := ((i.params.find? fun e => e.1 == o).map (·.2)).getD 0

/-- Word `i` of a packet. -/
def pktW (ws : List Nat) (o : Nat) : Nat := ws.getD (o / 4) 0

/-- The defined bits of the header words (R379, R380). -/
def headerMask (i : OpInfo) : List (Nat × Nat) :=
  [(0x00, 0x073FFFFF), (0x04, 0x1F0000 + i.opFlags), (0x28, 0x3FFF3FFF), (0x2C, 0xFFFF), (0x34, 0)]

/-- Some bit of `v` outside `mask` is set. -/
def outside (v mask : Nat) : Bool := v &&& mask != v

/-- The lowest word with a reserved bit set (R381 check 2). -/
def reservedAt (i : OpInfo) (ws : List Nat) : Option Nat :=
  match (headerMask i).find? fun e => outside (pktW ws e.1) e.2 with
  | some e => some e.1
  | none =>
    (List.range 16).map (fun k => 0x40 + 4 * k) |>.find? fun o => outside (pktW ws o) (i.mask o)

/-- Whether STREAM holds a value its column allows (R381 check 4). -/
def streamOk (i : OpInfo) (ws : List Nat) : Bool :=
  let st := pktW ws 0x2C % 65536
  let inTable := decide (st < 16384)
  let isNone := st == 0xFFFF
  match i.col with
  | .none => isNone
  | .stream => inTable
  | .any => inTable || isNone
  | .step => if bits (pktW ws 0x40) 12 0 = 0 then inTable else isNone
  | .close => if pktW ws 4 % 2 = 0 then inTable else isNone

/-- The fetch checks of R381 and R386 in order: the DETAIL of the first that fails. A wait or signal object at or above
16,384 does not fit the 14-bit fields, so check 5 never refuses. -/
def fetchCheck (qid : Nat) (ws : List Nat) : Option Nat :=
  let op := pktW ws 0 % 65536
  match opInfo op with
  | none => some 0
  | some i =>
    match reservedAt i ws with
    | some o => some o
    | none =>
      if bits (pktW ws 0) 21 16 ≠ qid / 8 ∨ bits (pktW ws 0) 26 24 ≠ qid % 8 then some 0
      else if !streamOk i ws then some 0x2C
      else if op = 2 ∧ bits (pktW ws 4) 16 16 = 0 then some 4
      else if op = 3 ∧ bits (pktW ws 4) 17 17 = 0 then some 4
      else none

/-- A command from the 32 words of its packet. -/
def Cmd.ofWords (tok qid : Nat) (ws : List Nat) : Cmd :=
  let q (o : Nat) := pktW ws o + 2 ^ 32 * pktW ws (o + 4)
  { tok := tok, qid := qid, op := pktW ws 0 % 65536, flags := pktW ws 4, tag := q 8, notBefore := q 0x10, waitValue := q 0x18
    signalValue := q 0x20, signalObj := bits (pktW ws 0x28) 29 16, waitObj := bits (pktW ws 0x28) 13 0
    stream := pktW ws 0x2C % 65536, epoch := pktW ws 0x30, seed := q 0x38, par := ws.drop 16, phase := .fence
    recStream := pktW ws 0x2C % 65536 }

/-- The 32-bit words of bytes. -/
def wordsOf : Nat → List Byte → List Nat
  | 0, _ => []
  | _, [] => []
  | n + 1, bs => leNat (bs.take 4) :: wordsOf n (bs.drop 4)

/-- The flags of R380. -/
def Cmd.waitEn (c : Cmd) : Bool := c.flag 16
/-- SIGNAL_EN. -/
def Cmd.signalEn (c : Cmd) : Bool := c.flag 17
/-- SIGNAL_ALWAYS. -/
def Cmd.signalAlways (c : Cmd) : Bool := c.flag 18
/-- FENCE. -/
def Cmd.fenceFlag (c : Cmd) : Bool := c.flag 19
/-- QUIET. -/
def Cmd.quiet (c : Cmd) : Bool := c.flag 20

/-- The range checks of R390 but for SYNC_COUNT's need, which depends on the program: the offset of the first count field out of
its range. -/
def Cmd.countBad (c : Cmd) : Option Nat :=
  let out (v lo hi : Nat) : Bool := decide (v < lo) || decide (hi < v)
  match c.op with
  | 0x0202 => if out (c.f 0x40 8 0) 1 256 then some 0x40 else none
  | 0x0203 => if out (c.f 0x40 12 0) 0 4096 then some 0x40 else none
  | 0x0400 => if out (c.f 0x44 12 0) 1 4096 then some 0x44 else none
  | 0x0401 => if out (c.f 0x44 12 0) 1 4096 then some 0x44 else none
  | 0x0303 => if out (c.f 0x44 10 0) 1 1024 then some 0x44 else none
  | 0x0100 => if out (c.f 0x4C 6 0) 0 64 then some 0x4C else none
  | 0x0101 => if out (c.f 0x44 6 0) 0 64 then some 0x44 else none
  | 0x0800 => if out (c.f 0x44 14 0) 0 16384 then some 0x44 else none
  | 0x0502 => if c.w 0x44 = 0 then some 0x44 else none
  | 0x0503 => if c.w 0x44 ≠ 1 then some 0x44 else none
  | _ => none

/-- Parameter fields that hold a DVA only (R374, R392, R393, R487, R491); a COPY's scale planes where it converts. -/
def Cmd.dvaFields (c : Cmd) : List Nat :=
  match c.op with
  | 0x0200 => [0x50, 0x60]
  | 0x0203 => [0x50, 0x58, 0x68]
  | 0x0204 => [0x48, 0x58, 0x68]
  | 0x0300 => if c.f 0x68 15 0 = 0 then [] else [0x70, 0x78]
  | 0x0301 => [0x40]
  | 0x0302 => [0x40]
  | 0x0401 => [0x58]
  | 0x0500 => [0x58, 0x68, 0x70]
  | 0x0502 => [0x48]
  | 0x0503 => [0x48]
  | 0x0504 => [0x48]
  | 0x0800 => if c.flag 0 then [0x50, 0x60] else [0x50]
  | 0x0801 => [0x48]
  | _ => []

/-- A DVA field has [63] set: it does not translate (R374). -/
def Cmd.dvaBad (c : Cmd) : Bool := c.dvaFields.any fun o => decide (2 ^ 63 ≤ c.q o)

/-- SYNC_COUNT of RUN, STEP and INGEST_SEQ, with the offset of its word. -/
def Cmd.syncCount (c : Cmd) : Option (Nat × Nat) :=
  match c.op with
  | 0x0101 => some (c.f 0x44 20 16, 0x44)
  | 0x0203 => some (c.f 0x40 20 16, 0x40)
  | 0x0204 => some (c.f 0x78 4 0, 0x78)
  | _ => none

end Sys2Proof.Machine
end

