-- ==== Sys2Proof/Machine/Program.lean ====
section
/-! DEFINITION. Program images read into their sections, tile instructions decoded, and bound references (05 R136-R163,
R166-R167). -/

namespace Sys2Proof.Machine

/-- `n` little-endian bytes at `o` of sparse cells. -/
def cU (c : SMap Byte) (o n : Nat) : Nat :=
  leNat ((List.range n).map fun i => SMap.get (fun _ => 0) c (o + i))

/-- A 32-bit word of sparse cells. -/
def cW (c : SMap Byte) (o : Nat) : Nat := cU c o 4

/-! ## Tile instructions (R150-R155) -/

/-- An operand reference (R152): KIND 0 none, 1 region, 2 APPEND (R227), 3 IMAGE (R256), 4 to 7 links north, east, south,
west. -/
structure ORef where
  kind : Nat
  index : Nat
  row0 : Nat
  col0 : Nat
deriving DecidableEq, Repr

/-- The reference in two words; none where KIND is reserved or a reserved field is nonzero. -/
def ORef.ofWords (lo hi : Nat) : Option ORef :=
  let v := lo + 2 ^ 32 * hi
  let r : ORef := { kind := bits v 63 60, index := bits v 59 50, row0 := bits v 47 24, col0 := bits v 23 0 }
  if bits v 49 48 ≠ 0 then none
  else if 1 ≤ r.kind ∧ r.kind ≤ 3 then some r
  else if r.kind = 0 ∨ (4 ≤ r.kind ∧ r.kind ≤ 7) then (if r.index = 0 then some r else none)
  else none

/-- The reference names a link; its direction 0 north, 1 east, 2 south, 3 west. -/
def ORef.link (r : ORef) : Option Nat := if 4 ≤ r.kind then some (r.kind - 4) else none

/-- An MMA (R151). -/
structure MmaI where
  sfmt : Nat
  afmt : Nat
  block : Nat
  init : Bool
  conv : Bool
  m : Nat
  n : Nat
  k : Nat
  cvt : Nat
  site : Nat
  a : ORef
  b : ORef
  bias : ORef
  add : ORef
  d : ORef
deriving DecidableEq, Repr

/-- An FWD or STAGE (R155). -/
structure MoveI where
  fmt : Nat
  block : Nat
  m : Nat
  e : Nat
  s : ORef
  d : ORef
deriving DecidableEq, Repr

/-- A tile instruction. -/
inductive TInstr where
  | nop
  | mma (i : MmaI)
  | fwd (i : MoveI)
  | stage (i : MoveI)
  | wait (sync value vref : Nat)
  | signal (sync add : Nat)
  | fin
deriving DecidableEq, Repr

/-- A bound spec's reserved bits are zero (R157). -/
def specOk (w : Nat) : Bool := bits w 30 17 == 0 && (bits w 31 31 == 0 || bits w 16 8 == 0)

/-- Words of an instruction not listed by its layout are zero. -/
def zeroBut (ws : List Nat) (used : List Nat) : Bool :=
  (List.range 16).all fun i => used.contains (4 * i) || ws.getD i 0 == 0

/-- The instruction in 16 words; none where the opcode is reserved, a reserved field is nonzero or an operand kind is reserved
(reason OPCODE of R164). -/
def TInstr.ofWords (ws : List Nat) : Option TInstr :=
  let w (o : Nat) := ws.getD (o / 4) 0
  let q (o : Nat) := w o + 2 ^ 32 * w (o + 4)
  let move : Option MoveI :=
    if bits (w 0) 19 16 ≠ 0 ∨ bits (w 0) 13 0 ≠ 0 ∨ !specOk (w 4) ∨ !specOk (w 0xC)
        ∨ !zeroBut ws [0, 4, 0xC, 0x20, 0x24, 0x38, 0x3C] then none
    else
      match ORef.ofWords (w 0x20) (w 0x24), ORef.ofWords (w 0x38) (w 0x3C) with
      | some s, some d => some { fmt := bits (w 0) 23 20, block := bits (w 0) 15 14, m := w 4, e := w 0xC, s := s, d := d }
      | _, _ => none
  match bits (w 0) 31 24 with
  | 0 => if bits (w 0) 23 0 = 0 ∧ zeroBut ws [0] then some .nop else none
  | 1 =>
    if bits (w 0) 11 0 ≠ 0 ∨ bits (w 0x10) 31 16 ≠ 0 ∨ bits (w 0x14) 31 24 ≠ 0 ∨ !specOk (w 4) ∨ !specOk (w 8)
        ∨ !specOk (w 0xC) then none
    else
      match ORef.ofWords (w 0x18) (w 0x1C), ORef.ofWords (w 0x20) (w 0x24), ORef.ofWords (w 0x28) (w 0x2C),
          ORef.ofWords (w 0x30) (w 0x34), ORef.ofWords (w 0x38) (w 0x3C) with
      | some a, some b, some bi, some ad, some d =>
        some (.mma { sfmt := bits (w 0) 23 20, afmt := bits (w 0) 19 16, block := bits (w 0) 15 14
                     init := bits (w 0) 13 13 == 1, conv := bits (w 0) 12 12 == 1, m := w 4, n := w 8, k := w 0xC
                     cvt := w 0x10, site := w 0x14, a := a, b := b, bias := bi, add := ad, d := d })
      | _, _, _, _, _ => none
  | 2 => move.map .fwd
  | 3 => move.map .stage
  | 4 =>
    if bits (w 0) 23 0 = 0 ∧ bits (w 4) 31 4 = 0 ∧ bits (w 0x10) 30 8 = 0 ∧ zeroBut ws [0, 4, 8, 0xC, 0x10] then
      some (.wait (w 4) (q 8) (w 0x10))
    else none
  | 5 =>
    if bits (w 0) 23 0 = 0 ∧ bits (w 4) 31 4 = 0 ∧ zeroBut ws [0, 4, 8, 0xC] then some (.signal (w 4) (q 8)) else none
  | 7 => if bits (w 0) 23 0 = 0 ∧ zeroBut ws [0] then some .fin else none
  | _ => none

/-- The instruction at an index of CODE. -/
def Image.instr (p : Image) (i : Nat) : Option TInstr := (p.code[i]?).bind TInstr.ofWords

/-- Instructions from index `i` to the first END, at most `fuel` of them, with their indices. -/
def Image.walk (p : Image) : Nat → Nat → List (Nat × TInstr)
  | 0, _ => []
  | fuel + 1, i =>
    match p.instr i with
    | none => []
    | some .fin => [(i, .fin)]
    | some x => (i, x) :: p.walk fuel (i + 1)

/-- START of logical tile `l` in an entry: none where it takes no part. -/
def PEntry.startOf (e : PEntry) (l : Nat) : Option Nat :=
  match e.start[l]? with
  | some v => if v = 0xFFFFFFFF then none else some v
  | none => none

/-- The logical tiles an entry starts, each with the CODE index it starts at. -/
def Image.starts (p : Image) (e : PEntry) : List (Nat × Nat) :=
  ((List.range p.ltiles.length).zip p.ltiles).filterMap fun x => (e.startOf x.1).map fun v => (x.1, x.2.codeFirst + v)

/-- The code one logical tile runs under an entry. -/
def Image.tileCode (p : Image) (e : PEntry) (l : Nat) : List (Nat × TInstr) :=
  match p.ltiles[l]?, e.startOf l with
  | some t, some v => p.walk (t.codeCount - v) (t.codeFirst + v)
  | _, _ => []

/-- All code that runs under an entry, tile by tile. -/
def Image.entryCode (p : Image) (e : PEntry) : List (Nat × Nat × TInstr) :=
  (p.starts e).flatMap fun x => (p.tileCode e x.1).map fun y => (x.1, y.1, y.2)

/-! ## Bounds (R157-R159) -/

/-- R158: the resolved value; none where the raw value is above RAW_MAX. -/
def Bound.resolve (b : Bound) (raw : Nat) : Option Nat :=
  if b.rawMax < raw then none
  else
    let v := if b.sub < raw then raw - b.sub else 0
    some (if b.clamp ≠ 0 then min v b.clamp else v)

/-- The planned maximum. -/
def Bound.planned (b : Bound) : Nat := (b.resolve b.rawMax).getD 0

/-- The BOUND entry a spec names. -/
def specRef (w : Nat) : Option Nat := if bits w 31 31 = 1 then some (bits w 7 0) else none

/-- A spec's extent at its planned maximum. -/
def Image.plannedOf (p : Image) (w : Nat) : Nat :=
  match specRef w with
  | none => bits w 16 0
  | some i => ((p.bounds[i]?).map Bound.planned).getD 0

/-- BOUND entries named by an instruction. -/
def TInstr.bounds : TInstr → List Nat
  | .mma i => [i.m, i.n, i.k].filterMap specRef
  | .fwd i => [i.m, i.e].filterMap specRef
  | .stage i => [i.m, i.e].filterMap specRef
  | .wait _ _ v => if bits v 31 31 = 1 then [bits v 7 0] else []
  | _ => []

/-- SYNC index an instruction uses. -/
def TInstr.sync : TInstr → Option Nat
  | .wait s _ _ => some s
  | .signal s _ => some s
  | _ => none

/-- A MEM_ISSUE bound is read at the instruction's own issue (R160). -/
def Bound.atIssue (b : Bound) : Bool := b.src == 3

/-! ## Reading an image (R136-R138) -/

/-- A section table entry (R137). -/
structure Section where
  typ : Nat
  skippable : Bool
  resv : Nat
  off : Nat
  bytes : Nat
  crc : Nat
deriving DecidableEq, Repr

/-- The section table. -/
def sectionsOf (c : SMap Byte) (n : Nat) : List Section :=
  (List.range n).map fun i =>
    let o := 0x40 + 16 * i
    { typ := cU c o 2, skippable := bits (cW c o) 16 16 == 1, resv := bits (cW c o) 31 17, off := cW c (o + 4)
      bytes := cW c (o + 8), crc := cW c (o + 12) }

/-- Entry sizes of the section types (R138); CONV entries are 128 B (R247) and
ENGINE entries 256 B (R180). -/
def entryBytes (typ : Nat) : Option Nat :=
  match typ with
  | 1 => some 16
  | 2 => some 16
  | 3 => some 64
  | 4 => some 32
  | 5 => some 264
  | 6 => some 64
  | 7 => some 16
  | 8 => some 24
  | 9 => some 128
  | 10 => some 256
  | _ => none

/-- The limits on entries of R138: least, most. -/
def entryLimits (typ : Nat) : Nat × Nat :=
  match typ with
  | 1 => (1, 64)
  | 2 => (1, 64)
  | 3 => (0, 1024)
  | 4 => (0, 256)
  | 5 => (1, 16)
  | 6 => (1, 1048576)
  | 7 => (0, 64)
  | 8 => (0, 4096)
  | 9 => (0, 1024)
  | _ => (0, 2 ^ 32)

/-- Entry offsets of a section type in an image. -/
def entryOffs (ss : List Section) (typ : Nat) : List Nat :=
  match ss.find? fun x => x.typ == typ, entryBytes typ with
  | some x, some n => (List.range (x.bytes / n)).map fun i => x.off + i * n
  | _, _ => []

/-- The image's sections read into lists. -/
def imageOf (c : SMap Byte) (ss : List Section) : Image :=
  let at_ (t : Nat) := entryOffs ss t
  let words (o n : Nat) := (List.range n).map fun i => cW c (o + 4 * i)
  { ltiles := (at_ 1).map fun o =>
      { group := bits (cW c o) 7 0, y := bits (cW c o) 11 8, x := bits (cW c o) 15 12, palBytes := cW c (o + 4)
        codeFirst := cW c (o + 8), codeCount := cW c (o + 12) }
    groups := (at_ 2).map fun o => { rows := bits (cW c o) 7 0, cols := bits (cW c o) 15 8, sharedBytes := cW c (o + 4) }
    regions := (at_ 3).map fun o =>
      let w := cW c o
      { rho := bits w 27 24, bind := bits w 23 20, layout := bits w 17 16, block := bits w 13 12, fmt := bits w 11 8
        kind := bits w 7 0, binding := bits (cW c (o + 4)) 31 16, owner := bits (cW c (o + 4)) 15 0
        elemBase := cU c (o + 8) 8, elemBytes := cU c (o + 0x10) 8, scaleBase := cU c (o + 0x18) 8
        scaleBytes := cU c (o + 0x20) 8, rowPitch := cW c (o + 0x28), scalePitch := cW c (o + 0x2C)
        rows := cW c (o + 0x30), rowElems := cW c (o + 0x34) }
    bounds := (at_ 4).map fun o =>
      { word := bits (cW c o) 15 8, src := bits (cW c o) 7 0, region := bits (cW c (o + 4)) 15 0, offset := cU c (o + 8) 8
        rawMax := cW c (o + 0x10), sub := cW c (o + 0x14), clamp := cW c (o + 0x18) }
    entries := (at_ 5).map fun o => { kind := bits (cW c o) 7 0, start := words (o + 8) 64 }
    code := (at_ 6).map fun o => words o 16
    bindings := (at_ 7).map fun o =>
      { index := bits (cW c o) 15 8, cls := bits (cW c o) 7 0, alignLog2 := bits (cW c (o + 4)) 7 0, minBytes := cU c (o + 8) 8 }
    palInit := (at_ 8).map fun o =>
      { region := bits (cW c o) 15 0, plane := bits (cW c o) 16 16, binding := bits (cW c (o + 4)) 7 0
        srcOffset := cU c (o + 8) 8, bytes := cU c (o + 0x10) 8 }
    conv := (at_ 9).map fun o => words o 32
    engine := (at_ 10).map fun o => words o 64 }

/-- The program a handle names (R169): slot in [5:0], generation in [15:6]. -/
def State.program (s : State) (h : Nat) : Option Program :=
  let x := s.pslot (h % 64)
  if x.gen = h / 64 % 1024 then x.prog else none

/-- The index of the first entry of a kind (R166). -/
def Image.firstEntry (p : Image) (kind : Nat) : Option Nat :=
  ((List.range p.entries.length).zip p.entries |>.find? fun e => e.2.kind == kind).map (·.1)

/-- The physical tile of logical tile `l`. -/
def Program.phys (p : Program) (l : Nat) : Nat := p.map.getD l 0xFF

/-- The logical tile's palette reservation: first its code, then its regions (R141). -/
def Program.palStart (p : Program) (l : Nat) : Nat :=
  p.palBase.getD l 0 + 64 * ((p.image.ltiles[l]?).map (·.codeCount)).getD 0

end Sys2Proof.Machine
end

