-- ==== Sys2Proof/Machine/Region.lean ====
section
/-! DEFINITION. How operands are read from and written to regions (03 R78-R81, 05 R145-R149, 08 R244-R246): rows, feed words and
image pixels, as element codes and scale codes. -/

namespace Sys2Proof.Machine

/-- Why a piece of work cannot go on: it must wait, it fails with a status, or the pool's bookkeeping failed (R590). -/
inductive Stop where
  | wait
  | err (status detail : Nat)
  | pool
deriving DecidableEq, Repr

/-- A computation that may stop. -/
abbrev E := Except Stop

/-- An access as such a computation. -/
def Res.e {α : Type} : Res α → E α
  | .ok a => .ok a
  | .wait => .error .wait
  | .err st => .error (.err st 0)

/-- An access to the pool's bookkeeping: every failure but waiting is a failure of the pool (R590). -/
def Res.poolE {α : Type} : Res α → E α
  | .ok a => .ok a
  | .wait => .error .wait
  | .err _ => .error .pool

/-- What a read at a place does to the granule table. -/
def State.touchLoc (s : State) (promote : Bool) (l : Loc) (n : Nat) : State :=
  match l with
  | .dva a => if n = 0 then s else s.touch promote a n
  | _ => s

/-- An access error of `n` bytes at a place. An ECC_UNCORRECTED carries the DVA it was met at, plus one, in place of a DETAIL, for its ECC record; the
record takes it out again (`State.noteEcc`). -/
def State.accErr {α : Type} (s : State) (l : Loc) (n st : Nat) : E α :=
  .error (.err st (match l with | .dva a => if st = 0x4002 then s.badAt a n + 1 else 0 | _ => 0))

/-- Read bytes at a place. -/
def State.rd (s : State) (l : Loc) (n : Nat) : E (State × List Byte) :=
  match s.bytesAt l n with
  | .ok bs => .ok (s.touchLoc true l n, bs)
  | .wait => .error .wait
  | .err st => s.accErr l n st

/-- Read a little-endian number at a place. -/
def State.rdNat (s : State) (l : Loc) (n : Nat) : E (State × Nat) := do
  let x ← s.rd l n
  return (x.1, leNat x.2)

/-- Write bytes at a place. -/
def State.wr (s : State) (l : Loc) (bs : List Byte) : E State :=
  match s.storeBytes l bs with
  | .ok s => .ok s
  | .wait => .error .wait
  | .err st => s.accErr l bs.length st

/-- Read `n` bytes as cells; reads of a window never promote (R349). -/
def State.rdCells (s : State) (promote : Bool) (l : Loc) (n : Nat) : E (State × SMap Byte) :=
  match s.cells l n with
  | .ok cs => .ok (s.touchLoc promote l n, cs)
  | .wait => .error .wait
  | .err st => s.accErr l n st

/-- Write `n` bytes given as cells. -/
def State.wrCells (s : State) (l : Loc) (n : Nat) (cs : SMap Byte) : E State :=
  match s.store l n cs with
  | .ok s => .ok s
  | .wait => .error .wait
  | .err st => s.accErr l n st

/-- Fold that may stop. -/
def foldE {α β : Type} (f : β → α → E β) : β → List α → E β
  | b, [] => .ok b
  | b, a :: as => (f b a).bind fun b' => foldE f b' as

/-! ## Element codes packed in bytes (R78) -/

/-- Element `i` of packed bytes. -/
def elemIn (f : EFmt) (bs : List Byte) (i : Nat) : Nat :=
  match f with
  | .s4 => (bs.getD (i / 2) 0).toNat / (if i % 2 = 0 then 1 else 16) % 16
  | _ => leNat ((bs.drop (i * (f.bits / 8))).take (f.bits / 8))

/-- `n` element codes from packed bytes. -/
def unpack (f : EFmt) (n : Nat) (bs : List Byte) : List Nat := (List.range n).map (elemIn f bs)

/-- Packed bytes of element codes. -/
def pack (f : EFmt) : List Nat → List Byte
  | [] => []
  | [c] => match f with | .s4 => [BitVec.ofNat 8 (c % 16)] | f => leBytes (f.bits / 8) c
  | c :: d :: cs =>
    match f with
    | .s4 => BitVec.ofNat 8 (c % 16 + 16 * (d % 16)) :: pack .s4 cs
    | f => leBytes (f.bits / 8) c ++ leBytes (f.bits / 8) d ++ pack f cs

/-- Bytes of `n` packed elements. -/
def packedBytes (f : EFmt) (n : Nat) : Nat := (n * f.bits + 7) / 8

/-- `n` rounded up to a multiple of `k`. -/
def roundUp (n k : Nat) : Nat := if k = 0 then n else (n + k - 1) / k * k

/-- BLOCK of a format whose 2-bit code is `b`: elements that share a scale; 1 where there is none. -/
def blockOf (f : EFmt) (b : Nat) : Nat := if f.scaled then (if b = 1 then 16 else 32) else 1

/-! ## Regions -/

/-- The region's element format. -/
def Region.ef (r : Region) : EFmt := (EFmt.ofCode r.fmt).getD .b32

/-- The region's BLOCK. -/
def Region.blk (r : Region) : Nat := blockOf r.ef r.block

/-- Where a region's plane starts: `binds` holds address and length of each BINDING entry's buffer. -/
def Program.planeLoc (p : Program) (binds : List (Nat × Nat)) (r : Region) (scale : Bool) : Loc :=
  let b := if scale then r.scaleBase else r.elemBase
  match r.kind with
  | 1 => .pal (p.phys r.owner) (p.palStart r.owner + b)
  | 2 => .shr (p.groupPanel.getD r.owner 0) (p.shrBase.getD r.owner 0 + b)
  | _ => .dva ((binds.getD r.binding (0, 0)).1 + b)

/-- What a unit needs to reach its program's regions. -/
structure Ctx where
  p : Program
  binds : List (Nat × Nat)
deriving DecidableEq, Repr

/-- Region `i` of the program. -/
def Ctx.region (x : Ctx) (i : Nat) : Option Region := x.p.image.regions[i]?

/-- An element row: codes, and scale codes of the blocks they lie in. -/
structure RowVals where
  elems : List Nat
  scales : List Nat
deriving DecidableEq, Repr

/-- `n` elements from `c0` of a row in ROWS layout (R147); `c0` starts a block. -/
def State.readRow (s : State) (x : Ctx) (r : Region) (row c0 n : Nat) : E (State × RowVals) := do
  let f := r.ef
  let e ← s.rd ((x.p.planeLoc x.binds r false).plus (row * r.rowPitch + c0 * f.bits / 8)) (packedBytes f n)
  if f.scaled then
    let nb := (n + r.blk - 1) / r.blk
    let sb := f.scaleBytes
    let c ← e.1.rd ((x.p.planeLoc x.binds r true).plus (row * r.scalePitch + c0 / r.blk * sb)) (nb * sb)
    return (c.1, { elems := unpack f n e.2, scales := (List.range nb).map fun i => leNat ((c.2.drop (i * sb)).take sb) })
  else return (e.1, { elems := unpack f n e.2, scales := [] })

/-- The feed word address and index of an element in FEED layout (R148), and its scale's byte. -/
def Region.feedAt (r : Region) (row c : Nat) : Nat × Nat × Nat :=
  let f := r.ef
  let w := 32 * r.rho * f.bits / 8
  let gtot := (r.rows + r.rho - 1) / r.rho
  let q := c / 256
  let i := c % 256
  let grp := row / r.rho
  let lane := row % r.rho
  let sw := r.rho * (256 / r.blk) * f.scaleBytes
  (((q * gtot + grp) * 8 + i / 32) * w, i % 32 * r.rho + lane, (q * gtot + grp) * sw + (i / r.blk * r.rho + lane) * f.scaleBytes)

/-- `n` elements from `c0` of a row in FEED layout; `c0` a multiple of 256. -/
def State.readFeed (s : State) (x : Ctx) (r : Region) (row c0 n : Nat) : E (State × RowVals) := do
  let f := r.ef
  let base := x.p.planeLoc x.binds r false
  let sbase := x.p.planeLoc x.binds r true
  let w := 32 * r.rho * f.bits / 8
  let words := (List.range ((n + 31) / 32)).map fun k => c0 + 32 * k
  let es ← foldE (fun (a : State × List Nat) c => do
    let at_ := r.feedAt row c
    let b ← a.1.rd (base.plus at_.1) w
    let k := min 32 (c0 + n - c)
    return (b.1, a.2 ++ (List.range k).map fun e => elemIn f b.2 (e * r.rho + row % r.rho))) (s, []) words
  if f.scaled then
    let blocks := (List.range ((n + r.blk - 1) / r.blk)).map fun k => c0 + r.blk * k
    let ss ← foldE (fun (a : State × List Nat) c => do
      let v ← a.1.rdNat (sbase.plus (r.feedAt row c).2.2) f.scaleBytes
      return (v.1, a.2 ++ [v.2])) (es.1, []) blocks
    return (ss.1, { elems := es.2, scales := ss.2 })
  else return (es.1, { elems := es.2, scales := [] })

/-- A row in either layout. -/
def State.readAny (s : State) (x : Ctx) (r : Region) (row c0 n : Nat) : E (State × RowVals) :=
  if r.layout = 1 then s.readFeed x r row c0 n else s.readRow x r row c0 n

/-- The exact values of a row (R81). -/
def rowValues (f : EFmt) (blk : Nat) (v : RowVals) : List Val :=
  ((List.range v.elems.length).zip v.elems).map fun e => f.value e.2 (v.scales.getD (e.1 / blk) 0)

/-- `n` decoded values of a row in ROWS layout. -/
def State.readVals (s : State) (x : Ctx) (r : Region) (row c0 n : Nat) : E (State × List Val) := do
  let v ← s.readRow x r row c0 n
  return (v.1, rowValues r.ef r.blk v.2)

/-- Write element and scale codes of a row in ROWS layout from `c0`; the last block is written whole, with zero codes past the
extent (R79). -/
def State.writeRow (s : State) (x : Ctx) (r : Region) (row c0 : Nat) (v : RowVals) : E State := do
  let f := r.ef
  let es := v.elems ++ List.replicate (roundUp v.elems.length r.blk - v.elems.length) 0
  let s ← s.wr ((x.p.planeLoc x.binds r false).plus (row * r.rowPitch + c0 * f.bits / 8)) (pack f es)
  if f.scaled then
    s.wr ((x.p.planeLoc x.binds r true).plus (row * r.scalePitch + c0 / r.blk * f.scaleBytes))
      (v.scales.flatMap fun c => leBytes f.scaleBytes c)
  else return s

/-- Values of a row converted under a CVT word and written; the modes are per element. Answers the saturated count too. -/
def State.writeVals (s : State) (x : Ctx) (r : Region) (c : Cvt) (modes : List RMode) (row c0 : Nat) (vs : List Val) :
    E (State × Nat) := do
  let k := convRow c vs modes
  let s ← s.writeRow x r row c0 { elems := k.1, scales := k.2.1 }
  return (s, k.2.2)

/-- The conversion word of a program, already checked at load; binary32 where it would be refused. -/
def cvtOf (w : Nat) : Cvt :=
  (Cvt.ofWord w).getD { fmt := .b32, sat := false, ceil := false, block := 32, rnd := 1 }

/-- Round-to-nearest-even for every element. -/
def allRne (vs : List Val) : List RMode := vs.map fun _ => .rne

/-- The mode of every element under a CVT word that may not be stochastic (R86, R87): RND toward zero or to nearest even. -/
def Cvt.modes (c : Cvt) (vs : List Val) : List RMode := vs.map fun _ => c.mode .other false 0

/-- The scale code of 1 in a format. -/
def EFmt.oneScale : EFmt → Nat
  | .i8 => 0x3C00
  | _ => 0x7F

/-- Codes the spec leaves open. -/
def freeCodes (ctr n bits : Nat) : List Nat := (List.range n).map fun i => (Config.freeWord (ctr + i)).toNat % 2 ^ bits

/-- The first `n` elements of a row take free codes (log entry 4). -/
def State.scribbleRow (s : State) (x : Ctx) (r : Region) (row n : Nat) : State :=
  let v : RowVals := { elems := freeCodes s.freeCtr n r.ef.bits
                       scales := if r.ef.scaled then freeCodes (s.freeCtr + n) ((n + r.blk - 1) / r.blk) (8 * r.ef.scaleBytes) else [] }
  match s.writeRow x r row 0 v with
  | .ok s' => { s' with freeCtr := s.freeCtr + 2 * n }
  | .error _ => s

/-! ## Images (R244-R246) -/

/-- An image tensor's geometry: region, channels, height, width. -/
structure Img where
  r : Region
  c : Nat
  h : Nat
  w : Nat
deriving DecidableEq, Repr

/-- Channels per group: 16 in C16, 32 in C32. -/
def Img.cb (i : Img) : Nat := if i.r.layout = 3 then 32 else 16

/-- Channel groups. -/
def Img.groups (i : Img) : Nat := (i.c + i.cb - 1) / i.cb

/-- The pixel index of R244. -/
def Img.pix (i : Img) (b g y x : Nat) : Nat := ((b * i.groups + g) * i.h + y) * i.w + x

/-- The channels of one group of a pixel: codes and scale codes; pad channels read the zero element, and a block of pad channels alone
reads under scale 1 (R246). -/
def State.readGroup (s : State) (x : Ctx) (i : Img) (b g y px : Nat) : E (State × RowVals) := do
  let f := i.r.ef
  let p := i.pix b g y px
  let e ← s.rd ((x.p.planeLoc x.binds i.r false).plus (p * i.cb * f.bits / 8)) (packedBytes f i.cb)
  let real := min i.cb (i.c - g * i.cb)
  let es := (unpack f i.cb e.2).take real ++ List.replicate (i.cb - real) 0
  if f.scaled then
    let nb := i.cb / i.r.blk
    let c ← e.1.rd ((x.p.planeLoc x.binds i.r true).plus (p * nb * f.scaleBytes)) (nb * f.scaleBytes)
    return (c.1, { elems := es, scales := (List.range nb).map fun k =>
      if real ≤ k * i.r.blk then f.oneScale else leNat ((c.2.drop (k * f.scaleBytes)).take f.scaleBytes) })
  else return (e.1, { elems := es, scales := [] })

/-- Write one group of a pixel: `vs` its real channels' codes and scales; pad channels take the zero code. -/
def State.writeGroup (s : State) (x : Ctx) (i : Img) (b g y px : Nat) (v : RowVals) : E State := do
  let f := i.r.ef
  let p := i.pix b g y px
  let es := v.elems ++ List.replicate (i.cb - v.elems.length) 0
  let s ← s.wr ((x.p.planeLoc x.binds i.r false).plus (p * i.cb * f.bits / 8)) (pack f es)
  if f.scaled then
    let nb := i.cb / i.r.blk
    let sc := v.scales ++ List.replicate (nb - v.scales.length) f.oneScale
    s.wr ((x.p.planeLoc x.binds i.r true).plus (p * nb * f.scaleBytes)) (sc.flatMap fun c => leBytes f.scaleBytes c)
  else return s

/-- All channels of a pixel as exact values. -/
def State.readPixel (s : State) (x : Ctx) (i : Img) (b y px : Nat) : E (State × List Val) := do
  let r ← foldE (fun (a : State × List Val) g => do
    let v ← a.1.readGroup x i b g y px
    return (v.1, a.2 ++ rowValues i.r.ef i.r.blk v.2)) (s, []) (List.range i.groups)
  return (r.1, r.2.take i.c)

/-- All channels of a pixel converted and written; every group's pad channels take the zero code (R246). -/
def State.writePixel (s : State) (x : Ctx) (i : Img) (c : Cvt) (b y px : Nat) (vs : List Val) : E State :=
  foldE (fun s g => do
    let part := (vs.drop (g * i.cb)).take i.cb
    let k := convRow c part (c.modes part)
    s.writeGroup x i b g y px { elems := k.1, scales := k.2.1 }) s (List.range i.groups)

end Sys2Proof.Machine
end

