-- ==== Sys2Proof/Machine/Entries.lean ====
section
/-! DEFINITION. Engine and convolution descriptors read into fields (06 R180, 07 R214, R217-R218, 08 R247, R249-R251, R265). -/

namespace Sys2Proof.Machine

/-- 32-bit word of an entry at byte offset `o`. -/
def eW (ws : List Nat) (o : Nat) : Nat := ws.getD (o / 4) 0
/-- 64-bit field of an entry. -/
def eQ (ws : List Nat) (o : Nat) : Nat := eW ws o + 2 ^ 32 * eW ws (o + 4)
/-- Bits of a word of an entry. -/
def eF (ws : List Nat) (o hi lo : Nat) : Nat := bits (eW ws o) hi lo

/-- The fields every engine entry and CONV descriptor has in the same place (R180). -/
structure EHead where
  mask : Nat
  sigEn : Bool
  sigSync : Nat
  waitEn : Bool
  waitSync : Nat
  waitValue : Nat
  sigAdd : Nat
deriving DecidableEq, Repr

/-- The head of an entry. -/
def headOf (ws : List Nat) : EHead :=
  { mask := eF ws 4 15 0, sigEn := eF ws 8 12 12 == 1, sigSync := eF ws 8 11 8, waitEn := eF ws 8 4 4 == 1
    waitSync := eF ws 8 3 0, waitValue := eQ ws 0x10, sigAdd := eQ ws 0x18 }

/-- KIND of an ENGINE entry (R180). -/
def eKind (ws : List Nat) : Nat := eF ws 0 7 0

/-- An operand reference of an entry; the NONE reference where it is malformed (the loader refuses that). -/
def eRef (ws : List Nat) (o : Nat) : ORef :=
  (ORef.ofWords (eW ws o) (eW ws (o + 4))).getD { kind := 0, index := 0, row0 := 0, col0 := 0 }

/-- A glaze entry (R180). -/
structure GlazeE where
  inFmt : Nat
  tail : Nat
  resetEn : Bool
  elementShape : Bool
  logForm : Bool
  comp : Bool
  l : Nat
  op : Nat
  layer : Nat
  d : Nat
  h : Nat
  n : Nat
  recOff : Nat
  maxRows : Nat
  yCvt : Nat
  sCvt : Nat
  site : Nat
  x : ORef
  a : ORef
  b : ORef
  c : ORef
  reset : ORef
  y : ORef
  tailR : ORef
  g : ORef
  m : ORef
  bw : ORef
  yi : ORef
  u : ORef
deriving DecidableEq, Repr

/-- The glaze entry in 64 words. -/
def GlazeE.ofWords (ws : List Nat) : GlazeE :=
  let r (i : Nat) := eRef ws (0x40 + 8 * i)
  { inFmt := eF ws 0 31 28, tail := eF ws 0 25 24, resetEn := eF ws 0 23 23 == 1, elementShape := eF ws 0 22 22 == 1
    logForm := eF ws 0 21 21 == 1, comp := eF ws 0 20 20 == 1, l := 2 ^ eF ws 0 19 16, op := eF ws 0 15 8
    layer := eF ws 0xC 15 0, d := eF ws 0x20 13 0, h := eF ws 0x24 24 16, n := eF ws 0x24 8 0, recOff := eW ws 0x28
    maxRows := eW ws 0x2C, yCvt := eF ws 0x30 31 16, sCvt := eF ws 0x30 15 0, site := eF ws 0x34 23 0
    x := r 0, a := r 1, b := r 2, c := r 3, reset := r 4, y := r 5, tailR := r 6, g := r 7, m := r 8, bw := r 9, yi := r 10
    u := r 11 }

/-- Record length of a SCAN or CARRY entry (R178). -/
def GlazeE.recBytes (g : GlazeE) : Nat :=
  roundUp (64 + 2 * g.d * g.n * (if g.comp then 2 else 1) + 2 * g.d * g.tail) 1024

/-- The entry keeps a record: SCAN or CARRY. -/
def GlazeE.keeps (g : GlazeE) : Bool := g.op == 1 || g.op == 3

/-- S_BYTES of a program (R179). -/
def Image.sBytes (p : Image) : Nat :=
  roundUp ((p.engine.filter fun w => eKind w == 1).foldl (fun m w =>
    let g := GlazeE.ofWords w
    if g.keeps then max m (g.recOff + g.recBytes) else m) 0) 4096

/-- An attention entry (R214). -/
structure AttE where
  fmt : Nat
  block : Nat
  ring : Bool
  layer : Nat
  dh : Nat
  group : Nat
  kv : Nat
  fallback : Nat
  window : Nat
  maxRows : Nat
  yCvt : Nat
  scale : Nat
  pc : Nat
  pr : Nat
  pf : Nat
  scrOff : Nat
  scrBytes : Nat
  q : ORef
  freq : ORef
  y : ORef
  tiles : Nat
deriving DecidableEq, Repr

/-- The attention entry in 64 words. -/
def AttE.ofWords (ws : List Nat) : AttE :=
  { fmt := eF ws 0 31 28, block := eF ws 0 27 26, ring := eF ws 0 24 24 == 1, layer := eF ws 0xC 15 0
    dh := eF ws 0x20 24 16, group := eF ws 0x20 15 8, kv := eF ws 0x20 7 0, fallback := eF ws 0x24 31 16
    window := eF ws 0x24 15 0, maxRows := eW ws 0x28, yCvt := eF ws 0x2C 31 16, scale := eW ws 0x30
    pc := eF ws 0x34 23 16, pr := eF ws 0x34 15 8, pf := eF ws 0x34 7 0, scrOff := eW ws 0x38, scrBytes := eW ws 0x3C
    q := eRef ws 0x40, freq := eRef ws 0x48, y := eRef ws 0x50, tiles := eQ ws 0x58 }

/-- CACHE_FMT's element format. -/
def AttE.ef (a : AttE) : EFmt := (EFmt.ofCode a.fmt).getD .b16
/-- Bytes of a cached element. -/
def AttE.eb (a : AttE) : Nat := a.ef.bits / 8
/-- BLOCK of the cached format; 1 where unscaled. -/
def AttE.blk (a : AttE) : Nat := blockOf a.ef a.block
/-- Query heads. -/
def AttE.hq (a : AttE) : Nat := a.kv * a.group
/-- Page bytes of the layer (R214). -/
def AttE.pageBytes (a : AttE) : Nat := 64 * a.kv * a.dh * 2 * a.eb

/-- The entry as the load's RING_FALLBACK flag makes it run (R218). -/
def AttE.under (a : AttE) (ringFallback : Bool) : AttE :=
  if ringFallback && !a.ring && a.fallback != 0 then { a with ring := true, window := a.fallback } else a

/-- An attention layer as a scene's directory lays it out (R212, R217): engine index, entry, ring slots R, first slot, rank. -/
structure AttLayer where
  idx : Nat
  a : AttE
  r : Nat
  first : Nat
  rank : Nat
deriving DecidableEq, Repr

/-- Ring slot count (R217). -/
def ringSlots (wf f : Nat) : Nat :=
  let w := wf * f
  if f % 64 = 0 then w / 64 else (w + 63 + 63) / 64

/-- Attention entries that run under an ENTRY entry, in section order. -/
def Image.attUnder (p : Image) (entry : Nat) : List (Nat × AttE) :=
  ((List.range p.engine.length).zip p.engine).filterMap fun x =>
    if eKind x.2 = 2 ∧ bits (headOf x.2).mask entry entry = 1 then some (x.1, AttE.ofWords x.2) else none

/-- Lay the attention layers out: ring layers on consecutive slots, linear layers by rank. -/
def layLayers (f : Nat) : Nat → Nat → List (Nat × AttE) → List AttLayer
  | _, _, [] => []
  | first, rank, (i, a) :: as =>
    if a.ring then
      let r := ringSlots a.window f
      { idx := i, a := a, r := r, first := first, rank := 0 } :: layLayers f (first + r) rank as
    else { idx := i, a := a, r := 0, first := 0, rank := rank } :: layLayers f first (rank + 1) as

/-- The layers of a program's first STEP entry for a scene of `f` positions a frame. -/
def Program.layers (p : Program) (f : Nat) : List AttLayer :=
  match p.image.firstEntry 1 with
  | none => []
  | some e => layLayers f 0 0 ((p.image.attUnder e).map fun x => (x.1, x.2.under (bits p.flags 1 1 == 1)))

/-- Total ring slots. -/
def ringTotal (ls : List AttLayer) : Nat := ls.foldl (fun n l => n + l.r) 0
/-- Linear layers. -/
def linCount (ls : List AttLayer) : Nat := (ls.filter fun l => !l.a.ring).length

/-! ## Convolution descriptors -/

/-- A CONV descriptor (R247). -/
structure ConvD where
  padMode : Nat
  op : Nat
  outReg : Nat
  inReg : Nat
  sw : Nat
  sh : Nat
  kw : Nat
  kh : Nat
  factor : Nat
  dw : Nat
  dh : Nat
  pb : Nat
  pt : Nat
  pr : Nat
  pl : Nat
  padElem : Nat
  padScale : Nat
  n : Nat
  h : Nat
  w : Nat
  cin : Nat
  cout : Nat
  ck : Nat
  cvt : Nat
  biasReg : Nat
  ox0 : Nat
  oy0 : Nat
  oww : Nat
  owh : Nat
  ix0 : Nat
  iy0 : Nat
  iww : Nat
  iwh : Nat
deriving DecidableEq, Repr

/-- The descriptor in 32 words. -/
def ConvD.ofWords (ws : List Nat) : ConvD :=
  { padMode := eF ws 0 11 8, op := eF ws 0 7 0, outReg := eF ws 0xC 31 16, inReg := eF ws 0xC 15 0
    sw := eF ws 0x20 31 24, sh := eF ws 0x20 23 16, kw := eF ws 0x20 15 8, kh := eF ws 0x20 7 0
    factor := eF ws 0x24 23 16, dw := eF ws 0x24 15 8, dh := eF ws 0x24 7 0, pb := eF ws 0x28 31 16, pt := eF ws 0x28 15 0
    pr := eF ws 0x2C 31 16, pl := eF ws 0x2C 15 0, padElem := eF ws 0x30 15 0, padScale := eF ws 0x34 15 0
    n := eW ws 0x38, h := eW ws 0x3C, w := eW ws 0x40, cin := eF ws 0x44 14 0, cout := eF ws 0x48 31 16, ck := eF ws 0x48 15 0
    cvt := eF ws 0x4C 15 0, biasReg := eF ws 0x50 15 0, ox0 := eF ws 0x58 31 16, oy0 := eF ws 0x58 15 0
    oww := eF ws 0x5C 31 16, owh := eF ws 0x5C 15 0, ix0 := eF ws 0x60 31 16, iy0 := eF ws 0x60 15 0
    iww := eF ws 0x64 31 16, iwh := eF ws 0x64 15 0 }

/-- Output extent of one axis (R249, R251). -/
def outExtent (mode inn lo hi k dil st : Nat) : Nat :=
  if mode = 2 ∧ inn = 0 then 0
  else
    let v := (((inn + lo + hi : Nat) : Int) - (dil : Int) * ((k : Int) - 1) - 1).fdiv (max 1 st : Nat) + 1
    v.toNat

/-- Output height of a descriptor at input height `h`. -/
def ConvD.outH (c : ConvD) (h : Nat) : Nat := outExtent c.padMode h c.pt c.pb c.kh c.dh c.sh
/-- Output width at input width `w`. -/
def ConvD.outW (c : ConvD) (w : Nat) : Nat := outExtent c.padMode w c.pl c.pr c.kw c.dw c.sw

/-- Full output height at input height `h`: of a convolution (R249), of a regrouping (R261), of a change of layout (R262). -/
def ConvD.fullH (c : ConvD) (h : Nat) : Nat :=
  if c.op = 4 then (h + max 1 c.factor - 1) / max 1 c.factor else if c.op = 5 then h * c.factor else if c.op = 6 then h else c.outH h
/-- Full output width at input width `w`. -/
def ConvD.fullW (c : ConvD) (w : Nat) : Nat :=
  if c.op = 4 then (w + max 1 c.factor - 1) / max 1 c.factor else if c.op = 5 then w * c.factor else if c.op = 6 then w else c.outW w

/-- Where a tap coordinate reads on one axis (R250): the pixel, or none for padding. -/
def tapAt (mode inn : Nat) (i : Int) : Option Nat :=
  if 0 ≤ i ∧ i < inn then some i.toNat
  else
    match mode with
    | 2 => if inn = 0 then none else some (min (max i 0) ((inn : Int) - 1)).toNat
    | 3 =>
      let r := if i < 0 then -i else 2 * ((inn : Int) - 1) - i
      if 0 ≤ r ∧ r < inn then some r.toNat else none
    | _ => none

/-- A crop-and-resize entry (R265). -/
structure CropE where
  clamp : Bool
  nearest : Bool
  outW : Nat
  outH : Nat
  c : Nat
  n : Nat
  h : Nat
  w : Nat
  boxes : Nat
  extrap : Nat
  cvt : Nat
  inn : ORef
  out : ORef
  box : ORef
deriving DecidableEq, Repr

/-- The crop-and-resize entry in 64 words. -/
def CropE.ofWords (ws : List Nat) : CropE :=
  { clamp := eF ws 0 9 9 == 1, nearest := eF ws 0 8 8 == 1, outW := eF ws 0x20 31 16, outH := eF ws 0x20 15 0
    c := eF ws 0x24 14 0, n := eW ws 0x28, h := eW ws 0x2C, w := eW ws 0x30, boxes := eW ws 0x34, extrap := eW ws 0x38
    cvt := eF ws 0x3C 15 0, inn := eRef ws 0x40, out := eRef ws 0x48, box := eRef ws 0x50 }

/-- Resource kind (R415) of an engine entry. -/
def engineKind (ws : List Nat) : Nat :=
  match eKind ws with
  | 1 => 1
  | 2 => 2
  | 3 => 4
  | _ => 5

/-- The engine entries a command under ENTRY entry `e` issues: CONV engine ops, then glaze, attention and crop-and-resize entries
(R186, R269). -/
def Image.issued (p : Image) (e : Nat) : List (Bool × Nat × List Nat) :=
  (((List.range p.conv.length).zip p.conv).filterMap fun x =>
    if 2 ≤ eF x.2 0 7 0 ∧ bits (headOf x.2).mask e e = 1 then some (true, x.1, x.2) else none) ++
  (((List.range p.engine.length).zip p.engine).filterMap fun x =>
    if eKind x.2 ≤ 3 ∧ bits (headOf x.2).mask e e = 1 then some (false, x.1, x.2) else none)

/-- CONV descriptors the tiles' code of an entry names: by a CONV BREF (R253) or an IMAGE DREF (R256). -/
def Image.descsOf (p : Image) (e : Nat) : List Nat :=
  match p.entries[e]? with
  | none => []
  | some en => (p.entryCode en).flatMap fun x =>
      match x.2.2 with
      | .mma i => (if i.conv then [i.b.index] else []) ++ (if i.d.kind = 3 then [i.d.index] else [])
      | _ => []

/-- Every BOUND entry an entry's code, descriptors and engine entries reference (R159). -/
def Image.boundsOf (p : Image) (e : Nat) : List Nat :=
  let code := match p.entries[e]? with
    | none => []
    | some en => (p.entryCode en).flatMap fun x => x.2.2.bounds
  let descs := ((p.issued e).filterMap fun x => if x.1 then some x.2.2 else none) ++ (p.descsOf e).filterMap fun i => p.conv[i]?
  let crops := (p.issued e).filterMap fun x => if !x.1 && eKind x.2.2 == 3 then some x.2.2 else none
  code ++ (descs.flatMap fun w => [eW w 0x38, eW w 0x3C, eW w 0x40].filterMap specRef) ++
    (crops.flatMap fun w => [eW w 0x28, eW w 0x2C, eW w 0x30, eW w 0x34].filterMap specRef)

/-- SYNC_COUNT an ENTRY entry needs: one more than the highest SYNC index its tiles' code and its engine entries use (R390). -/
def Image.syncNeed (p : Image) (e : Nat) : Nat :=
  match p.entries[e]? with
  | none => 0
  | some en =>
    let a := (p.entryCode en).foldl (fun n x => match x.2.2.sync with | some i => max n (i + 1) | none => n) 0
    (p.issued e).foldl (fun n x =>
      let h := headOf x.2.2
      let n := if h.waitEn then max n (h.waitSync + 1) else n
      if h.sigEn then max n (h.sigSync + 1) else n) a

end Sys2Proof.Machine
end

