-- ==== Sys2Proof/Machine/Pool.lean ====
section
/-! DEFINITION. The page pool (07 R207-R213, R229-R236, R243, R590): the page table and the directories as they lie in the cache
area, reservations, commits and dropped references. -/

namespace Sys2Proof.Machine

/-- 2 MiB. -/
def mib2 : Nat := 2097152

/-- Start of the page table. -/
def PoolCfg.pt (c : PoolCfg) : Nat := c.base
/-- Start of the directories (R207). -/
def PoolCfg.dirs (c : PoolCfg) : Nat := c.base + roundUp (8 * c.pages) mib2
/-- Start of the scale area. -/
def PoolCfg.scales (c : PoolCfg) : Nat := c.dirs + roundUp (16384 * 2 ^ c.dirLog2) mib2
/-- Bytes of a page. -/
def PoolCfg.pageSize (c : PoolCfg) : Nat := 2 ^ c.pageLog2
/-- Bytes of a scale slot. -/
def PoolCfg.slotSize (c : PoolCfg) : Nat := c.pageSize / (if c.scale16 then 16 else 32)
/-- Start of the pages. -/
def PoolCfg.data (c : PoolCfg) : Nat := c.scales + roundUp (c.pages * c.slotSize) mib2
/-- End of the cache area. -/
def PoolCfg.last (c : PoolCfg) : Nat := c.data + c.pages * c.pageSize
/-- Directory of stream `s`. -/
def PoolCfg.dir (c : PoolCfg) (s : Nat) : Nat := c.dirs + s * 2 ^ c.dirLog2
/-- Slots of a directory (R213). -/
def PoolCfg.slots (c : PoolCfg) : Nat := (2 ^ c.dirLog2 - 0x440) / 4

/-- The page table or a directory holds the address: the pool's bookkeeping (R207). -/
def PoolCfg.trusted (c : PoolCfg) (a : Nat) : Bool := decide (c.base ≤ a) && decide (a < c.scales)

/-- Where page `pg`'s data and its scale slot start. -/
def PoolCfg.pageLoc (c : PoolCfg) (pg : Nat) : Nat × Nat := (c.data + pg * c.pageSize, c.scales + pg * c.slotSize)

/-- Offsets of dimension `d` of head `h` at position `i` of a page (R228): key or value element, key or value scale. -/
def AttE.keyOff (a : AttE) (h i d : Nat) : Nat × Nat :=
  (((h * 64 + i) * a.dh + d) * a.eb, (h * 64 + i) * a.dh / a.blk + d / a.blk)

/-- Offsets of a value. -/
def AttE.valOff (a : AttE) (h i d : Nat) : Nat × Nat :=
  (a.kv * 64 * a.dh * a.eb + ((h * a.dh + d) * 64 + i) * a.eb, a.kv * 64 * a.dh / a.blk + (h * a.dh + d) * 64 / a.blk + i / a.blk)

/-- The pool is active (R240). -/
def State.poolActive (s : State) : Bool := s.fld 0x148804 8 8 == 1

/-- NULL page identifier (R208). -/
def nullPage : Nat := 0xFFFFFF
/-- ROOT_PAGE of stream `s` (R208). -/
def rootOf (s : Nat) : Nat := 0xFF0000 + s

/-- A page table entry (R209). `st`: 0 FREE, 1 RESERVED, 2 LIVE. -/
structure PageEnt where
  st : Nat
  owned : Bool
  owner : Nat
  count : Nat
deriving DecidableEq, Repr

/-- The entry in 64 bits. -/
def PageEnt.ofNat (v : Nat) : PageEnt :=
  { st := bits v 33 32, owned := bits v 30 30 == 1, owner := bits v 29 16, count := bits v 15 0 }

/-- The 64 bits of an entry. -/
def PageEnt.toNat (p : PageEnt) : Nat :=
  2 ^ 32 * p.st + (if p.owned then 2 ^ 30 else 0) + p.owner % 16384 * 2 ^ 16 + p.count % 65536

/-- Cells of the pool's bookkeeping: every failure but waiting is a failure of the pool (R590). The read is an access as any other (R338). -/
def State.poolCells (s : State) (a n : Nat) : E (State × SMap Byte) :=
  match s.dvaCells a n with
  | .ok cs => .ok (s.touch true a n, cs)
  | .wait => .error .wait
  | .err _ => .error .pool

/-- The same as bytes. -/
def State.rdPool (s : State) (a n : Nat) : E (State × List Byte) := do
  let r ← s.poolCells a n
  return (r.1, bytesOf n r.2)

/-- A page table entry as it stands. -/
def State.pageNow (s : State) (p : Nat) : E PageEnt :=
  ((s.natAt (.dva (s.pool.pt + 8 * p)) 8).bind fun v => .ok (PageEnt.ofNat v)).poolE

/-- Read a page table entry. -/
def State.page (s : State) (p : Nat) : E (State × PageEnt) := do
  let r ← s.rdPool (s.pool.pt + 8 * p) 8
  return (r.1, PageEnt.ofNat (leNat r.2))

/-- Write a page table entry. -/
def State.setPage (s : State) (p : Nat) (x : PageEnt) : E State :=
  (s.storeBytes (.dva (s.pool.pt + 8 * p)) (leBytes 8 x.toNat)).poolE

/-- Read a directory slot. -/
def State.dirSlot (s : State) (strm i : Nat) : E (State × Nat) := do
  let r ← s.rdPool (s.pool.dir strm + 0x440 + 4 * i) 4
  return (r.1, leNat r.2 % 2 ^ 24)

/-- Write a directory slot. -/
def State.setDirSlot (s : State) (strm i v : Nat) : E State :=
  (s.storeBytes (.dva (s.pool.dir strm + 0x440 + 4 * i)) (leBytes 4 v)).poolE

/-- Write a directory's POSITION. -/
def State.setDirPos (s : State) (strm p : Nat) : E State :=
  (s.storeBytes (.dva (s.pool.dir strm)) (leBytes 8 p)).poolE

/-- FREE pages now (R242). -/
def State.poolFree (s : State) : Nat := s.fld 0x148818 23 0

/-- FREE changed; LOW follows it down. -/
def State.setFree (s : State) (n : Nat) : State :=
  let s := s.setFld 0x148818 23 0 n
  if n < s.fld 0x14881C 23 0 then s.setFld 0x14881C 23 0 n else s

/-- The lowest FREE page from `p` on, at most `fuel` pages: which FREE page a reservation takes is log entry 22. -/
def State.findFree (s : State) : Nat → Nat → E (Option Nat)
  | 0, _ => .ok none
  | fuel + 1, p =>
    match s.pageNow p with
    | .error e => .error e
    | .ok x => if x.st = 0 then .ok (some p) else s.findFree fuel (p + 1)

/-- Take one FREE page for a stream: RESERVED, COUNT 0 (R210, R211). -/
def State.takePage (s : State) (owner : Nat) : E (State × Nat) := do
  match (← s.findFree s.pool.pages 0) with
  | none => throw .pool
  | some p =>
    let s ← s.setPage p { st := 1, owned := false, owner := owner, count := 0 }
    return (s.setFree (s.poolFree - 1), p)

/-- A page goes back to FREE. -/
def State.freePage (s : State) (p : Nat) : E State := do
  let s ← s.setPage p { st := 0, owned := false, owner := 0, count := 0 }
  return s.setFree (s.poolFree + 1)

/-- PAGES_OWN of a stream changed by a signed amount. -/
def State.addOwn (s : State) (i : Nat) (d : Int) : State :=
  let x := s.strm i
  s.setStrm i { x with pagesOwn := ((x.pagesOwn : Int) + d).toNat }

/-- A kept reserved page goes LIVE with COUNT 1, owned by its stream (R231). -/
def State.pageLive (s : State) (p : Nat) : E State := do
  let r ← s.page p
  let s ← r.1.setPage p { r.2 with st := 2, owned := true, count := 1 }
  return s.addOwn r.2.owner 1

/-- A directory of stream `strm` drops page `p` (R210, R211, R236). -/
def State.dropRef (s : State) (strm p : Nat) : E State := do
  if p = nullPage then return s
  let r ← s.page p
  let s := r.1
  let x := r.2
  let mine := x.owned && x.owner == strm
  let s := if mine then s.addOwn strm (-1) else s
  if x.count ≤ 1 then s.freePage p
  else s.setPage p { x with count := x.count - 1, owned := x.owned && !mine }

/-- Positions of a page: 64 (R213). -/
def pageSpan : Nat := 64

/-- Slot of page index `j` of a layer (R213). -/
def AttLayer.slot (l : AttLayer) (ls : List AttLayer) (j : Nat) : Nat :=
  if l.a.ring then l.first + j % max 1 l.r else ringTotal ls + j * linCount ls + l.rank

/-- The layer that owns a directory slot (R213). -/
def layerOfSlot (ls : List AttLayer) (i : Nat) : Option AttLayer :=
  ls.find? fun l =>
    if l.a.ring then decide (l.first ≤ i) && decide (i < l.first + l.r)
    else decide (ringTotal ls ≤ i) && (i - ringTotal ls) % max 1 (linCount ls) == l.rank

/-- Bytes of a page's scale slot that a layer uses (R228). -/
def AttE.scaleBytes (a : AttE) : Nat := if a.ef.scaled then 2 * a.kv * 64 * a.dh / a.blk else 0

/-- The runs of bytes that hold the first `n` positions of a page: offset and length in the page, and in the scale slot (R228, R229). -/
def AttE.runsOf (a : AttE) (n : Nat) : List ((Nat × Nat) × (Nat × Nat)) :=
  let cut (o : Nat × Nat) (e : Nat) : (Nat × Nat) × (Nat × Nat) :=
    ((o.1, e * a.eb), (o.2, if a.ef.scaled then (e + a.blk - 1) / a.blk else 0))
  (List.range a.kv).flatMap fun h =>
    cut (a.keyOff h 0 0) (n * a.dh) :: (List.range a.dh).map fun d => cut (a.valOff h 0 d) n

/-- Read `n` bytes of a page or a scale slot. -/
def State.rdData (s : State) (a n : Nat) : E (State × List Byte) :=
  match s.dvaCells a n with
  | .ok cs => .ok (s.touch true a n, bytesOf n cs)
  | .wait => .error .wait
  | .err st => .error (.err st (if st = 0x4002 then s.badAt a n + 1 else 0))

/-- Copy the first `n` positions of a page, with their scales, into another (R229). -/
def State.copyPageTail (s : State) (a : AttE) (src dst n : Nat) : E State :=
  let f := s.pool.pageLoc src
  let t := s.pool.pageLoc dst
  foldE (fun (s : State) r => do
    let x ← s.rdData (f.1 + r.1.1) r.1.2
    let s ← (x.1.storeBytes (.dva (t.1 + r.1.1)) x.2).e
    let y ← s.rdData (f.2 + r.2.1) r.2.2
    (y.1.storeBytes (.dva (t.2 + r.2.1)) y.2).e) s (a.runsOf n)

/-- What R229 does for page index `j`; `used`: slots of the span already seen. Answers the action and the slot's page. -/
def State.planPage (s : State) (ls : List AttLayer) (l : AttLayer) (strm p f j : Nat) (used : List Nat) :
    E (State × PageAct × Nat) := do
  let slot := l.slot ls j
  if j = p / 64 ∧ p % 64 ≠ 0 then
    let pg ← s.dirSlot strm slot
    let x ← pg.1.page pg.2
    return (x.1, if x.2.count ≤ 1 then .inPlace else .cow, pg.2)
  else if !l.a.ring then return (s, .fresh, nullPage)
  else if used.contains slot then return (s, .fresh, nullPage)
  else
    let pg ← s.dirSlot strm slot
    if pg.2 = nullPage then return (pg.1, .fresh, nullPage)
    let x ← pg.1.page pg.2
    let z : Int := (p : Int) - (l.a.window * f : Nat) + f
    let dead := decide (((j : Int) - (l.r : Int) + 1) * 64 ≤ z)
    return (x.1, if x.2.count ≤ 1 && dead then .inPlace else .replace, pg.2)

/-- The plan of one layer over its span, pages not yet taken. -/
def State.planLayer (s : State) (ls : List AttLayer) (l : AttLayer) (strm p q f : Nat) : E (State × List PagePend) := do
  let j0 := p / 64
  let j1 := (p + q - 1) / 64
  let r ← foldE (fun (a : State × List PagePend × List Nat) j => do
    let x ← a.1.planPage ls l strm p f j a.2.2
    let slot := l.slot ls j
    return (x.1, a.2.1 ++ [{ layer := l.idx, j := j, slot := slot, page := x.2.2, old := x.2.2, act := x.2.1 }], slot :: a.2.2))
    (s, [], []) ((List.range (j1 + 1 - j0)).map (· + j0))
  return (r.1, r.2.1)

/-- The plan of every layer of a stream. -/
def State.planAll (s : State) (ls : List AttLayer) (strm p q f : Nat) : E (State × List PagePend) :=
  foldE (fun (a : State × List PagePend) l => do
    let x ← a.1.planLayer ls l strm p q f
    return (x.1, a.2 ++ x.2)) (s, []) ls

/-- An action reserves a page. -/
def PageAct.takes : PageAct → Bool
  | .inPlace => false
  | _ => true

/-- Pages a plan reserves. -/
def takesOf (ps : List PagePend) : Nat := (ps.filter fun x => x.act.takes).length

/-- What a stream's reservation came to (R213, R230). -/
inductive Reserved where
  | ok (s : State) (ps : List PagePend)
  /-- a linear page index lies beyond the directory -/
  | shape
  | quota (s : State)
  | noPage (s : State)

/-- Take the pages of a plan and make its tail copies. -/
def State.takePlan (s : State) (ls : List AttLayer) (strm : Nat) (ps : List PagePend) : E (State × List PagePend) :=
  foldE (fun (a : State × List PagePend) x => do
    if x.act.takes then
      let t ← a.1.takePage strm
      let s ← (match x.act, ls.find? fun l => l.idx == x.layer with
        | .cow, some l => t.1.copyPageTail l.a x.old t.2 ((s.strm strm).pos % 64)
        | _, _ => .ok t.1)
      return (s, a.2 ++ [{ x with page := t.2 }])
    else return (a.1, a.2 ++ [x])) (s, []) ps

/-- The reservation of one stream as one operation (R229, R230): directory check, quota, pool. -/
def State.reserve (s : State) (ls : List AttLayer) (strm q f : Nat) : E Reserved := do
  let x := s.strm strm
  let j1 := (x.pos + q - 1) / 64
  if ls.any fun l => !l.a.ring && decide (s.pool.slots ≤ l.slot ls j1) then return .shape
  let pl ← s.planAll ls strm x.pos q f
  let s := pl.1
  let ps := pl.2
  let n := takesOf ps
  if x.quota ≠ 0 ∧ x.quota < x.pagesOwn + n then return .quota (s.bump 0x148824 1)
  if s.poolFree < n then return .noPage (s.bump 0x148820 1)
  let r ← s.takePlan ls strm ps
  return .ok r.1 r.2

/-- Every reserved page of a pending map goes back to FREE (R232). -/
def State.unreserve (s : State) (ps : List PagePend) : E State :=
  foldE (fun s x => if x.act.takes then s.freePage x.page else .ok s) s ps

/-- Commit a pending map (R231): slots take their pages, pages of smaller `j` of the same slot go FREE, replaced pages lose a
reference, kept pages go LIVE, the directory's POSITION is set. -/
def State.commitPages (s : State) (strm newPos : Nat) (ps : List PagePend) : E State := do
  let keep (x : PagePend) : Bool := !(ps.any fun y => y.layer == x.layer && y.slot == x.slot && decide (x.j < y.j))
  let s ← foldE (fun (s : State) x => do
    if keep x then
      let s ← s.setDirSlot strm x.slot x.page
      if x.act.takes then
        let held := match ps.find? fun y => y.layer == x.layer && y.slot == x.slot with
          | some y => y.old
          | none => nullPage
        let s ← s.pageLive x.page
        let s ← s.dropRef strm held
        return (match x.act with
          | .replace => s.bump64 0x148828 1
          | .cow => s.bump64 0x148830 1
          | _ => s)
      else return s
    else if x.act.takes then s.freePage x.page
    else return s) s ps
  s.setDirPos strm newPos

/-- Write a whole empty directory for a newly opened stream (R212). -/
def State.openDir (s : State) (strm : Nat) (ls : List AttLayer) (f : Nat) : E State := do
  let c := s.pool
  let head := leBytes 8 0 ++ leBytes 2 ls.length ++ leBytes 1 (linCount ls) ++ [0] ++ leBytes 4 (ringTotal ls) ++ List.replicate 48 0
  let table := ls.flatMap fun l =>
    leBytes 4 (l.a.layer + (if l.a.ring then 65536 else 0)) ++ leBytes 4 (if l.a.ring then l.r else l.rank) ++
    leBytes 4 l.first ++ leBytes 4 (if l.a.ring then l.a.window * f else 0)
  let slots := (cellsOf (head ++ table)) ++ ((List.range c.slots).flatMap fun i =>
    [(0x440 + 4 * i, (255 : Byte)), (0x441 + 4 * i, 255), (0x442 + 4 * i, 255)])
  (s.store (.dva (c.dir strm)) (2 ^ c.dirLog2) slots).poolE

/-- The non-NULL slots in a directory's bytes: slot and page. -/
def PoolCfg.slotsIn (c : PoolCfg) (bs : SMap Byte) : List (Nat × Nat) :=
  (List.range c.slots).filterMap fun i =>
    let v := cW bs (4 * i) % 2 ^ 24
    if v = nullPage then none else some (i, v)

/-- Non-NULL slots of a stream's directory. -/
def State.dirPages (s : State) (strm : Nat) : E (State × List (Nat × Nat)) := do
  let c := s.pool
  let r ← s.poolCells (c.dir strm + 0x440) (4 * c.slots)
  return (r.1, c.slotsIn r.2)

/-- A page of the stream's committed directory, or its scale slot, holds the address (R233, R590). -/
def State.listedAt (s : State) (strm ad : Nat) : E Bool := do
  let bs ← (s.cells (.dva (s.pool.dir strm + 0x440)) (4 * s.pool.slots)).poolE
  return (s.pool.slotsIn bs).any fun x =>
    let at_ := s.pool.pageLoc x.2
    (decide (at_.1 ≤ ad) && decide (ad < at_.1 + s.pool.pageSize)) || (decide (at_.2 ≤ ad) && decide (ad < at_.2 + s.pool.slotSize))

/-- CLOSE on the pool (R235): every slot drops its reference, then the directory is zero. -/
def State.closeDir (s : State) (strm : Nat) : E State := do
  let ps ← s.dirPages strm
  let s ← foldE (fun s x => s.dropRef strm x.2) ps.1 ps.2
  (s.store (.dva (s.pool.dir strm)) (2 ^ s.pool.dirLog2) []).poolE

/-- The configuration the pool registers hold (R241). -/
def State.poolRegs (s : State) : PoolCfg :=
  { base := s.reg64 0x148808, pages := s.fld 0x148810 23 0, pageLog2 := s.fld 0x148814 4 0, dirLog2 := s.fld 0x148814 12 8
    scale16 := s.fld 0x148814 16 16 == 1 }

/-- The result of an apply and what it shows (R240, R242). -/
def State.poolDone (s : State) : State :=
  let n := s.pool.pages
  (((s.setFld 0x148818 23 0 n).setFld 0x14881C 23 0 n).setFld 0x148804 8 8 (if n = 0 then 0 else 1)).setFld 0x148804 3 0 2

/-- An apply in progress writes the page table and the directories to zero (R243) by the writes of R328: while one must wait RESULT reads BUSY,
and one that fails is a failure of the pool's bookkeeping (R590). -/
def State.finishApply (s : State) : State :=
  if s.fld 0x148804 3 0 ≠ 1 then s
  else if s.pool.pages = 0 then s.poolDone
  else
    let gs := (List.range ((s.pool.scales - s.pool.base) / gBytes)).map (· + s.pool.base / gBytes)
    match gs.foldl (fun (r : Res State) g => r.bind fun s => s.store (.dva (gBytes * g)) gBytes []) (.ok s) with
    | .ok s => s.poolDone
    | .wait => s
    | .err _ => s.enterSafe 6

/-- Apply the pool configuration (R243). The new configuration is the pool's from here on; ACTIVE reads 0 until its bookkeeping is zero
(DESIGN CHOICE, log entry 84). -/
def State.applyPool (s : State) : State :=
  let c := s.poolRegs
  if s.scenes.any fun e => e.2.isSome then s.setFld 0x148804 3 0 3
  else if c.pageLog2 < 14 ∨ 16 < c.pageLog2 ∨ c.dirLog2 < 12 ∨ 28 < c.dirLog2 then s.setFld 0x148804 3 0 4
  else if 0xFF0000 < c.pages ∨ c.base % mib2 ≠ 0 ∨ (c.pages ≠ 0 ∧ dvaEnd < c.last) then s.setFld 0x148804 3 0 5
  else (({ s with pool := c }.setFld 0x148804 8 8 0).setFld 0x148804 3 0 1).finishApply

end Sys2Proof.Machine
end

