-- ==== Sys2Proof/Machine/Remote.lean ====
section
/-! DEFINITION. Remote transactions as their requester keeps them (14 R443-R460): routes, credits, SEQ values, link frames,
failover, and what a failed or answered transaction does to its command and its proxy. -/

namespace Sys2Proof.Machine

/-- The module's identifier (R443). -/
def State.moduleId (s : State) : Nat := s.fld 0x200000 15 0

/-- TRANSPORT_TIMEOUT_NS. -/
def State.txTimeout (s : State) : Nat := (s.reg 0x200004).toNat

/-- MODE of port `p`: 0 OFF, 1 TRESTLE, 2 ETHERNET. -/
def State.portMode (s : State) (p : Nat) : Nat := s.fld (0x200100 + 0x40 * p) 3 0

/-- Port `p` exists and is UP. -/
def State.portUp (s : State) (p : Nat) : Bool := decide (p < 12) && (s.port p).st == .up

/-- The route byte of module `m` (R444). -/
def State.routeByte (s : State) (m : Nat) : Nat := s.fld (0x210000 + m / 4 * 4) (8 * (m % 4) + 7) (8 * (m % 4))

/-- The port a transaction to module `m` leaves on: the primary while it is UP, else the alternate while it is UP. -/
def State.route (s : State) (m : Nat) : Option Nat :=
  let b := s.routeByte m
  if s.portUp (b % 16) then some (b % 16)
  else if s.portUp (b / 16) then some (b / 16)
  else none

/-- Credits of port `p` held (R451). -/
def State.creditsUsed (s : State) (p : Nat) : Nat := (s.openTx.filter fun t => t.port == some p).length

/-- Bytes of a transaction: the header, the payload and, with E2E, the check value (R448, R486). -/
def txBytes (payload : Nat) (e2e : Bool) : Nat := 32 + 8 + payload + (if e2e then 8 else 0)

/-- Frames a message takes: 512 B each on a Trestle link, one SEND on an Ethernet port (R446, R460). -/
def framesOf (trestle : Bool) (bytes : Nat) : List Nat :=
  if trestle then
    (List.range ((bytes + 511) / 512)).map fun i => min 512 (bytes - 512 * i)
  else [bytes]

/-- Queue a message's frames on port `p`; a paused Ethernet port keeps them unsent (R459). -/
def State.sendMsg (s : State) (p : Nat) (m : Msg) (bytes : Nat) : State :=
  let t := s.portMode p == 1
  let x := s.port p
  let parts := framesOf t bytes
  let hold := !t && x.paused
  let fs := ((List.range parts.length).zip parts).map fun e =>
    ({ seq := (x.txSeq + e.1) % 65536, msg := m, part := e.1, len := e.2, sends := if hold then 0 else 1
       firstAt := s.itNow, lastAt := s.itNow } : Frame)
  let s := s.setPort p { x with txSeq := (x.txSeq + parts.length) % 65536, frames := x.frames ++ fs }
  if t then s.bump64 (0x240008 + 0x1000 * (8 + p)) bytes else s

/-- Change one open transaction. -/
def State.updTx (s : State) (id : Nat) (f : OpenTx → OpenTx) : State :=
  { s with openTx := s.openTx.map fun t => if t.id = id then f t else t }

/-- Bytes of an open transaction. -/
def OpenTx.bytes (t : OpenTx) : Nat := txBytes t.payload.length t.e2e

/-- One of the check-value units 20 to 23 processes `n` bytes of a transaction or of a checkpoint image; `bad`: a transaction's check failed
(R482, R486, R499). Which of the four serves is a free value (log entry 36). -/
def State.hubCheck (s : State) (n : Nat) (bad : Bool) : State :=
  let u := 0x1000 * (20 + (Config.freeWord s.freeCtr).toNat % 4)
  let s := { s.bump64 (0x240008 + u) n with freeCtr := s.freeCtr + 1 }
  if bad then s.bump (0x240010 + u) 1 else s

/-- An operation fails (R413, R444, R457, R486): its proxy is flagged where `flagProxy`, its command takes the first failure's
status and DETAIL and waits for it no longer. -/
def State.failOp (s : State) (proxy tok : Option Nat) (status detail : Nat) (flagProxy : Bool) : State :=
  let s := match proxy with
    | some o => if flagProxy then s.setObj o { s.obj o with rfail := true } else s
    | none => s
  match tok with
  | some t => s.updCmd t fun c =>
      { c with rfail := (match c.rfail with | none => some (status, detail) | some x => some x) }
  | none => s

/-- A transaction leaves the open list: its credit is free, and its command waits for one fewer: an effect of it has taken effect now (R385,
R413). -/
def State.closeTx (s : State) (t : OpenTx) : State :=
  let s := { s with openTx := s.openTx.filter fun x => x.id != t.id }
  match t.tok with
  | some k => s.updCmd k fun c =>
      { c with remotes := c.remotes - 1, itDone := if c.phase = .ended then s.itNow else c.itDone }
  | none => s

/-- A transaction fails for good. -/
def State.failTx (s : State) (t : OpenTx) (status : Nat) (flagProxy : Bool) : State :=
  (s.closeTx t).failOp t.proxy t.tok status t.detail flagProxy

/-- The lowest SEQ open toward a module among those already issued, `seq` itself where none is lower (R448 FLOOR_SEQ). -/
def State.floorFor (s : State) (dest seq : Nat) : Nat :=
  (s.openTx.filter fun t => t.dest == dest && t.sentOn.isSome).foldl (fun a t => min a t.seq) seq

/-- Send an issued transaction's frames on port `p`. -/
def State.sendTx (s : State) (t : OpenTx) (p : Nat) : State :=
  (s.updTx t.id fun t => { t with sentOn := some p }).sendMsg p (.own t.id) t.bytes

/-- Try to issue a listed transaction (R444, R450, R451): with no port UP it fails at once with TIMEOUT and uses no SEQ; with
no free credit, or behind an earlier one to the same module that waits, it waits. -/
def State.tryIssue (s : State) (id : Nat) : State :=
  match s.openTx.find? fun t => t.id == id with
  | none => s
  | some t =>
    if s.openTx.any fun u => u.dest == t.dest && u.sentOn.isNone && decide (u.id < t.id) then s
    else
      match s.route t.dest with
      | none => s.failTx t 0x5001 true
      | some p =>
        if 4096 ≤ s.creditsUsed p then s
        else
          let seq := SMap.get (fun _ => 0) s.seqCtr t.dest
          let t' := { t with seq := seq, deadline := (s.itNow + s.txTimeout) % 2 ^ 64, port := some p
                             floorSeq := s.floorFor t.dest seq, e2e := s.profile == 2 }
          let s := s.updTx id fun _ => t'
          let s := { s with seqCtr := SMap.set (fun _ => 0) t.dest ((seq + 1) % 2 ^ 32) s.seqCtr }
          (if t'.e2e then s.hubCheck (txBytes t.payload.length false) false else s).sendTx t' p

/-- Issue a new transaction for a command or a signal. -/
def State.issueTx (s : State) (t : OpenTx) : State :=
  let t := { t with id := s.nextTx, port := none, sentOn := none, resendAt := 0 }
  let s := { s with nextTx := s.nextTx + 1, openTx := s.openTx ++ [t] }
  let s := match t.tok with
    | some k => s.updCmd k fun c => { c with remotes := c.remotes + 1 }
    | none => s
  s.tryIssue t.id

/-- Transactions that wait for a credit are issued in order once one is free. -/
def State.issueWaiting (s : State) : State :=
  ((s.openTx.filter fun t => t.sentOn.isNone).map (·.id)).foldl (fun s id => s.tryIssue id) s

/-- Resend an issued transaction on the port its route now gives (R447, R453); with none UP it fails at once (R444). -/
def State.resendTx (s : State) (id : Nat) : State :=
  match s.openTx.find? fun t => t.id == id with
  | none => s
  | some t =>
    match s.route t.dest with
    | none => s.failTx t 0x5001 true
    | some p => s.sendTx t p

/-- Bytes of a transit transaction: a REMOTE_ADD carries no DVA beyond its amount, a REMOTE_WRITE its data. -/
def rxBytes (t : RxTx) : Nat := txBytes t.payload.length t.e2e

/-- Send transit traffic on by the module's own route table; it waits where no port is UP (R445). -/
def State.forward (s : State) (from_ : Nat) (t : RxTx) : State :=
  match s.route t.dst.toNat with
  | some p => s.sendMsg p (.transit t) (rxBytes t)
  | none => s.setPort from_ { s.port from_ with transit := (s.port from_).transit ++ [t] }

/-- Transit traffic that waits at a port is tried again (R445). -/
def State.forwardWaiting (s : State) : State :=
  (List.range 12).foldl (fun s p =>
    let ts := (s.port p).transit
    ts.foldl (fun s t => s.forward p t) (s.setPort p { s.port p with transit := [] })) s

/-- A reply goes out on the route to its requester; with no port UP it is not sent (R444, R448). -/
def State.sendReply (s : State) (t : RxTx) (result : Nat) : State :=
  match s.route t.src.toNat with
  | some p => s.sendMsg p (.reply t.src.toNat t.epoch.toNat t.seq.toNat t.deadline.toNat t.incarnation.toNat result) 32
  | none => s

/-- The messages of a port's unacknowledged frames, each once. -/
def Port.messages (x : Port) : List Msg := (x.frames.map (·.msg)).eraseDups

/-- Failover of a port that stops carrying frames (R442, R447): own transactions and replies are resent by their routes,
transit traffic is held. The port must already be out of UP. -/
def State.failover (s : State) (p : Nat) : State :=
  let ms := (s.port p).messages
  let s := s.setPort p { s.port p with frames := [], transit := (s.port p).transit ++
    (ms.filterMap fun m => match m with | .transit t => some t | _ => none) }
  let s := ms.foldl (fun s m =>
    match m with
    | .own id => s.resendTx id
    | .reply d e q dl inc r =>
      (match s.route d with
       | some p' => s.sendMsg p' (.reply d e q dl inc r) 32
       | none => s)
    | .transit _ => s) s
  s.forwardWaiting

/-- The replay window of port `p` (R456): REPLAY_WINDOW_NS on Trestle, eight acknowledgement timeouts on Ethernet. -/
def State.replayWindow (s : State) (p : Nat) : Nat :=
  if s.portMode p = 2 then 8 * (4096 * 2 ^ s.fld (0x200100 + 0x40 * p) 11 8) else (s.reg 0x200008).toNat

/-- MIN_TIMEOUT_NS as R456 computes it. -/
def State.minTimeout (s : State) : Nat :=
  let ps := (List.range 12).filter fun p => s.portMode p != 0
  if ps.isEmpty then 4 * (s.reg 0x200008).toNat
  else 4 * ps.foldl (fun a p => max a (s.replayWindow p)) 0

/-- MIN_TIMEOUT_NS recomputed; a stored timeout below it is raised and the sticky flag set (R456). -/
def State.recomputeMin (s : State) : State :=
  let m := s.minTimeout
  let s := s.setReg 0x200014 (BitVec.ofNat 32 m)
  if s.txTimeout < m then (s.setReg 0x200004 (BitVec.ofNat 32 m)).setFld 0x200010 0 0 1 else s

/-- A TRANSPORT_TIMEOUT_NS write: a value below MIN_TIMEOUT_NS stores MIN_TIMEOUT_NS and sets the flag (R456). -/
def State.storeTimeout (s : State) (v : Nat) : State :=
  let m := (s.reg 0x200014).toNat
  if v < m then (s.setReg 0x200004 (BitVec.ofNat 32 m)).setFld 0x200010 0 0 1
  else s.setReg 0x200004 (BitVec.ofNat 32 v)

/-- EYE_CTL of a port (19 R574). -/
def eyeCtl (p : Nat) : Nat := 0x2C1000 + 0x20 * p

/-- RESULT of a port's eye measurement. -/
def State.eyeResult (s : State) (p : Nat) : Nat := s.fld (eyeCtl p + 4) 31 28

/-- A measurement in progress is abandoned when its port leaves UP (R574): REFUSED_STATE, which a MARGIN's lane reads too. -/
def State.abandonEye (s : State) (p : Nat) : State :=
  if s.eyeResult p ≠ 1 then s
  else
    let s := (s.setFld (eyeCtl p + 4) 31 28 3).setFld (eyeCtl p) 0 0 0
    let w := (s.reg (eyeCtl p + 4)).toNat
    { s with cmds := s.cmds.map fun c =>
        if c.op == 0x0701 then { c with items := c.items.map fun x => if x.length = 1 ∧ x.headD 0 / 4 = p then x ++ [w] else x } else c }

/-- What a PORT_CFG write that changes MODE, LANE_RATE or ACK_EXP does (R442, R456): the port goes DOWN and, unless OFF,
trains again; its unacknowledged transactions fail over; an OFF port holds no credit. -/
def State.portReconfigured (s : State) (p : Nat) : State :=
  let off := s.portMode p == 0
  let s := s.setPort p { s.port p with st := if off then .down else .training, tryAt := s.itNow, paused := false, rate := 0 }
  let s := (s.abandonEye p).failover p
  let s := if off then { s with openTx := s.openTx.map fun t => if t.port = some p then { t with port := none } else t }
    else s
  s.recomputeMin.issueWaiting

/-- Window index of an IT (R467), taken toward minus infinity. -/
def State.winOf (s : State) (t : Nat) : Int := ((t : Int) - (s.time.winPhase : Int)).fdiv (s.time.winNs : Int)

/-- The lowest window not yet closed by a close event (R469). -/
def State.openWin (s : State) : Int := match s.time.closedTo with | some n => n | none => s.winOf 0

/-- End of window `n`. -/
def State.winEnd (s : State) (n : Int) : Int := (n + 1) * (s.time.winNs : Int) + (s.time.winPhase : Int)

/-- Window `n` has closed: its close came, or local IT reached its end + GUARD_NS (R469). -/
def State.winClosed (s : State) (n : Int) : Bool :=
  decide (n < s.openWin) || decide (s.winEnd n + ((s.reg 0x220028).toNat : Int) ≤ (s.itNow : Int))

/-- The window of an event stamped `stamp` that reaches its user now, and whether it is LATE (R469). -/
def State.placeEvent (s : State) (stamp : Nat) : Int × Bool :=
  let n := s.winOf stamp
  if s.winClosed n then (s.winOf s.itNow, true) else (n, false)

end Sys2Proof.Machine
end

