-- ==== Sys2Proof/Machine/Sync.lean ====
section
/-! DEFINITION. Waits and signals (12 R382-R384, 13 R404-R413, R429-R430): how a queue's head command passes its fence, wait
and time conditions, and what an add to an object sets in motion. -/

namespace Sys2Proof.Machine

/-- A command has completed: its record is written, or waits for an entry. -/
def Cmd.done (c : Cmd) : Bool := c.phase.completed

/-- Every command fetched earlier from the same queue has completed; the command list is in fetch order. -/
def State.earlierDone (s : State) (c : Cmd) : Bool :=
  (s.cmds.takeWhile fun d => d.tok != c.tok).all fun d => d.qid != c.qid || d.done

/-- The first unmet one of the conditions of R382 steps 2 to 4, from the one the command stands at. A FENCE command also holds
at its fence (R386). -/
def State.holdAt (s : State) (c : Cmd) : Phase :=
  let atTime : Phase := if c.notBefore ≠ 0 ∧ s.itNow < c.notBefore then .time else .ready
  let atWait : Phase := if c.waitEn && decide ((s.obj c.waitObj).value < c.waitValue) then .wait else atTime
  let atFence : Phase := if (c.fenceFlag || c.op == 1) && !s.earlierDone c then .fence else atWait
  match c.phase with
  | .fence => atFence
  | .wait => atWait
  | .time => atTime
  | p => p

/-- The head commands: the first undispatched command of each queue (R383). -/
def heads (seen : List Nat) : List Cmd → List Nat
  | [] => []
  | c :: cs =>
    if c.phase.held && !seen.contains c.qid then c.tok :: heads (c.qid :: seen) cs else heads seen cs

/-- Every queue's head command passes the conditions that now hold; a condition that holds is not tested again. -/
def State.settle (s : State) : State :=
  (heads [] s.cmds).foldl (fun s t =>
    match s.cmd t with
    | none => s
    | some c =>
      let p := s.holdAt c
      if p = c.phase then s
      else s.updCmd t fun c => { c with phase := p, readyAt := if p = .ready then s.itNow else c.readyAt }) s

/-- Judge every tile and entry wait on object `i` (R408); parked ones are not acted on (R429). -/
def State.judgeObj (s : State) (i : Nat) : State :=
  { s with cmds := s.cmds.map fun c => c.judgeRun i (s.obj i).value }

/-- An add to object `i` (R405): VALUE saturates. -/
def State.addObj (s : State) (i n : Nat) : State :=
  let o := s.obj i
  let v := o.value + n
  let s := s.setObj i { o with value := min v (2 ^ 64 - 1), sat := o.sat || decide (2 ^ 64 ≤ v) }
  (s.judgeObj i).settle

/-- A VALUE write (R406). -/
def State.writeObj (s : State) (i v : Nat) : State :=
  ((s.setObj i { s.obj i with value := v % 2 ^ 64 }).judgeObj i).settle

/-- A signal of an amount to an object (R404, R410, R412): an add, or through a proxy a remote add, or one local add where the
proxy names this module. `tok`: the command it belongs to. -/
def State.signal (s : State) (i amount epoch client : Nat) (tok : Option Nat) : State :=
  if amount = 0 then s
  else
    let cfg := (s.obj i).config.toNat
    if bits cfg 31 31 = 0 then s.addObj i amount
    else
      let m := bits cfg 29 14
      let r := bits cfg 13 0
      if m = s.moduleId then s.addObj r amount
      else
        s.issueTx { id := 0, dest := m, seq := 0, client := client, epoch := epoch, deadline := 0, add := true, obj := r
                    amount := amount, addr := 0, payload := [], e2e := false, port := none, sentOn := none, tok := tok
                    proxy := some i, detail := 0x20000 + i, floorSeq := 0, resendAt := 0 }

/-- A signal made by a running command's own work. -/
def State.cmdSignal (s : State) (tok i amount : Nat) : State :=
  match s.cmd tok with
  | some c => s.signal i amount c.epoch c.client (some tok)
  | none => s

/-- A signal that belongs to no command: EPOCH 0 (R410), CLIENT 0 (log entry 20). -/
def State.freeSignal (s : State) (i amount : Nat) : State := s.signal i amount 0 0 none

/-- The command's tiles and entries wait: it has begun, and neither ended nor stops (R160, R407, R432). -/
def Cmd.waiting (c : Cmd) : Bool := c.stop.isNone && (c.phase == .running || c.phase.parked)

/-- Wait records on object `i` (R407, R414): commands at step 3, tiles in a WAIT and engine entries not started, parked ones
included. -/
def State.waiters (s : State) (i : Nat) : Nat :=
  s.cmds.foldl (fun n c =>
    let a := if c.phase == .wait && c.waitEn && c.waitObj == i then 1 else 0
    let b := match c.run.filter fun _ => c.waiting with
      | none => 0
      | some r =>
        (r.tiles.filter fun t => !t.waitMet && (match t.waitObj with | some (o, _) => o == i | none => false)).length +
        (r.entries.filter fun e => !e.waitMet && (match e.waitOn with | some (o, _) => o == i | none => false)).length
    n + a + b) 0

end Sys2Proof.Machine
end

