-- ==== Sys2Proof/Machine/Runs.lean ====
section
/-! DEFINITION. Running commands (01 R24-R39, 05 R159-R163, R171, 06 R185-R186, 12 R394-R396): when a dispatched command may
begin, command start, stopping under R160, and the end of a RUN, a STEP and an INGEST_SEQ. -/

namespace Sys2Proof.Machine

/-! ## When a command may begin (R24, R383) -/

/-- The streams a command names. -/
def Cmd.streamsNamed (c : Cmd) : List Nat :=
  match c.op with
  | 0x0201 => if c.stream = 0xFFFF then [] else [c.stream]
  | 0x0202 => c.stream :: c.targets
  | 0x0203 => c.items.map fun x => x.headD 0xFFFF
  | 0x0204 => [c.stream]
  | 0x0205 => [c.stream]
  | 0x0206 => if c.flag 0 then [] else [c.stream]
  | _ => []

/-- The stream whose scene a STEP runs in (R35): the first in list order that is not FREE. -/
def State.stepLead (s : State) (c : Cmd) : Option Nat :=
  (if c.f 0x40 12 0 = 0 then [c.stream] else c.items.map fun e => e.headD 0xFFFF).find? fun i => decide (i < 16384) && (s.strm i).st != .free

/-- A stream is in a state that makes later commands wait (R24). -/
def StreamSt.busy : StreamSt → Bool
  | .ingesting => true
  | .stepping => true
  | .forking => true
  | .closing => true
  | _ => false

/-- The program handle a command runs under: RUN's own, or its stream's scene's. -/
def ProgRun.uses (r : ProgRun) (h : Nat) : Bool := r.handle == h

/-- A running FORK is creating the stream (log entry 23). -/
def State.claimed (s : State) (i : Nat) : Bool :=
  s.cmds.any fun c => match c.fork with | some w => w.children.contains i | none => false

/-- The scene slot an ingest command names (R393). -/
def Cmd.ingScene (c : Cmd) : Nat := c.f 0x40 4 0

/-- An ingest command other than INGEST_OPEN. -/
def Cmd.isIngest (c : Cmd) : Bool := decide (0x0501 ≤ c.op) && decide (c.op ≤ 0x0505)

/-- Ingest commands on the same scene, dispatched before `c`, that have not completed (R287). -/
def State.ingestBefore (s : State) (c : Cmd) : Bool :=
  s.cmds.any fun d => decide (0x0500 ≤ d.op) && decide (d.op ≤ 0x0505) && d.ingScene == c.ingScene && decide (d.order < c.order) &&
    !d.phase.held && !d.phase.completed

/-- An ingest command waits until its scene has a context (R275), and INGEST_CLOSE for the ingest commands before it (log entry 25). -/
def State.ingestWaits (s : State) (c : Cmd) : Bool :=
  c.isIngest && ((SMap.get (fun _ => none) s.ingest c.ingScene).isNone || (c.op == 0x0501 && s.ingestBefore c))

/-- A running CHECKPOINT, dispatched before `c`, waits for a stream `c` names (15 R488). -/
def State.captureBefore (s : State) (c : Cmd) : Bool :=
  s.cmds.any fun d => d.begun && decide (d.order < c.order) &&
    (match d.ck with | some w => (match w.todo with | i :: _ => c.streamsNamed.contains i | [] => false) | none => false)

/-- An open scene names the program handle (R172). -/
def State.inScene (s : State) (h : Nat) : Bool :=
  s.scenes.any fun e => match e.2 with | some x => x.program == h | none => false

/-- The command names, or runs, the program handle. -/
def Cmd.namesProgram (c : Cmd) (h : Nat) : Bool :=
  let at_ (o : Nat) : Bool := c.f (o + 12) 2 1 == 1 && c.f (o + 8) 15 0 == h
  (match c.op with
   | 0x0101 => c.f 0x40 15 0 == h
   | 0x0200 => c.f 0x40 31 16 == h
   | 0x0300 => c.f 0x68 15 0 == 0 && (at_ 0x40 || at_ 0x50)
   | 0x0303 => c.f 0x40 15 0 == h
   | 0x0400 => c.f 0x40 15 0 == h
   | _ => false) ||
  (match c.run with | some r => r.uses h | none => false)

/-- An UNLOAD_PROGRAM of `h`, not refused, was dispatched before `c` and waits (R172). -/
def State.unloading (s : State) (c : Cmd) (h : Nat) : Bool :=
  !s.inScene h && s.cmds.any fun d =>
    d.op == 0x0102 && d.phase == .dispatched && !d.begun && d.f 0x40 15 0 == h && decide (d.order < c.order)

/-- The program a dispatched command's handle names; an UNLOAD_PROGRAM dispatched before it hides it (R169, R172). -/
def State.programFor (s : State) (c : Cmd) (h : Nat) : Option Program := if s.unloading c h then none else s.program h

/-- An UNLOAD_PROGRAM that is not refused waits for the commands of its program dispatched before it (R172). -/
def State.unloadWaits (s : State) (c : Cmd) : Bool :=
  c.op == 0x0102 && !s.inScene (c.f 0x40 15 0) && s.cmds.any fun d =>
    decide (d.order < c.order) && !d.phase.held && !d.phase.completed && d.tok != c.tok && d.namesProgram (c.f 0x40 15 0)

/-- A LOAD_PROGRAM waits for the one at work (R170). -/
def State.loadWaits (s : State) (c : Cmd) : Bool :=
  c.op == 0x0100 && s.cmds.any fun d => d.op == 0x0100 && d.begun && d.load.isSome

/-- A dispatched command has to wait (R24, R170, R172, R275, R386, R433): a stream it names is busy or claimed by an earlier one that has not
begun, it is an UNLOAD_PROGRAM and a command of its program is at work, a LOAD_PROGRAM behind another, a SIGNAL behind commands of its queue
that have not completed, or a RESUME behind a PREEMPT whose saves run. `earlier`: unbegun commands dispatched before it. -/
def State.mustWait (s : State) (earlier : List Cmd) (c : Cmd) : Bool :=
  (c.streamsNamed.any fun i => (s.strm i).st.busy || s.claimed i || earlier.any fun d => d.streamsNamed.contains i) ||
  (c.op == 3 && !s.earlierDone c) || s.ingestWaits c || s.captureBefore c ||
  (c.op == 0x0601 && s.cmds.any fun d => d.op == 0x0600 && d.begun && (d.phase == .running)) ||
  s.unloadWaits c || s.loadWaits c

/-- Dispatched commands that have not begun, in dispatch order. -/
def State.unbegun (s : State) : List Cmd :=
  sortBy (fun a b => decide (a.order ≤ b.order)) (s.cmds.filter fun c => c.phase == .dispatched && !c.begun)

/-- The first of them that need not wait. -/
def State.firstFree (s : State) : List Cmd → List Cmd → Option Cmd
  | _, [] => none
  | seen, c :: cs => if s.mustWait seen c then s.firstFree (seen ++ [c]) cs else some c

/-- The command a row of opcode `op` may begin now: it is the first of the dispatched ones that need not wait (R383). -/
def State.mayBegin (s : State) (tok op : Nat) : Option Cmd :=
  if s.live then (s.firstFree [] s.unbegun).filter fun c => c.tok == tok && c.op == op else none

/-- A command begins its work. -/
def State.begin_ (s : State) (tok : Nat) : State :=
  s.updCmd tok fun c => { c with phase := .running, begun := true, profile := s.profile }

/-- A command that is running now. -/
def State.running (s : State) (tok : Nat) : Option Cmd :=
  if s.live then (s.cmd tok).filter fun c => c.phase == .running || c.phase == .stopping else none

/-- An instantaneous command: it begins and ends in one step. -/
def State.instant (s : State) (tok st detail : Nat) : State := (s.begin_ tok).endCmd tok st detail

/-- DETAIL of LOADER_REJECT: an item's index and a reason (R164). -/
def reject (item reason : Nat) : Nat := (item * 256 + reason) % 2 ^ 32

/-- What a computation that may stop leaves: `s'` where it is done, nothing where it must wait, safe state for the pool's
bookkeeping (R590), and `onErr` otherwise. -/
def State.after (s : State) (r : E State) (onErr : Nat → Nat → State) : State :=
  match r with
  | .ok s' => s'
  | .error .wait => s
  | .error (.err st d) => onErr st d
  | .error .pool => s.enterSafe 6

/-! ## Streams (R20-R22, R38) -/

/-- The module writes a stream table entry at a commit point: COMMIT_SEQ moves on (R20, R21). -/
def State.updStrm (s : State) (i : Nat) (f : Stream → Stream) : State :=
  let x := s.strm i
  s.setStrm i { f x with commitSeq := (x.commitSeq + 1) % 256 }

/-- The state a stream shows while a command works on it, and after a failure that committed nothing: no commit point, so COMMIT_SEQ stays
(R21; DESIGN CHOICE, log entry 80). -/
def State.showSt (s : State) (i : Nat) (st : StreamSt) (reason : Nat) : State :=
  s.setStrm i { s.strm i with st := st, parkReason := reason }

/-- A stream's state and park reason. -/
def State.setSt (s : State) (i : Nat) (st : StreamSt) (reason : Nat) : State :=
  s.updStrm i fun x => { x with st := st, parkReason := reason }

/-- Positions per frame of a scene. -/
def Scene.f (c : Scene) : Nat := c.rows * c.cols

/-- BUCKET of a context (R22): the smallest k with the context at most 64 * 2^k, 15 above 2^20. -/
def bucketOf (ctx : Nat) : Nat :=
  ((List.range 15).find? fun k => decide (ctx ≤ 64 * 2 ^ k)).getD 15

/-- The context at a position (R22): the reach of the longest-reaching attention layer. -/
def contextOf (ls : List AttLayer) (f pos : Nat) : Nat :=
  ls.foldl (fun m l => max m (if l.a.ring then min pos (l.a.window * f) else pos)) 0

/-- The program of a scene. -/
def State.sceneProg (s : State) (c : Scene) : Option Program := s.program c.program

/-- A stream's scene and its program. -/
def State.streamProg (s : State) (i : Nat) : Option (Scene × Program) :=
  (s.scene (s.strm i).scene).bind fun c => (s.sceneProg c).map fun p => (c, p)

/-- Where half `h` of state slot `k` of a scene lies (R179). -/
def stateLoc (c : Scene) (p : Program) (k h : Nat) : Nat := c.stateBase + 2 * p.image.sBytes * k + p.image.sBytes * h

/-! ## A running program -/

/-- Its program. -/
def State.runProg (s : State) (r : ProgRun) : Option Program := s.program r.handle

/-- Its context. -/
def ProgRun.ctx (r : ProgRun) (p : Program) : Ctx := { p := p, binds := r.binds }

/-- Change a command's run. -/
def State.updRun (s : State) (tok : Nat) (f : ProgRun → ProgRun) : State :=
  s.updCmd tok fun c => { c with run := c.run.map f }

/-- Streams that passed reservation, in the numbering of R182. -/
def ProgRun.passed (r : ProgRun) : List StepStream := r.streams.filter (·.passed)

/-- Stream number `n` of R182. -/
def ProgRun.nth (r : ProgRun) (n : Nat) : Option StepStream := r.passed[n]?

/-- Positions each stream contributes (R182). -/
def ProgRun.q (r : ProgRun) (c : Cmd) : Nat := if r.kind = 2 then c.w 0x40 else r.frame

/-- Rows of the command (R182). -/
def ProgRun.rCmd (r : ProgRun) (c : Cmd) : Nat := r.passed.length * r.q c

/-- Change one stream of a run, by its list index. -/
def State.updStep (s : State) (tok listIdx : Nat) (f : StepStream → StepStream) : State :=
  s.updRun tok fun r => { r with streams := r.streams.map fun x => if x.listIdx = listIdx then f x else x }

/-- The start-time BOUND entries an entry references, in increasing index (R159). -/
def Image.boundsUsed (p : Image) (e : Nat) : List Nat :=
  let all := p.boundsOf e
  (List.range p.bounds.length).filter fun i =>
    all.contains i && (match p.bounds[i]? with | some b => !b.atIssue | none => false)

/-- A bound's word in memory. -/
def State.boundWord (s : State) (x : Ctx) (b : Bound) : E (State × Nat) :=
  match x.region b.region with
  | none => .error (.err 0x1002 0)
  | some r => s.rdNat ((x.p.planeLoc x.binds r false).plus b.offset) 4

/-- An error at address `ad` of a store lies in the protected word or line that holds a place (R478); `w`: its panel in shared memory. -/
def Loc.hitBy (l : Loc) (st : Store) (w ad : Nat) : Bool :=
  match l, st with
  | .dva a, .hbm => a / 64 == ad / 64
  | .dva a, .flash => a / 64 == ad / 64
  | .host a, .pcie => a / 64 == ad / 64
  | .pal _ o, .palette => o / 8 == ad / 8
  | .shr p o, .shared => p == w && o / 8 == ad / 8
  | _, _ => false

/-- The lowest of some bounds whose word an uncorrectable error makes unreadable (R159, R160). -/
def Ctx.boundHit (x : Ctx) (ids : List Nat) (h : Hazard) : Option Nat :=
  match h with
  | .ue st w ad => ((ids.filter fun i => match x.p.image.bounds[i]? with
      | none => false
      | some b => (b.src == 2 || b.src == 3) && (match x.region b.region with
        | some r => ((x.p.planeLoc x.binds r false).plus b.offset).hitBy st w.toNat ad.toNat
        | none => false))).min?
  | _ => none

/-- Read and resolve one start-time bound (R158, R159). RUN_WORD reads 0 where the command is no RUN (DESIGN CHOICE, log entry 90). -/
def State.startBound (s : State) (x : Ctx) (words : List Nat) (rows i : Nat) : E (State × Option Nat) :=
  match x.p.image.bounds[i]? with
  | none => .ok (s, none)
  | some b =>
    let fin (s : State) (raw : Nat) : E (State × Option Nat) :=
      match b.resolve raw with
      | some v => .ok (s, some v)
      | none => .error (.err 0x1001 i)
    if b.src = 1 then fin s (words.getD b.word 0)
    else if b.src = 4 then fin s rows
    else
      match s.boundWord x b with
      | .ok r => fin r.1 r.2
      | .error (.err st d) => .error (.err 0x1002 (i + 256 * eccAddr st d))
      | .error e => .error e

/-- Every start-time bound of a command, in increasing index; the word of one that the hazard makes unreadable fails its read (R159). -/
def State.startBounds (s : State) (x : Ctx) (words : List Nat) (rows e : Nat) (h : Hazard) : E (State × SMap (Option Nat)) :=
  let ids := x.p.image.boundsUsed e
  foldE (fun (a : State × SMap (Option Nat)) i => do
    if x.boundHit ids h = some i then throw (.err 0x1002 i)
    let r ← a.1.startBound x words rows i
    return (r.1, SMap.set (fun _ => none) i r.2 a.2)) (s, []) ids

/-- A spec resolved at command start. -/
def ProgRun.ext (r : ProgRun) (w : Nat) : Nat :=
  match specRef w with
  | none => bits w 16 0
  | some i => (SMap.get (fun _ => none) r.bounds i).getD 0

/-- The first glaze entry whose MAX_ROWS the command's rows exceed (R185). -/
def Image.rowsOver (p : Image) (e rows : Nat) : Option Nat :=
  ((p.issued e).find? fun x => !x.1 && eKind x.2.2 == 1 && decide ((GlazeE.ofWords x.2.2).maxRows < rows)).map (·.2.1)

/-- Physical tiles an entry needs (R166). -/
def Program.needed (p : Program) (e : Nat) : List Nat :=
  match p.image.entries[e]? with
  | none => []
  | some en => (p.image.starts en).map fun x => p.phys x.1

/-- The lowest needed tile that is quarantined, under self-test or retired (R120, R567). -/
def State.blockedTile (s : State) (ts : List Nat) : Option Nat :=
  (ts.filter fun t => (s.tile t).st == .quarantined || (s.tile t).st == .selfTest || (s.tile t).retireFuse).min?

/-- The first BINDING entry of a class whose buffer is absent, short or misaligned (R171, R395). -/
def Image.badBinding (p : Image) (cls : Nat) (buf : Nat → Option (Nat × Nat)) : Option Nat :=
  (((List.range p.bindings.length).zip p.bindings).find? fun x =>
    x.2.cls == cls && (match buf x.2.index with
      | none => true
      | some b => decide (b.2 < x.2.minBytes) || b.1 % 2 ^ x.2.alignLog2 != 0)).map (·.1)

/-- Address and length of every BINDING entry's buffer. -/
def Program.bufs (p : Program) (cls : Nat) (buf : Nat → Option (Nat × Nat)) : List (Nat × Nat) :=
  p.image.bindings.map fun b =>
    if b.cls = 0 then p.statics.getD b.index (0, 0)
    else if b.cls = cls then (buf b.index).getD (0, 0)
    else (0, 0)

/-- LC_CAP in percent (R437). -/
def State.lcCap (s : State) : Nat := min 100 (s.fld 0x20000 23 16)

/-- Kind `k` is capped in the window that contains IT (R418). -/
def State.cappedNow (s : State) (k : Nat) : Bool := s.sch.lcWin == s.winOf s.itNow && s.sch.capped.contains k

/-- A unit counts as best-effort: its command is, or its kind is capped (R416, R418). -/
def State.beUnit (s : State) (u : SUnit) : Bool :=
  s.lcCap == 0 || s.cappedNow u.kind || (match s.cmd u.tok with | some c => !c.lc | none => true)

/-- Client of a unit. -/
def State.unitClient (s : State) (u : SUnit) : Nat := match s.cmd u.tok with | some c => c.client | none => 0

/-- vt(c, k). -/
def State.vt (s : State) (c k : Nat) : Nat := SMap.get (fun _ => 0) s.sch.vt (k * 64 + c)

/-- A unit's command runs, or is saved and may resume (R426, R431). -/
def State.mayHold (s : State) (u : SUnit) : Bool :=
  match s.cmd u.tok with
  | none => false
  | some c => c.phase == .running || (c.phase == .saved && c.begun && !(s.queue c.qid).suspended)

/-- Client `c` gains a ready best-effort unit of kind `k`: where it had none, its virtual time is at least the smallest of the others
(R419). `us`: the units before. -/
def State.liftVt (s : State) (us : List SUnit) (c k : Nat) : State :=
  let be := us.filter fun u => u.kind == k && s.beUnit u && (u.held || s.mayHold u)
  if be.any fun u => s.unitClient u == c then s
  else
    match (be.map fun u => s.vt (s.unitClient u) k).min? with
    | none => s
    | some v => { s with sch := { s.sch with vt := SMap.set (fun _ => 0) (k * 64 + c) (max (s.vt c k) v) s.sch.vt } }

/-- Add a unit of a command (R415, R419): it becomes ready now. `sub`: its number within an engine entry. -/
def State.addUnit (s : State) (tok kind entry : Nat) (tiles : List Nat) (sub : Nat := 0) : State :=
  let u : SUnit := { id := s.sch.nextUnit, tok := tok, kind := kind, entry := entry, tiles := tiles, held := false, inst := 0
                     since := s.itNow, readySeq := s.sch.nextReady, readyAt := s.itNow, asLc := false, sub := sub }
  let s := if s.beUnit u then s.liftVt s.sch.units (s.unitClient u) kind else s
  { s with sch := { s.sch with units := s.sch.units ++ [u], nextUnit := s.sch.nextUnit + 1, nextReady := s.sch.nextReady + 1 } }

/-- Units of one kind for a command's work in `n` parts: one each, at most `cap` (R346, R317). -/
def State.addUnits (s : State) (tok kind cap n : Nat) : State :=
  (List.range (min cap n)).foldl (fun s j => s.addUnit tok kind j []) s

/-- Mover work begins: its pieces on up to 16 movers (R346). -/
def State.startPieces (s : State) (tok : Nat) (ps : List Piece) : State :=
  let s := s.updCmd tok fun c => { c with pieces := ps, total := ps.length }
  s.addUnits tok 6 16 ps.length

/-- The account of client `c` in window `n` changed; accounts of the last four windows are kept. -/
def State.account (s : State) (n : Int) (c : Nat) (f : Acct → Acct) : State :=
  { s with sch := { s.sch with acct := SMap.modify (fun _ => {}) (n.toNat % 4 * 64 + c) (fun a => f { a with active := true }) s.sch.acct } }

/-- An event of client `c` stamped now, in the window R469 gives it. -/
def State.accountNow (s : State) (c : Nat) (f : Acct → Acct) : State :=
  let w := s.placeEvent s.itNow
  (if w.2 then s.bump 0x220038 1 else s).account w.1 c fun a => let a := f a; { a with late := a.late + (if w.2 then 1 else 0) }

/-- Client `c` holds a token in the window that contains IT (R436). -/
def State.clientActive (s : State) (c : Nat) : State := s.account (s.winOf s.itNow) c id

/-- A wait interval of client `c` from `from_` to now (R435). -/
def State.waited (s : State) (c from_ : Nat) : State :=
  let d := s.itNow - from_
  s.accountNow c fun a => { a with waitSum := a.waitSum + d, waitMax := max a.waitMax d }

/-- Overlap of `[a, b)` with window `n`. -/
def State.overlap (s : State) (a b : Nat) (n : Int) : Nat :=
  (min (b : Int) (s.winEnd n) - max (a : Int) (s.winEnd (n - 1))).toNat

/-- The windows a held interval touches, the last four at most. -/
def State.windowsOf (s : State) (a b : Nat) : List Int :=
  let hi := s.winOf b
  let lo := max (s.winOf a) (hi - 3)
  (List.range ((hi - lo).toNat + 1)).map fun i : Nat => lo + (i : Int)

/-- A held interval of a unit, up to now, is charged: LC use or virtual time, and engine time split exactly at
window boundaries (R417, R419, R435). -/
def State.charge (s : State) (u : SUnit) : State :=
  let dt := s.itNow - u.since
  let n := if u.kind = 0 then u.tiles.length else 1
  let client := match s.cmd u.tok with | some c => c.client | none => 0
  let lc := match s.cmd u.tok with | some c => c.lc | none => false
  let w := let w := s.fld (0x20100 + 4 * client) 7 0; if w = 0 then 1 else w
  let s := { s with sch := { s.sch with
    lcUse := if lc then (s.windowsOf u.since s.itNow).foldl (fun (m : SMap Nat) (k : Int) =>
        SMap.modify (fun _ => 0) (k.toNat % 4 * 16 + u.kind) (fun v => v + n * s.overlap u.since s.itNow k) m) s.sch.lcUse
      else s.sch.lcUse
    vt := if u.asLc then s.sch.vt
      else SMap.modify (fun _ => 0) (u.kind * 64 + client) (fun v => (v + n * dt * 256 / w) % 2 ^ 64) s.sch.vt } }
  let s := (s.windowsOf u.since s.itNow).foldl (fun s k => s.account k client fun a =>
    { a with engine := (List.range 10).map fun j => a.engine.getD j 0 + (if j = u.kind then n * s.overlap u.since s.itNow k else 0) }) s
  { s with sch := { s.sch with units := s.sch.units.map fun v => if v.id = u.id then { v with since := s.itNow } else v } }

/-- A unit is done or gives its resource up: its time is charged. -/
def State.dropUnit (s : State) (u : SUnit) : State :=
  let s := if u.held then s.charge u else s
  { s with sch := { s.sch with units := s.sch.units.filter fun v => v.id != u.id } }

/-- Every unit of a command is released. -/
def State.dropUnits (s : State) (tok : Nat) : State :=
  (s.sch.units.filter fun u => u.tok == tok).foldl (fun s u => s.dropUnit u) s

/-- The unit of a kind a command has, for unit `sub` of an entry. -/
def State.unitOf (s : State) (tok kind entry : Nat) (sub : Nat := 0) : Option SUnit :=
  s.sch.units.find? fun u => u.tok == tok && u.kind == kind && u.entry == entry && u.sub == sub

/-- The command's unit holds its resource. -/
def State.holds (s : State) (tok kind entry : Nat) (sub : Nat := 0) : Bool :=
  match s.unitOf tok kind entry sub with
  | some u => u.held
  | none => false

/-- A directed link: sender tile and direction 0 north, 1 east, 2 south, 3 west (R64). -/
def linkKey (phys dir : Nat) : Nat := phys * 4 + dir

/-- Links of some tiles carry nothing any more. -/
def State.clearLinks (s : State) (ts : List Nat) : State :=
  ts.foldl (fun s t => { s with links := SMap.erase (linkKey t 0) 4 s.links }) s

/-- The tiles a command needs stop running: RUNNING and REPLAYING tiles of it are IDLE (R129). -/
def State.idleTiles (s : State) (ts : List Nat) : State :=
  ts.foldl (fun s t =>
    let x := s.tile t
    if x.st = .running ∨ x.st = .replaying then
      s.setTile t { x with st := if x.quarPending then .quarantined else .idle, quarPending := false }
    else s) s

/-- A command's resources are given up at its end. -/
def State.releaseRun (s : State) (tok : Nat) : State :=
  let ts := match (s.cmd tok).bind (·.run) with
    | some r => r.tiles.map (·.phys)
    | none => []
  ((s.dropUnits tok).idleTiles ts).clearLinks ts

/-! ## The end of a STEP and an INGEST_SEQ (R36-R38, R396) -/

/-- Write the STATUS field of every list entry (R35, R389); an entry that cannot be written keeps what it holds. -/
def State.writeStatuses (s : State) (c : Cmd) (sts : List Nat) : State :=
  if c.op = 0x0203 ∧ c.f 0x40 12 0 ≠ 0 then
    ((List.range sts.length).zip sts).foldl (fun s e =>
      ((s.storeBytes ((locH (c.q 0x48)).plus (16 * e.1 + 2)) (leBytes 2 e.2)).orElse s)) s
  else s

/-- A refusal or failure of the whole command: every entry in `sts` has its status already (R36, R394-R396). -/
def State.endWhole (s : State) (c : Cmd) (sts : List Nat) (st detail : Nat) : State :=
  (s.writeStatuses c sts).endCmdS c.tok st detail (if c.op = 0x0203 then c.stream else c.recStream)

/-- A STEP or INGEST_SEQ ends (R36): its record names the first entry that did not commit. An INGEST_SEQ that committed and wrote no byte
ends OK_NOOP, a STEP OK (R163). -/
def State.endStep (s : State) (c : Cmd) (names sts : List Nat) : State :=
  let s := s.writeStatuses c sts
  match ((names.zip sts).find? fun x => x.2 != 0) with
  | none => s.endCmdS c.tok (if c.op = 0x0204 ∧ (c.run.map (·.wrote)) = some false then 0x0101 else 0) 0 c.recStream
  | some x =>
    let bad := (sts.filter fun v => v != 0).length
    if c.op = 0x0203 then s.finishCmd c.tok x.2 bad x.1 else s.finishCmd c.tok x.2 0 c.stream

/-- A stream of a running command fails alone or with it: its reserved pages go back, and it is READY, or PARKED for a fault in
its own memory (R38, R232). -/
def State.failStream (s : State) (tok : Nat) (x : StepStream) (st : Nat) (park : Bool) : State :=
  if !x.passed || x.committed || x.status != 0 then s
  else
    s.after ((s.unreserve x.pend).bind fun s =>
      .ok ((if park then s.setSt x.stream .parked 4 else s.showSt x.stream .ready 0).updStep tok x.listIdx fun y =>
        { y with status := st, pend := [] })) fun _ _ => s

/-- Statuses of a run's list entries. -/
def ProgRun.statuses (r : ProgRun) : List Nat := r.streams.map (·.status)
/-- Streams of its list entries. -/
def ProgRun.names (r : ProgRun) : List Nat := r.streams.map (·.stream)

/-- Fail every uncommitted stream of a command with one status. -/
def State.failStreams (s : State) (tok : Nat) (st : Nat) : State :=
  match (s.cmd tok).bind (·.run) with
  | none => s
  | some r => r.streams.foldl (fun s x => s.failStream tok x st false) s

/-- A running program command fails as a whole (R38, R159, R160, R163): a RUN ends with the status and DETAIL; a STEP and an
INGEST_SEQ fail every stream that has not failed already, and end. `whole`: the record carries the rule's own DETAIL (R36). -/
def State.failRun (s : State) (tok st detail : Nat) (whole : Bool) : State :=
  match s.cmd tok with
  | none => s
  | some c =>
    match c.run with
    | none => s.endCmd tok st detail
    | some r =>
      let s := s.releaseRun tok
      if r.kind = 0 then s.endCmd tok st detail
      else
        let s := s.failStreams tok st
        if s.safe then s
        else
          match (s.cmd tok).bind (·.run) with
          | none => s
          | some r =>
            if whole then s.endWhole c r.statuses st detail
            else if r.kind = 2 then s.endCmdS tok (r.statuses.headD st) detail c.stream
            else s.endStep c r.names r.statuses

/-! ## Stopping and finishing (R160, R163) -/

/-- The tile's next link row is not there and nothing more will come while the command stops: it waits on a link. -/
def TileRun.resting (t : TileRun) : Bool := t.ended || t.stopped || t.mma.isNone

/-- A command that stops ends once each of its tiles rests (R160); its engine units stop where they are. -/
def State.tryStop (s : State) (tok : Nat) : State :=
  match s.cmd tok with
  | none => s
  | some c =>
    match c.stop, c.run with
    | some (st, d), some r =>
      if r.tiles.all TileRun.resting then s.failRun tok st d (st == 0x1001 || st == 0x1002) else s
    | _, _ => s

/-- Stop a command under R160: the first reason stands. `src`: the unit that met it. -/
def State.stopCmd (s : State) (tok src st detail : Nat) : State :=
  let s := match s.cmd tok with
    | some c => s.noteRead c src st detail
    | none => s
  let detail := ownDetail st detail
  (s.updCmd tok fun c =>
    { c with stop := match c.stop with | none => some (st, detail) | some x => some x }).tryStop tok

/-- An error met by a running command's work stops it. -/
def State.runErr (s : State) (tok src : Nat) (r : E State) : State := s.after r fun st d => s.stopCmd tok src st d

/-! ## What a unit meets (R475, R478) -/

/-- The counter of corrected errors of a store (R368, R498, R206): the register and the field's top and bottom bit. -/
def ceCounter (st : Store) (wher src : Nat) : Option (Nat × Nat × Nat) :=
  match st with
  | .palette => some (0x260020, 31, 0)
  | .acc => some (0x260024, 31, 0)
  | .shared => some (0x260028, 31, 0)
  | .hub => some (0x26002C, 31, 0)
  | .bridge => some (0x260030, 31, 0)
  | .hbm => if wher < 384 then some (0x180800 + 4 * wher, 15, 0) else none
  | .glaze => some (0x140020 + 0x1000 * (src % 8), 31, 0)
  | _ => none

/-- A corrected error counts. -/
def State.countCe (s : State) (st : Store) (wher src : Nat) : State :=
  match ceCounter st wher src with
  | some (o, hi, lo) => s.bumpF o hi lo 1
  | none => s

/-- An uncorrectable error counts. -/
def State.countUe (s : State) (st : Store) (wher : Nat) : State :=
  match st with
  | .palette => s.bump 0x260034 1
  | .acc => s.bump 0x260034 1
  | .shared => s.bump 0x260034 1
  | .bridge => s.bump 0x260034 1
  | .hbm => if wher < 384 then s.bumpF (0x180800 + 4 * wher) 31 16 1 else s
  | _ => s

/-- An uncorrectable error at an address counts and is recorded (R365, R368, R478, R587). The place of an error in the device range is its
DVA: the interleave target is that of the granule's frame, and a flash home that fails is POISON. Another store's place is the operand. -/
def State.noteUe (s : State) (src : Nat) (st : Store) (client op tag wher a : Nat) : State :=
  let g := a / gBytes
  let ranged := decide (a < dvaEnd)
  if st = .hbm ∧ ranged ∧ (s.granule g).resident then s.noteEcc src client op tag (a + 1)
  else if st = .flash ∧ ranged ∧ !(s.granule g).resident then
    (s.poisonFlash g).eccRecord src (Store.code st) client op tag (s.channelAt a) a
  else (s.countUe st wher).eccRecord src (Store.code st) client op tag wher a

/-- A line request of the unit is held for tokens: its port is stalled (R351). -/
def State.portHeld (s : State) (src : Nat) : Bool := s.fld 0x181000 0 0 == 1 && s.heldReqs.any fun x => x.2 == src

/-- What a step meets before its work `k`: a unit whose port is stalled does nothing yet; a corrected error counts and a page read that needs
a retry is retried, and the work goes on; a contained error is counted and recorded and `onUe` follows; a hub error and, in Finish, a lockstep
mismatch enter safe state (R351, R358, R475, R478). -/
def State.meet (s : State) (c : Option Cmd) (src : Nat) (h : Hazard) (onUe k : State → State) : State :=
  if s.portHeld src then s
  else
  match h with
  | .none => k s
  | .ce st w => k (s.countCe st w.toNat src)
  | .page a n => k (s.retryPage a.toNat n.val)
  | .ue st w a =>
    let s := match c with
      | some c => s.noteUe src st c.client c.op c.tag w.toNat a.toNat
      | none => s.noteUe src st 0xFF 0xFFFF 0 w.toNat a.toNat
    if st = .hub then s.enterSafe 2 else onUe s
  | .lockstep p i =>
    if s.profile = 2 then (s.record 0x70 2 (srcHub 0) (leBytes 1 p.val ++ leBytes 1 i.val)).enterSafe 1 else k s

/-- As `meet`, for a running command's unit: a contained error stops the command. -/
def State.meetRun (s : State) (tok src : Nat) (h : Hazard) (k : State → State) : State :=
  s.meet (s.cmd tok) src h (fun s => s.stopCmd tok src 0x4002 0) k

/-- The error that made a start-time bound unreadable is counted and recorded (R159, R478). -/
def State.noteStart (s : State) (c : Cmd) (x : Ctx) (e st i : Nat) (h : Hazard) : State :=
  match h with
  | .ue store w a =>
    if st = 0x1002 ∧ x.boundHit (x.p.image.boundsUsed e) h = some i then
      s.noteUe (srcHub 0) store c.client c.op c.tag w.toNat a.toNat
    else s
  | _ => s

/-- What the start of a program command meets: as `meet`, but a contained error matters only where it lies under a start-time bound (R159). -/
def State.meetStart (s : State) (c : Cmd) (h : Hazard) (k : State → State) : State :=
  match h with
  | .ue .hub w a => s.meet (some c) (srcHub 0) (.ue .hub w a) id k
  | .ue _ _ _ => k s
  | h => s.meet (some c) (srcHub 0) h id k

/-- The staging sizes of a STEP for `n` streams (R394): INPUT, OUTPUT, POSITIONS, SCRATCH. -/
def Cmd.stageSizes (c : Cmd) (n : Nat) : List Nat :=
  if c.op = 0x0204 then [0, 0, 16, c.w 0x44] else [n * c.w 0x44, n * c.w 0x60, 16 * n, c.w 0x64]

/-- Where each staged buffer starts: at the base, then at the next multiple of 2 MiB; an empty one takes no space. -/
def stageAt (base : Nat) : List Nat → List Nat
  | [] => []
  | n :: ns => base :: stageAt (if n = 0 then base else roundUp (base + n) mib2) ns

/-- STAGE_BASE. -/
def Cmd.stageBase (c : Cmd) : Nat := c.q 0x68

/-- The buffer a STEP binding code names (R394), for `n` streams. -/
def Cmd.stepBuf (c : Cmd) (sc : Scene) (n code : Nat) : Option (Nat × Nat) :=
  let sizes := c.stageSizes n
  let ats := stageAt c.stageBase sizes
  match code with
  | 0 => if c.op = 0x0204 then some (c.q 0x48, c.q 0x50) else some (ats.getD 0 0, sizes.getD 0 0)
  | 1 => if c.op = 0x0204 then some (c.q 0x58, c.q 0x60) else some (ats.getD 1 0, sizes.getD 1 0)
  | 2 => some (sc.condBase, sc.condBytes)
  | 3 => some (ats.getD 2 0, sizes.getD 2 0)
  | 4 => some (ats.getD 3 0, sizes.getD 3 0)
  | _ => none

/-- Pieces of 2 MiB from a source to a destination (R346). -/
def piecesOf (kind entry : Nat) (src dst : Loc) (len : Nat) (sig : Option (Nat × Nat)) : List Piece :=
  let n := (len + mib2 - 1) / mib2
  (List.range n).map fun i =>
    { src := src.plus (i * mib2), dst := dst.plus (i * mib2), len := min mib2 (len - i * mib2)
      sig := if i + 1 = n then sig else none, kind := kind, entry := entry }

/-- The gather or scatter pieces of a STEP, stream by stream (R395). -/
def ProgRun.slotPieces (r : ProgRun) (c : Cmd) (scatter : Bool) : List Piece :=
  let n := max 1 r.listLen
  let ats := stageAt c.stageBase (c.stageSizes n)
  let ps := if r.kind = 1 then r.passed else []
  ((List.range ps.length).zip ps).flatMap fun x =>
    if scatter then
      (if x.2.status ≠ 0 then [] else
        piecesOf 8 x.2.listIdx (.dva (ats.getD 1 0 + x.1 * c.w 0x60)) (.dva (c.q 0x58 + x.2.outOff)) (c.w 0x60) none)
    else
      piecesOf 7 x.2.listIdx (.dva (c.q 0x50 + x.2.inOff)) (.dva (ats.getD 0 0 + x.1 * c.w 0x44)) (c.w 0x44) none

/-- Write POSITIONS (R394, R395). -/
def State.writePositions (s : State) (c : Cmd) (r : ProgRun) : E State :=
  let n := max 1 r.listLen
  let base := (stageAt c.stageBase (c.stageSizes n)).getD 2 0
  let ps := r.passed
  foldE (fun (s : State) x =>
    s.wr (.dva (base + 16 * x.1)) (leBytes 8 x.2.p0 ++ leBytes 4 x.2.stream ++ leBytes 4 x.2.listIdx)) s ((List.range ps.length).zip ps)

/-- Tiles and engine entries of a command start (R159, R171, R186): its tiles wait for their grant as one unit, each engine entry
as its own. -/
def State.startProgram (s : State) (tok : Nat) : State :=
  match (s.cmd tok).bind (·.run) with
  | none => s
  | some r =>
    match s.runProg r with
    | none => s
    | some p =>
      let im := p.image
      match im.entries[r.entry]? with
      | none => s
      | some en =>
        let tiles := (im.starts en).map fun x =>
          ({ logical := x.1, phys := p.phys x.1, pc := x.2, ended := false, stopped := false, waitObj := none, waitMet := false
             mma := none } : TileRun)
        let ents := (im.issued r.entry).map fun x =>
          let hd := headOf x.2.2
          let obj := r.syncs.getD hd.waitSync 0
          ({ conv := x.1, idx := x.2.1, kind := if x.1 then 3 else engineKind x.2.2, units := []
             waitOn := if hd.waitEn then some (obj, hd.waitValue) else none
             waitMet := hd.waitEn && decide (hd.waitValue ≤ (s.obj obj).value) } : EntryRun)
        let s := s.updRun tok fun r => { r with tiles := tiles, entries := ents, started := true }
        if tiles.isEmpty then s else s.addUnit tok 0 0 (tiles.map (·.phys))

/-- All work of the program has ended. -/
def ProgRun.allDone (r : ProgRun) : Bool :=
  r.started && r.tiles.all (·.ended) && r.entries.all (·.done)

/-- A STEP or INGEST_SEQ whose streams are all committed or failed ends. -/
def State.tryEndStep (s : State) (tok : Nat) : State :=
  match s.cmd tok with
  | none => s
  | some c =>
    match c.run with
    | none => s
    | some r =>
      if r.kind ≠ 0 && r.scattering && c.pieces.isEmpty && r.passed.all (fun x => x.committed || x.status != 0) then
        s.endStep c r.names r.statuses
      else s

/-- Where a program's work has all ended: a RUN ends; a STEP scatters, then commits stream by stream (R163, R395). -/
def State.tryFinish (s : State) (tok : Nat) : State :=
  match s.cmd tok with
  | none => s
  | some c =>
    match c.run with
    | none => s
    | some r =>
      if !r.allDone || r.scattering || c.stop.isSome then s
      else
        let s := s.releaseRun tok
        if r.kind = 0 then s.endCmd tok (if r.wrote then 0 else 0x0101) 0
        else
          let ps := r.slotPieces c true
          let s := s.updCmd tok fun c => { c with pieces := ps, pastLast := true, run := c.run.map fun r => { r with scattering := true } }
          if ps.isEmpty then s.tryEndStep tok else s.addUnit tok 6 0 []

/-- The sync list of a command (R392). -/
def State.syncList (s : State) (a n : Nat) : E (State × List Nat) :=
  foldE (fun (x : State × List Nat) i => do
    let r ← x.1.rdNat ((locH a).plus (4 * i)) 4
    return (r.1, x.2 ++ [bits r.2 13 0])) (s, []) (List.range n)

/-- A binding list (R392): a DVA and a length an entry; a DVA with [63] set does not translate (R374). -/
def State.pairList (s : State) (a n : Nat) : E (State × List (Nat × Nat)) :=
  foldE (fun (x : State × List (Nat × Nat)) i => do
    let r ← x.1.rd ((locH a).plus (16 * i)) 16
    if 2 ^ 63 ≤ leNat (r.2.take 8) then throw (.err 0x1006 0)
    return (r.1, x.2 ++ [(leNat (r.2.take 8), leNat (r.2.drop 8))])) (s, []) (List.range n)

/-- A reservation parks a stream, and its scene's PAGE_SYNC is signalled once (R37, R47). -/
def State.parkForPages (s : State) (i reason : Nat) : State :=
  let s := s.setSt i .parked reason
  match s.scene (s.strm i).scene with
  | some c => s.freeSignal c.pageSync 1
  | none => s

/-- The result of a checked COPY goes to CHECK_ADDR once its last byte has taken effect, unless it failed (R484); a write that must wait leaves
it to write. -/
def State.finishCheck (s : State) (tok : Nat) : State :=
  match s.cmd tok with
  | none => s
  | some c =>
    match c.check with
    | none => s
    | some (r, v) =>
      let t := s.updCmd tok fun c => { c with check := none }
      if c.rfail.isSome then t
      else s.after ((t.wr (locH (c.q 0x78)) (leBytes 8 r ++ leBytes 8 v)).bind fun t =>
        .ok (t.updCmd tok fun c => { c with itDone := t.itNow })) fun st d => t.endCmd tok st d

end Sys2Proof.Machine
end

