-- ==== Sys2Proof/Machine/Array.lean ====
section
/-! DEFINITION. What one MMA computes (03 R79-R84, R589, 04 R97-R105, 05 R151-R154, 07 R220-R221, R227-R228, 08 R252-R256, R264): the rows
its operands give, the values of its accumulators, and the release of an output block. -/

namespace Sys2Proof.Machine

/-! ## The mesh (R64) -/

/-- The tile next to one on its panel: 0 north, 1 east, 2 south, 3 west (R64). -/
def adjacent (t dir : Nat) : Option Nat :=
  let y := t % 16 / 4
  let x := t % 4
  match dir with
  | 0 => if y = 0 then none else some (t - 4)
  | 1 => if x = 3 then none else some (t + 1)
  | 2 => if y = 3 then none else some (t + 4)
  | _ => if x = 0 then none else some (t - 1)

/-- The neighbour a tile's link reaches: retired tiles between pass its traffic straight through (R65). -/
def State.neighbour (s : State) (t dir : Nat) : Option Nat := hop 4 t
where
  /-- At most `fuel` tiles on. -/
  hop : Nat → Nat → Option Nat
    | 0, _ => none
    | fuel + 1, u => match adjacent u dir with
      | none => none
      | some v => if (s.tile v).retireFuse then hop fuel v else some v

/-- The key of the directed link on which tile `t` receives from direction `dir`. -/
def State.inLink (s : State) (t dir : Nat) : Option Nat := (s.neighbour t dir).map fun u => linkKey u ((dir + 2) % 4)

/-- The transfers on a link, oldest first. -/
def State.link (s : State) (k : Nat) : List Transfer := SMap.get (fun _ => []) s.links k

/-- A link changed. -/
def State.setLink (s : State) (k : Nat) (ts : List Transfer) : State := { s with links := SMap.set (fun _ => []) k ts s.links }

/-- A transfer begins on a link. -/
def State.openTransfer (s : State) (k : Nat) : State := s.setLink k (s.link k ++ [{ rows := [], closed := false }])

/-- Change the newest transfer of a link. -/
def State.updLast (s : State) (k : Nat) (f : Transfer → Transfer) : State :=
  let ts := s.link k
  s.setLink k (ts.take (ts.length - 1) ++ (ts.drop (ts.length - 1)).map f)

/-- Change transfer `i` of a link. -/
def State.updTransfer (s : State) (k i : Nat) (f : Transfer → Transfer) : State :=
  s.setLink k (((List.range (s.link k).length).zip (s.link k)).map fun e => if e.1 = i then f e.2 else e.2)

/-- Row `r` of transfer `i` on a link, where it has been sent. -/
def State.linkRow (s : State) (k i r : Nat) : Option LinkRow := ((s.link k)[i]?).bind fun t => t.rows[r]?

/-! ## Extents (R157-R160) -/

/-- A spec at the instruction's own issue: a start-time value, or the word read now. -/
def State.extAt (s : State) (x : Ctx) (r : ProgRun) (w : Nat) : E (State × Nat) :=
  match specRef w with
  | none => .ok (s, bits w 16 0)
  | some i =>
    match x.p.image.bounds[i]? with
    | none => .ok (s, 0)
    | some b =>
      if b.atIssue then
        match s.boundWord x b with
        | .error (.err st d) => .error (.err 0x1002 (i + 256 * eccAddr st d))
        | .error e => .error e
        | .ok v =>
          match b.resolve v.2 with
          | some n => .ok (v.1, n)
          | none => .error (.err 0x1001 i)
      else .ok (s, (SMap.get (fun _ => none) r.bounds i).getD 0)

/-! ## The streaming operand through a descriptor (R249-R255, R264) -/

/-- A descriptor at a command's resolved extents: images, input and output extents, and the windows' extents and origins. -/
structure Geo where
  c : ConvD
  n : Nat
  h : Nat
  w : Nat
  oh : Nat
  ow : Nat
deriving DecidableEq, Repr

/-- Resolve a descriptor (R248, R264). -/
def ConvD.geo (c : ConvD) (r : ProgRun) : Geo :=
  let h := r.ext c.h
  let w := r.ext c.w
  { c := c, n := r.ext c.n, h := h, w := w, oh := if c.owh ≠ 0 then c.owh else c.fullH h
    ow := if c.oww ≠ 0 then c.oww else c.fullW w }

/-- The input tensor as its region holds it: on an axis with an input window, the window (R264, log entry 78). -/
def Geo.input (g : Geo) (r : Region) : Img :=
  { r := r, c := g.c.cin, h := if g.c.iwh ≠ 0 then g.c.iwh else g.h, w := if g.c.iww ≠ 0 then g.c.iww else g.w }

/-- Where the computed rows and columns start in the full output (R264). -/
def Geo.origin (g : Geo) : Nat × Nat := (if g.c.owh ≠ 0 then g.c.oy0 else 0, if g.c.oww ≠ 0 then g.c.ox0 else 0)

/-- A pixel of the full input as its region holds it (R264). -/
def Geo.held (g : Geo) (y x : Nat) : Nat × Nat :=
  (y - (if g.c.iwh ≠ 0 then g.c.iy0 else 0), x - (if g.c.iww ≠ 0 then g.c.ix0 else 0))

/-- The output tensor as its region holds it. -/
def Geo.output (g : Geo) (r : Region) : Img := { r := r, c := g.c.cout, h := g.oh, w := g.ow }

/-- Where tap (ky, kx) of output pixel (y, x) reads: a pixel of the region, or padding. -/
def Geo.tap (g : Geo) (y x ky kx : Nat) : Option (Nat × Nat) :=
  let iy : Int := (((g.origin.1 + y) * g.c.sh + ky * g.c.dh : Nat) : Int) - g.c.pt
  let ix : Int := (((g.origin.2 + x) * g.c.sw + kx * g.c.dw : Nat) : Int) - g.c.pl
  match tapAt g.c.padMode g.h iy, tapAt g.c.padMode g.w ix with
  | some a, some b => some (g.held a b)
  | _, _ => none

/-- The `u` channels from `ch` of a padded tap (R250): PAD_ELEM under PAD_SCALE for real channels of CONST, the zero element
otherwise. -/
def Geo.padding (g : Geo) (f : EFmt) (ch u : Nat) : RowVals :=
  let const := g.c.padMode == 1
  { elems := (List.range u).map fun i => if const && decide (ch + i < g.c.cin) then g.c.padElem else 0
    scales := if f.scaled then [if const then g.c.padScale else f.oneScale] else [] }

/-- CKP of R253. -/
def Geo.ckp (g : Geo) (f : EFmt) (blk : Nat) : Nat := roundUp g.c.ck (if f.scaled then blk else 16)

/-- Row `p` of B under CONV (R253): `k` reduction elements from TAP0 and C0. -/
def State.readConv (s : State) (x : Ctx) (r : Region) (g : Geo) (tap0 c0 p k : Nat) : E (State × RowVals) := do
  let f := r.ef
  let u := if f.scaled then r.blk else 16
  let ckp := max 1 (g.ckp f r.blk)
  let img := g.input r
  let per := max 1 (g.oh * g.ow)
  let b := p / per
  let y := p % per / max 1 g.ow
  let px := p % max 1 g.ow
  let out ← foldE (fun (a : State × RowVals) q => do
    let kap := q * u
    let tap := tap0 + kap / ckp
    let ch := c0 + kap % ckp
    let v ← (match g.tap y px (tap / max 1 g.c.kw) (tap % max 1 g.c.kw) with
      | none => .ok (a.1, g.padding f ch u)
      | some (iy, ix) => do
        let v ← a.1.readGroup x img b (ch / img.cb) iy ix
        return (v.1, ({ elems := (v.2.elems.drop (ch % img.cb)).take u
                        scales := (v.2.scales.drop (ch % img.cb / r.blk)).take 1 } : RowVals)))
    let es := ((List.range u).zip v.2.elems).map fun e => if c0 + g.c.ck ≤ ch + e.1 ∨ g.c.cin ≤ ch + e.1 then 0 else e.2
    return (v.1, { elems := a.2.elems ++ es, scales := a.2.scales ++ v.2.scales }))
    (s, { elems := [], scales := [] }) (List.range ((k + u - 1) / u))
  return (out.1, { out.2 with elems := out.2.elems.take k })

/-! ## Spares (R123, R124) -/

/-- A spare row or column: the logical one it replaces now, whether it is bad, and whether the factory assigned it (R135). -/
structure Spare where
  use : Option Nat := none
  bad : Bool := false
  factory : Bool := false
deriving DecidableEq, Repr

/-- Field records (R133): kind and spare of a record act on this list of spares of one axis (`col`: columns). -/
def spareStep (col : Bool) (xs : List Spare) (r : FieldRec) : List Spare :=
  let at_ (f : Nat → Spare → Spare) : List Spare := ((List.range xs.length).zip xs).map fun e => f e.1 e.2
  if r.kind = (if col then 1 else 0) then
    at_ fun n x =>
      if n = r.spare then { x with use := some r.logical }
      else if x.use = some r.logical then { x with use := none, bad := true } else x
  else if r.kind = (if col then 3 else 2) then at_ fun n x => if n = r.spare then { x with use := none, bad := true } else x
  else xs

/-- The tile's eight spare rows, or columns: the factory repair, then the records in order (R123). -/
def Tile.spares (x : Tile) (col : Bool) : List Spare :=
  let fact := if col then x.factCol else x.factRow
  let base := (List.range 8).map fun n =>
    match fact.getD n none with
    | some l => ({ use := some l, factory := true } : Spare)
    | none => {}
  x.recs.foldl (spareStep col) base

/-- A spare neither in use nor bad. -/
def Spare.free (x : Spare) : Bool := x.use.isNone && !x.bad

/-- The logical column a physical column serves (R122-R124): a replaced one is bypassed, and a spare serves the one it replaces. -/
def Tile.serves (x : Tile) (p : Nat) : Option Nat :=
  let sp := x.spares true
  if p < 256 then (if sp.any fun e => e.use == some p then none else some p) else (sp.getD (p - 256) {}).use

/-! ## The residue check (R114) -/

/-- The residue of a signed integer. -/
def mod7 (x : Int) : Nat := (x % 7).toNat

/-- The integer of an element that the array multiplies: a block-scaled one in its unit (R83), a 16-bit one's significand; none where it is
infinite or NaN. -/
def EFmt.integer (f : EFmt) (c : Nat) : Option Int :=
  match f.dec c with
  | .fin s m e => some (if f.scaled then signedAt s m e f.unitExp else signedAt s m 0 0)
  | _ => none

/-- The integers of the rows of one column's reduction that take part, block by block; a row with an infinity or a NaN is left out. -/
def intBlocks (fa fb : EFmt) (u : Nat) (a b : RowVals) : List (List (Int × Int)) :=
  let ps := (a.elems.zip b.elems).map fun e => match fa.integer e.1, fb.integer e.2 with
    | some x, some y => some (x, y)
    | _, _ => none
  (chunksOf u ps.length ps).map fun q => q.filterMap id

/-- got and pred of one compare: `qs` the blocks of the pass; a fault adds `d` to the sum of block `k`. -/
def residues (qs : List (List (Int × Int))) (k : Nat) (d : Int) : Nat × Nat :=
  ((List.range qs.length).zip qs).foldl (fun a e =>
    let sum := e.2.foldl (fun t x => t + x.1 * x.2) (if e.1 = k then d else 0)
    ((a.1 + mod7 sum) % 7, e.2.foldl (fun p x => (p + mod7 x.1 * mod7 x.2) % 7) a.2)) (0, 0)

/-- The compare of the pass that holds the faulty block fails; `per`: blocks of a pass. -/
def compareFails (f : ColFault) (per : Nat) (qs : List (List (Int × Int))) : Bool :=
  decide (f.blk < qs.length) &&
    (let r := residues ((qs.drop (f.blk / per * per)).take per) (f.blk % per) f.delta
     r.1 != r.2)

/-- The physical columns of the failing compares of an event, each once, lowest first (R116); `fails`: the compare of a fault at a logical
column fails. -/
def Tile.faultCols (x : Tile) (fs : List ColFault) (fails : ColFault → Nat → Bool) : List Nat :=
  (List.range 264).filter fun p => fs.any fun f => f.col.val == p && (match x.serves p with | some j => fails f j | none => false)

/-! ## The sums (R83, R84, R98-R103) -/

/-- One accumulator value: the initial value and every contribution of the reduction in order. -/
def dot (fa fb : EFmt) (blk : Nat) (init : Val) (a b : RowVals) : Val :=
  if fa.scaled then
    let n := a.elems.length
    let as := chunksOf blk n a.elems
    let bs := chunksOf blk n b.elems
    ((List.range as.length).zip (as.zip bs)).foldl (fun acc e =>
      add32 acc (contribution fa fb e.2.1 e.2.2 (a.scales.getD e.1 0) (b.scales.getD e.1 0))) init
  else (a.elems.zip b.elems).foldl (fun acc e => add32 acc (mul32 (fa.dec e.1) (fb.dec e.2))) init

/-- What an MMA needs while it runs: the command's context and run, its tile, and the instruction with its progress. -/
structure MmaCtx where
  x : Ctx
  r : ProgRun
  tok : Nat
  t : Nat
  i : MmaI
  g : MmaProg
deriving DecidableEq, Repr

/-- n-passes of the instruction (R102). -/
def MmaProg.nn (g : MmaProg) : Nat := (g.n + 255) / 256
/-- m-groups of the instruction. -/
def MmaProg.ng (g : MmaProg) : Nat := (g.m + 1023) / 1024
/-- The accumulator half of m-group `g` of n-pass `np` (R104). -/
def MmaProg.parity (p : MmaProg) (np g : Nat) : Nat := (np * p.ng + g) % 2
/-- Output blocks of an m-group. -/
def MmaProg.blocksOf (p : MmaProg) (g : Nat) : Nat := (min 1024 (p.m - g * 1024) + 255) / 256

/-- The link B comes from: with k = 0 its sender sends nothing (R162). -/
def MmaCtx.bLink (c : MmaCtx) : Option Nat := if c.g.k = 0 then none else c.i.b.link

/-- Rows of B or ADD_IN taken from a link come from this transfer of it: ADD_IN takes the second where both use one link. -/
def MmaCtx.bSlot (_ : MmaCtx) : Nat := 0
/-- The transfer ADD_IN takes. -/
def MmaCtx.addSlot (c : MmaCtx) : Nat := if c.bLink.isSome && c.bLink == c.i.add.link then 1 else 0

/-- The descriptor of a CONV MMA, and its input region. -/
def MmaCtx.conv (c : MmaCtx) : Option (Geo × Region) :=
  if c.i.conv then
    (c.x.p.image.conv[c.i.b.index]?).bind fun ws =>
      let d := ConvD.ofWords ws
      (c.x.region d.inReg).map fun r => (d.geo c.r, r)
  else none

/-- Row `p` of the streaming operand; waits where a link has not brought it. -/
def MmaCtx.rowB (c : MmaCtx) (s : State) (p : Nat) : E (State × RowVals) :=
  match c.i.b.link with
  | some d =>
    match (s.inLink c.t d).bind fun k => s.linkRow k c.bSlot p with
    | some v => .ok (s, { elems := v.elems, scales := v.scales })
    | none => .error .wait
  | none =>
    match c.conv with
    | some (g, r) => s.readConv c.x r g (bits c.i.b.col0 23 14) (bits c.i.b.col0 13 0) (c.i.b.row0 + p) c.g.k
    | none =>
      match c.x.region c.i.b.index with
      | some r => s.readAny c.x r (c.i.b.row0 + p) c.i.b.col0 c.g.k
      | none => .ok (s, { elems := [], scales := [] })

/-- Row `j` of the stationary operand. -/
def MmaCtx.rowA (c : MmaCtx) (s : State) (j : Nat) : E (State × RowVals) :=
  match c.x.region c.i.a.index with
  | some r => s.readRow c.x r (c.i.a.row0 + j) c.i.a.col0 c.g.k
  | none => .ok (s, { elems := [], scales := [] })

/-- The initial values of columns `c0` to `c0 + w - 1` (R103). -/
def MmaCtx.initial (c : MmaCtx) (s : State) (c0 w : Nat) : E (State × List Val) :=
  if c.i.init then
    match c.x.region c.i.bias.index with
    | some r => s.readVals c.x r c.i.bias.row0 (c.i.bias.col0 + c0) w
    | none => .ok (s, List.replicate w Val.zero)
  else .ok (s, List.replicate w Val.zero)

/-- BLOCK of the pair (R151). -/
def MmaI.blk (i : MmaI) : Nat := if i.block = 1 then 16 else 32
/-- Format of A. -/
def MmaI.fa (i : MmaI) : EFmt := (EFmt.ofCode i.sfmt).getD .b16
/-- Format of B. -/
def MmaI.fb (i : MmaI) : EFmt := (EFmt.ofCode i.afmt).getD .b16

/-- The key of an accumulator value. -/
def accKey (t slot row col : Nat) : Nat := t * 524288 + slot * 65536 + row * 256 + col

/-- The compare of fault `f` at logical column `j`, in the blocks `bs` of m-group (np, g), fails (R114). -/
def MmaCtx.faultFails (c : MmaCtx) (s : State) (np g : Nat) (bs : List Nat) (f : ColFault) (j : Nat) : Bool :=
  let p := g * 1024 + f.row
  if decide (j < min 256 (c.g.n - np * 256)) && decide (p < c.g.m) && bs.contains (f.row / 256) && decide (0 < c.g.k) then
    match c.rowA s (np * 256 + j) with
    | .ok a => (match c.rowB a.1 p with
      | .ok b =>
        let u := if c.i.fa.scaled then c.i.blk else 16
        compareFails f (256 / u) (intBlocks c.i.fa c.i.fb u a.2 b.2)
      | .error _ => false)
    | .error _ => false
  else false

/-- Compute output blocks `bs` of m-group (np, g): every k-pass of their rows, into their accumulator slots (R102, R103). -/
def MmaCtx.compute (c : MmaCtx) (s : State) (np g : Nat) (bs : List Nat) : E State := do
  let c0 := np * 256
  let w := min 256 (c.g.n - c0)
  let ini ← c.initial s c0 w
  let as ← foldE (fun (a : State × List RowVals) j => do
    let v ← (if c.g.k = 0 then .ok (a.1, { elems := [], scales := [] }) else c.rowA a.1 (c0 + j))
    return (v.1, a.2 ++ [v.2])) (ini.1, []) (List.range w)
  foldE (fun (s : State) b => do
    let r0 := g * 1024 + b * 256
    foldE (fun (s : State) p => do
      let v ← (if c.g.k = 0 then .ok (s, { elems := [], scales := [] }) else c.rowB s p)
      let vals := (ini.2.zip as.2).map fun e => dot c.i.fa c.i.fb c.i.blk e.1 e.2 v.2
      let slot := c.g.parity np g * 4 + b
      let acc := ((List.range w).zip vals).foldl (fun acc e =>
        SMap.set (fun _ => 0) (accKey c.t slot (p - r0) e.1) (enc32 e.2) acc) v.1.acc
      return { v.1 with acc := acc }) s ((List.range (min 256 (c.g.m - r0))).map (· + r0))) as.1 bs

/-! ## Release (R105) -/

/-- The accumulator values of row `i` of an output block. -/
def MmaCtx.accRow (c : MmaCtx) (s : State) (np g b i : Nat) : List Val :=
  let slot := c.g.parity np g * 4 + b
  (List.range (min 256 (c.g.n - np * 256))).map fun j => dec32 (SMap.get (fun _ => 0) s.acc (accKey c.t slot i j))

/-- ADD_IN of one row (R105 step 1). -/
def MmaCtx.addIn (c : MmaCtx) (s : State) (np p : Nat) (vs : List Val) : E (State × List Val) :=
  let c0 := np * 256
  match c.i.add.link with
  | some d =>
    match (s.inLink c.t d).bind fun k => s.linkRow k c.addSlot p with
    | some v => .ok (s, vs.zipWith add32 ((v.elems.drop c0).map dec32))
    | none => .error .wait
  | none =>
    match (if c.i.add.kind = 1 then c.x.region c.i.add.index else none) with
    | some r => do
      let v ← s.readVals c.x r (c.i.add.row0 + p) (c.i.add.col0 + c0) vs.length
      return (v.1, vs.zipWith add32 v.2)
    | none => .ok (s, vs)

/-- Stream, position and element of a written element (R589): row and element of a region, an image, or a link's. -/
def MmaCtx.place (c : MmaCtx) (cmd : Cmd) (row e rowElems : Nat) : Nat × Nat × Nat :=
  let q := max 1 (c.r.q cmd)
  if c.r.kind = 0 then (0xFFFF, 0, row * rowElems + e)
  else
    match c.r.nth (row / q) with
    | some x => (x.stream, x.p0 + row % q, e)
    | none => (0xFFFF, 0, row * rowElems + e)

/-- Rounding modes of a row of elements (R87, R94, R95): `at_` gives stream, position and element of each. -/
def MmaCtx.modes (c : MmaCtx) (s : State) (cmd : Cmd) (n : Nat) (at_ : Nat → Nat × Nat × Nat) : List RMode :=
  let cv := cvtOf c.i.cvt
  (List.range n).map fun j =>
    let a := at_ j
    cv.mode .other (s.profile == 0) (rndWord cmd.seed a.1 a.2.1 1 c.i.site a.2.2)

/-- The zero code to the pad channels of the last group of a pixel, from the block that holds channel C - 1 on: `part` of its channels
are written already (R246). An S4 element that shares its byte with a channel nobody writes keeps that channel's code. -/
def State.writePads (s : State) (x : Ctx) (i : Img) (p part : Nat) : E State := do
  let f := i.r.ef
  let real := i.c - (i.groups - 1) * i.cb
  let from_ := if real ≤ part then roundUp real i.r.blk else real
  if i.cb ≤ from_ then return s
  let at_ := (x.p.planeLoc x.binds i.r false).plus (p * i.cb * f.bits / 8)
  let odd := f == .s4 && from_ % 2 == 1
  let s ← (if odd then do
      let v ← s.rdNat (at_.plus (from_ / 2)) 1
      v.1.wr (at_.plus (from_ / 2)) (leBytes 1 (v.2 % 16))
    else .ok s)
  let from2 := if odd then from_ + 1 else from_
  let s ← s.wr (at_.plus (from2 * f.bits / 8)) (pack f (List.replicate (i.cb - from2) 0))
  if f.scaled then
    let b0 := roundUp real i.r.blk / i.r.blk
    s.wr ((x.p.planeLoc x.binds i.r true).plus ((p * (i.cb / i.r.blk) + b0) * f.scaleBytes))
      ((List.replicate (i.cb / i.r.blk - b0) f.oneScale).flatMap fun k => leBytes f.scaleBytes k)
  else return s

/-- Write channels `ch` to `ch + n - 1` of one pixel of an image, and the zero code to the pad channels of the last group where some
channel of it is written (R246, R256). -/
def State.writeChans (s : State) (x : Ctx) (i : Img) (b y px ch : Nat) (v : RowVals) : E State := do
  let f := i.r.ef
  let n := v.elems.length
  let starts := (List.range ((n + i.cb - 1) / i.cb)).map (· * i.cb)
  foldE (fun (s : State) o => do
    let g := (ch + o) / i.cb
    let part := (v.elems.drop o).take i.cb
    let es := part ++ List.replicate (roundUp part.length i.r.blk - part.length) 0
    let p := i.pix b g y px
    let s ← s.wr ((x.p.planeLoc x.binds i.r false).plus (p * i.cb * f.bits / 8)) (pack f es)
    let s ← (if f.scaled then
        let sc := (v.scales.drop (o / i.r.blk)).take ((part.length + i.r.blk - 1) / i.r.blk)
        s.wr ((x.p.planeLoc x.binds i.r true).plus (p * (i.cb / i.r.blk) * f.scaleBytes)) (sc.flatMap fun k => leBytes f.scaleBytes k)
      else .ok s)
    if g + 1 = i.groups then s.writePads x i p part.length else return s) s starts

/-! ## Rotary positions and the cache pages (R220, R221, R227, R228) -/

/-- The frequencies of an attention entry (R215). -/
def State.freqs (s : State) (x : Ctx) (a : AttE) : E (State × List Nat) := do
  let n := a.pf + a.pr + a.pc
  match x.region a.freq.index with
  | none => return (s, [])
  | some r =>
    let v ← s.rd (x.p.planeLoc x.binds r false) (8 * n)
    return (v.1, (List.range n).map fun i => leNat ((v.2.drop (8 * i)).take 8))

/-- The angle of pair `i` at a position, in 2^-24 turns (R220); none where the pair is not rotated. -/
def AttE.angle (a : AttE) (sc : Scene) (fs : List Nat) (pos i : Nat) : Option Nat :=
  if a.pf + a.pr + a.pc ≤ i then none
  else
    let ax := if i < a.pf then pos / sc.f else if i < a.pf + a.pr then pos % sc.f / sc.cols else pos % sc.cols
    some (ax * fs.getD i 0 % 2 ^ 64 / 2 ^ 40)

/-- One pair rotated (R221). -/
def rotatePair (t : Option Nat) (x0 x1 : Val) : Val × Val :=
  match t with
  | none => (x0, x1)
  | some t =>
    let cs := cosSinTurn t
    (r32 ((x0.mul cs.1).sub (x1.mul cs.2)), r32 ((x0.mul cs.2).add (x1.mul cs.1)))

/-- The dimensions from `d0` of one head at a position, rotated; `d0` and the length are even. -/
def AttE.rotate (a : AttE) (sc : Scene) (fs : List Nat) (pos : Nat) : Nat → List Val → List Val
  | d0, x0 :: x1 :: xs =>
    let r := rotatePair (a.angle sc fs pos (d0 / 2)) x0 x1
    r.1 :: r.2 :: a.rotate sc fs pos (d0 + 2) xs
  | _, xs => xs

/-- The conversion of cached keys and values (R227). -/
def AttE.cvt (a : AttE) : Cvt := { fmt := a.ef, sat := true, ceil := false, block := if a.block = 1 then 16 else 32, rnd := 1 }

/-- The page a stream's pending map gives a position of a layer. -/
def StepStream.pageAt (x : StepStream) (layer pos : Nat) : Option Nat :=
  (x.pend.find? fun p => p.layer == layer && p.j == pos / 64).map (·.page)

/-- Append part of one key row: columns `c0` on of stream `x` at `pos`, in runs of one scale block. -/
def State.appendKeys (s : State) (a : AttE) (layer : Nat) (sc : Scene) (fs : List Nat) (x : StepStream) (pos c0 : Nat)
    (vs : List Val) : E State :=
  match x.pageAt layer pos with
  | none => .ok s
  | some pg =>
    let at_ := s.pool.pageLoc pg
    let u := if a.ef.scaled then a.blk else 32
    foldE (fun (s : State) o => do
      let part := (vs.drop o).take u
      let h := (c0 + o) / a.dh
      let d := (c0 + o) % a.dh
      let k := convRow a.cvt (a.rotate sc fs pos d part) (allRne part)
      let off := a.keyOff h (pos % 64) d
      let s ← s.wr (.dva (at_.1 + off.1)) (pack a.ef k.1)
      if a.ef.scaled then s.wr (.dva (at_.2 + off.2)) (k.2.1.flatMap fun c => leBytes 1 c) else return s)
      s ((List.range ((vs.length + u - 1) / u)).map (· * u))

/-- Append one run of positions of one value column: `vs` its values from position `pos` on, all in one scale block. -/
def State.appendValues (s : State) (a : AttE) (layer : Nat) (x : StepStream) (pos col : Nat) (vs : List Val) : E State :=
  match x.pageAt layer pos with
  | none => .ok s
  | some pg => do
    let at_ := s.pool.pageLoc pg
    let k := convRow a.cvt vs (allRne vs)
    let off := a.valOff (col / a.dh) (pos % 64) (col % a.dh)
    let s ← s.wr (.dva (at_.1 + off.1)) (pack a.ef k.1)
    if a.ef.scaled then s.wr (.dva (at_.2 + off.2)) (leBytes 1 (k.2.1.headD 0)) else return s

/-- Runs of block rows that lie in one scale block of one stream: first row, stream number, first position, count. -/
def runsOf (q u base n : Nat) : List (Nat × Nat × Nat × Nat) :=
  let starts := (List.range n).filter fun i => i == 0 || (base + i) % q % u == 0
  starts.map fun i =>
    let nx := ((starts.filter fun j => decide (i < j)).min?).getD n
    (i, (base + i) / q, (base + i) % q, nx - i)

/-- Release a block into cache pages (R227): rows from command row `row`, columns from `c0`; `vals` row by row. -/
def MmaCtx.append (c : MmaCtx) (s : State) (cmd : Cmd) (row c0 : Nat) (vals : List (List Val)) : E State :=
  match c.x.p.image.engine[c.i.d.index]?, s.scene c.r.scene with
  | some ws, some sc => do
    let a := (AttE.ofWords ws).under (bits c.x.p.flags 1 1 == 1)
    let q := max 1 (c.r.q cmd)
    let live (n : Nat) : Option StepStream := (c.r.nth n).filter fun x => x.status == 0
    if c.i.d.col0 = 0 then
      let fs ← s.freqs c.x a
      foldE (fun (s : State) e =>
        match live ((row + e.1) / q) with
        | none => .ok s
        | some x => s.appendKeys a c.i.d.index sc fs.2 x (x.p0 + (row + e.1) % q) c0 e.2) fs.1
        ((List.range vals.length).zip vals)
    else
      let u := if a.ef.scaled then a.blk else 1
      foldE (fun (s : State) r =>
        match live r.2.1 with
        | none => .ok s
        | some x =>
          let part := (vals.drop r.1).take r.2.2.2
          foldE (fun (s : State) j =>
            s.appendValues a c.i.d.index x (x.p0 + r.2.2.1) (c0 + j) (part.map fun v => v.getD j Val.zero)) s
            (List.range ((part.headD []).length))) s (runsOf q u row vals.length)
  | _, _ => .ok s

/-- Egress of one converted row to a region, a link or an image (R105 step 3, R154, R256, R589). -/
def MmaCtx.egressRow (c : MmaCtx) (s : State) (cmd : Cmd) (np p : Nat) (vs : List Val) : E State :=
  let c0 := np * 256
  let cv := cvtOf c.i.cvt
  match c.i.d.kind with
  | 1 =>
    match c.x.region c.i.d.index with
    | none => .ok s
    | some r => do
      let row := c.i.d.row0 + p
      let col := c.i.d.col0 + c0
      let k ← s.writeVals c.x r cv (c.modes s cmd vs.length fun j => c.place cmd row (col + j) r.rowElems) row col vs
      return k.1
  | 3 =>
    match c.x.p.image.conv[c.i.d.index]? with
    | none => .ok s
    | some ws =>
      let g := (ConvD.ofWords ws).geo c.r
      match c.x.region g.c.outReg with
      | none => .ok s
      | some r =>
        let img := g.output r
        let per := max 1 (g.oh * g.ow)
        let px := c.i.d.row0 + p
        let b := px / per
        let y := px % per / max 1 g.ow
        let xx := px % max 1 g.ow
        let ch := c.i.d.col0 + c0
        let keep := vs.take (g.c.cout - ch)
        let el (j : Nat) : Nat := ((b * g.c.cout + ch + j) * g.oh + y) * g.ow + xx
        let k := convRow cv keep (c.modes s cmd keep.length fun j => (0xFFFF, 0, el j))
        s.writeChans c.x img b y xx ch { elems := k.1, scales := k.2.1 }
  | kd =>
    if 4 ≤ kd then
      let k := convRow cv vs (c.modes s cmd vs.length fun j => (0xFFFF, 0, p * c.g.n + c0 + j))
      .ok (s.updLast (linkKey c.t (kd - 4)) fun t => { t with rows := t.rows ++ [{ elems := k.1, scales := k.2.1 }] })
    else .ok s

/-- Release of output block (np, g, b) (R105): ADD_IN, conversion and egress of its rows in order. -/
def MmaCtx.release (c : MmaCtx) (s : State) (cmd : Cmd) (np g b : Nat) : E State := do
  let r0 := g * 1024 + b * 256
  let rows := List.range (min 256 (c.g.m - r0))
  if c.i.d.kind = 2 then
    let v ← foldE (fun (a : State × List (List Val)) i => do
      let v ← c.addIn a.1 np (r0 + i) (c.accRow a.1 np g b i)
      return (v.1, a.2 ++ [v.2])) (s, []) rows
    c.append v.1 cmd (c.i.d.row0 + r0) (np * 256) v.2
  else
    foldE (fun (s : State) i => do
      let v ← c.addIn s np (r0 + i) (c.accRow s np g b i)
      c.egressRow v.1 cmd np (r0 + i) v.2) s rows

end Sys2Proof.Machine
end

