-- ==== Sys2Proof/Machine/Loader.lean ====
section
/-! DEFINITION. The loader's checks (05 R164, with R136-R157, R166-R167; 03 R73, R80, R82, R86; 06 R181, R183; 07 R216, R227; 08 R245,
R247-R248, R250, R256-R257, R260-R265, R271; 10 R296-R301; 12 R394): for each reason, in the table's order, the index of the first
offending item. -/

namespace Sys2Proof.Machine

/-- What a load checks: the image's bytes and length, the length the command gives, its section table and sections, the static
binding list, and the module's revision. -/
structure LoadIn where
  c : SMap Byte
  n : Nat
  ss : List Section
  im : Image
  statics : List (Nat × Nat)
  major : Nat
  minor : Nat
deriving DecidableEq, Repr

/-- Some word of an entry of words `o`, `o + 4`, … has a bit outside its mask. -/
def badMask (w : Nat → Nat) (masks : List Nat) : Bool :=
  ((List.range masks.length).zip masks).any fun e => outside (w (4 * e.1)) e.2

/-- Index of the first list item that satisfies a test, with its position. -/
def firstBad {α : Type} (q : Nat → α → Bool) (xs : List α) : Option Nat :=
  (((List.range xs.length).zip xs).find? fun e => q e.1 e.2).map (·.1)

/-- `k` words of all ones. -/
def ones (k : Nat) : List Nat := List.replicate k wAll
/-- `k` reserved words. -/
def zeros (k : Nat) : List Nat := List.replicate k 0

/-- Entries of a section with a reserved bit set. -/
def LoadIn.resv (l : LoadIn) (typ : Nat) (masks : List Nat) : List Bool :=
  (entryOffs l.ss typ).map fun o => badMask (fun k => cW l.c (o + k)) masks

/-! ## Reasons 0x01 to 0x06 -/

/-- HEADER (R136). -/
def LoadIn.header (l : LoadIn) (param : Nat) : Option Nat :=
  let w := cW l.c
  if w 0 ≠ 0x44524241 ∨ w 4 % 65536 ≠ 1 ∨ w 0xC ≠ param ∨ 268435456 < param ∨ 65536 ≤ w 0x10 ∨
      ((List.range 10).any fun i => w (0x14 + 4 * i) != 0) then some 0 else none

/-- A section lies wholly inside the image. -/
def LoadIn.inside (l : LoadIn) (x : Section) : Bool := decide (x.off + x.bytes ≤ l.n)

/-- Bytes of a run of the image. -/
def LoadIn.run (l : LoadIn) (o n : Nat) : List Byte := bytesOf n (SMap.slice o n 0 l.c)

/-- CRC (R136, R137). -/
def LoadIn.crc (l : LoadIn) : Option Nat :=
  let whole := l.run 0 0x3C ++ [0, 0, 0, 0] ++ l.run 0x40 (l.n - 0x40)
  if crc32c whole ≠ cW l.c 0x3C then some 0
  else firstBad (fun _ x => l.inside x && crc32c (l.run x.off x.bytes) != x.crc) l.ss

/-- TARGET (R136). -/
def LoadIn.target (l : LoadIn) : Option Nat :=
  let w := cW l.c 8
  let mj := bits w 23 16
  let mn := bits w 31 24
  if w % 65536 ≠ 0x2416 ∨ l.major < mj ∨ (l.major = mj ∧ l.minor < mn) then some 0 else none

/-- SECTION (R137, R138); the reserved bits of the table's entries and an OFFSET that is no multiple of 64 are refused here (DESIGN CHOICE, log
entry 89). -/
def LoadIn.section (l : LoadIn) : Option Nat :=
  let n := cW l.c 0x10 % 65536
  if 64 < n ∨ l.n < 0x40 + 16 * n then some 0
  else
    let laps (i : Nat) (x : Section) : Bool :=
      x.bytes != 0 && (decide (x.off < 0x40 + 16 * n) ||
        ((l.ss.take i).any fun y => y.bytes != 0 && decide (x.off < y.off + y.bytes) && decide (y.off < x.off + x.bytes)))
    (firstBad (fun i x =>
      x.resv != 0 || ((l.ss.take i).any fun y => y.typ == x.typ) || x.off % 64 != 0 || !l.inside x || laps i x ||
      (match entryBytes x.typ with | some b => x.bytes % b != 0 | none => !x.skippable)) l.ss) <|>
    ([1, 2, 5, 6].find? fun t => !(l.ss.any fun x => x.typ == t))

/-- COUNT (R138, R139). -/
def LoadIn.count (l : LoadIn) : Option Nat :=
  (firstBad (fun _ x => match entryBytes x.typ with
    | none => false
    | some b =>
      let lim := entryLimits x.typ
      decide (x.bytes / b < lim.1) || decide (lim.2 < x.bytes / b)) l.ss) <|>
  firstBad (fun _ t => t.codeCount == 0 || decide (16384 < t.codeCount) ||
    decide (l.im.code.length < t.codeFirst + t.codeCount)) l.im.ltiles

/-- LTILE (R139-R141); the reserved bits of LTILE and GROUP entries are refused here (DESIGN CHOICE, log entry 89). -/
def LoadIn.ltile (l : LoadIn) : Option Nat :=
  let rt := l.resv 1 [0xFFFF, wAll, wAll, wAll]
  let rg := l.resv 2 [0xFFFF, wAll, 0, 0]
  (firstBad (fun i t =>
    rt.getD i false || (match l.im.groups[t.group]? with
      | none => true
      | some g => decide (g.rows ≤ t.y) || decide (g.cols ≤ t.x)) ||
    ((l.im.ltiles.take i).any fun u => u.group == t.group && u.y == t.y && u.x == t.x) || t.palBytes % 64 != 0 ||
    decide (palBytes < 64 * t.codeCount + t.palBytes)) l.im.ltiles) <|>
  firstBad (fun i g =>
    rg.getD i false || g.rows == 0 || decide (4 < g.rows) || g.cols == 0 || decide (4 < g.cols) || g.sharedBytes % 512 != 0 ||
    decide (shrBytes < g.sharedBytes) ||
    ((List.range (g.rows * g.cols)).any fun k =>
      !(l.im.ltiles.any fun t => t.group == i && t.y == k / g.cols && t.x == k % g.cols))) l.im.groups

/-! ## Reason 0x07 REGION -/

/-- The size rules of R147 and R148 that the format enters hold. -/
def Region.sizesOk (r : Region) : Bool :=
  let f := r.ef
  let sb := f.scaleBytes
  if r.layout = 0 then
    let nb := (r.rowElems + r.blk - 1) / r.blk
    decide (roundUp (nb * r.blk * f.bits / 8) 64 ≤ r.rowPitch) &&
    (!f.scaled || (decide (nb * sb ≤ r.scalePitch) && decide (r.rows * r.scalePitch ≤ r.scaleBytes)))
  else if r.layout = 1 then
    let w := 32 * r.rho * f.bits / 8
    let gt := (r.rows + r.rho - 1) / max 1 r.rho
    let q := (r.rowElems + 255) / 256
    decide (q * gt * 8 * w ≤ r.elemBytes) &&
    (!f.scaled || decide (q * gt * (r.rho * (256 / r.blk) * sb) ≤ r.scaleBytes))
  else true

/-- Planes of a region: base and length, empty ones left out. -/
def Region.planes (r : Region) : List (Nat × Nat) :=
  [(r.elemBase, r.elemBytes), (r.scaleBase, r.scaleBytes)].filter fun p => p.2 != 0

/-- Two byte runs overlap. -/
def runsOverlap (a b : Nat × Nat) : Bool :=
  a.2 != 0 && b.2 != 0 && decide (a.1 < b.1 + b.2) && decide (b.1 < a.1 + a.2)

/-- Two regions of one reservation or buffer overlap in some plane. -/
def Region.overlaps (r q : Region) : Bool :=
  r.kind == q.kind && r.owner == q.owner && r.binding == q.binding && r.planes.any fun a => q.planes.any fun b => runsOverlap a b

/-- One region entry is refused (R145, R147-R149). A reserved FMT is FORMAT's: of a region with one, only the rules that no element
size enters are checked here. -/
def LoadIn.regionBad (l : LoadIn) (resv : Bool) (i : Nat) (r : Region) : Bool :=
  let kindsBad :=
    resv || r.kind == 0 || decide (3 < r.kind) || decide (3 < r.bind) || decide (1 < r.block) || (r.kind == 3) != (r.bind != 0) ||
    (r.layout == 1) != (r.rho != 0) || (r.layout == 1 && (r.kind != 1 || !([1, 2, 4].contains r.rho))) ||
    (match r.kind with
     | 1 => decide (l.im.ltiles.length ≤ r.owner) || r.binding != 0
     | 2 => decide (l.im.groups.length ≤ r.owner) || r.binding != 0
     | _ => r.owner != 0 || (match l.im.bindings[r.binding]? with | none => true | some b => b.cls + 1 != r.bind))
  let known := (EFmt.ofCode r.fmt).isSome
  if kindsBad then true
  else
    let align := if r.kind = 1 then 64 else 512
    let limit := match r.kind with
      | 1 => ((l.im.ltiles[r.owner]?).map (·.palBytes)).getD 0
      | 2 => ((l.im.groups[r.owner]?).map (·.sharedBytes)).getD 0
      | _ => ((l.im.bindings[r.binding]?).map (·.minBytes)).getD 0
    (known && ((r.block != 0 && !r.ef.scaled) || (!r.ef.scaled && (r.scaleBase != 0 || r.scaleBytes != 0)) || !r.sizesOk)) ||
    (r.layout == 0 && (r.rowPitch % 64 != 0 || decide (r.elemBytes < r.rows * r.rowPitch))) ||
    (2 ≤ r.layout && (r.rowPitch != 0 || r.scalePitch != 0 || r.rows != 0 || r.rowElems != 0)) ||
    r.elemBase % align != 0 || r.scaleBase % align != 0 || (r.planes.any fun p => decide (limit < p.1 + p.2)) ||
    (r.kind == 1 && (l.im.regions.take i).any fun q => q.overlaps r)

/-- REGION. -/
def LoadIn.region (l : LoadIn) : Option Nat :=
  let rs := l.resv 3 ([0x0FF33FFF] ++ ones 13 ++ zeros 2)
  firstBad (fun i r => l.regionBad (rs.getD i false) i r) l.im.regions

/-! ## Reasons 0x08 to 0x0A -/

/-- OPCODE (R150-R155, R157). -/
def LoadIn.opcode (l : LoadIn) : Option Nat := firstBad (fun _ w => (TInstr.ofWords w).isNone) l.im.code

/-- Region a reference names. -/
def Image.refRegion (p : Image) (r : ORef) : Option Region := if r.kind = 1 then p.regions[r.index]? else none

/-- A region has this format and BLOCK code. -/
def Region.isFmt (r : Region) (fmt block : Nat) : Bool := r.fmt == fmt && (!r.ef.scaled || r.block == block)

/-- A reference, where it names a region, agrees with a format and BLOCK code. -/
def Image.refFmt (p : Image) (r : ORef) (fmt block : Nat) : Bool :=
  match p.refRegion r with
  | none => true
  | some x => x.isFmt fmt block

/-- BLOCK code of a CVT word. -/
def cvtBlockCode (w : Nat) : Nat := bits w 5 4

/-- An instruction breaks FORMAT (R73, R80, R82). -/
def Image.fmtBad (p : Image) (i : TInstr) : Bool :=
  match i with
  | .mma m =>
    match EFmt.ofCode m.sfmt, EFmt.ofCode m.afmt with
    | some a, some b =>
      let bregion := if m.conv then (p.conv[m.b.index]?).bind fun w => p.regions[(ConvD.ofWords w).inReg]? else p.refRegion m.b
      !pairOk a b || decide ((if a.scaled then 1 else 0) < m.block) || !p.refFmt m.a m.sfmt m.block ||
      (match bregion with
       | none => false
       | some r => !r.isFmt m.afmt m.block || (r.layout == 1 && r.rho != pairRho a b)) ||
      !p.refFmt m.bias 0 0 || !p.refFmt m.add 0 0 ||
      (match Cvt.ofWord m.cvt with
       | none => false
       | some _ => !p.refFmt m.d (bits m.cvt 11 8) (cvtBlockCode m.cvt))
    | _, _ => true
  | .fwd m => moveBad m
  | .stage m => moveBad m
  | _ => false
where
  moveBad (m : MoveI) : Bool :=
    match EFmt.ofCode m.fmt with
    | none => true
    | some f => decide ((if f.scaled then 1 else 0) < m.block) || !p.refFmt m.s m.fmt m.block || !p.refFmt m.d m.fmt m.block

/-- FORMAT: regions first, then code. -/
def LoadIn.format (l : LoadIn) : Option Nat :=
  (firstBad (fun _ r => (EFmt.ofCode r.fmt).isNone || (r.layout == 2 && r.ef.scaled && r.block != 1)) l.im.regions) <|>
  firstBad (fun _ w => match TInstr.ofWords w with | some i => l.im.fmtBad i | none => false) l.im.code

/-- The word is refused under R86, or rounds stochastically where its writer may not. -/
def cvtBad (w : Nat) (noStoch : Bool) : Bool := (Cvt.ofWord w).isNone || (noStoch && w % 4 == 2)

/-- CVT (R86, R263, R265). -/
def LoadIn.cvt (l : LoadIn) : Option Nat :=
  (firstBad (fun _ w => match TInstr.ofWords w with | some (.mma m) => cvtBad m.cvt false | _ => false) l.im.code) <|>
  (firstBad (fun _ w => decide (2 ≤ eF w 0 7 0) && cvtBad (eF w 0x4C 15 0) true) l.im.conv) <|>
  firstBad (fun _ w => eKind w == 3 && cvtBad (eF w 0x3C 15 0) true) l.im.engine

/-! ## Reasons 0x0B to 0x0D -/

/-- Specs of an instruction with their limits; none: no limit beyond 32 bits. -/
def TInstr.specs : TInstr → List (Nat × Option Nat)
  | .mma i => [(i.m, some 65536), (i.n, some 1024), (i.k, some 1024)]
  | .fwd i => [(i.m, some 65536), (i.e, some 1024)]
  | .stage i => [(i.m, some 65536), (i.e, some 1024)]
  | .wait _ _ v => if bits v 31 31 = 1 then [(v, none)] else []
  | _ => []

/-- A spec breaks its limit or names no entry. -/
def Image.specBad (p : Image) (s : Nat × Option Nat) : Bool :=
  match specRef s.1 with
  | none => match s.2 with | some l => decide (l < bits s.1 16 0) | none => false
  | some i => decide (p.bounds.length ≤ i) || (match s.2 with | some l => decide (l < p.plannedOf s.1) | none => false)

/-- BOUND entry of a spec. -/
def Image.bound (p : Image) (w : Nat) : Option Bound := (specRef w).bind fun i => p.bounds[i]?

/-- CODE indices of each logical tile, with the tile. -/
def Image.owned (p : Image) : List (Nat × Nat × TInstr) :=
  ((List.range p.ltiles.length).zip p.ltiles).flatMap fun t =>
    (List.range t.2.codeCount).filterMap fun k => (p.instr (t.2.codeFirst + k)).map fun i => (t.1, t.2.codeFirst + k, i)

/-- Lowest CODE index of the owned instructions that satisfy a test. -/
def Image.ownedBad (p : Image) (q : Nat → TInstr → Bool) : Option Nat :=
  ((p.owned.filter fun x => q x.1 x.2.2).map (·.2.1)).min?

/-- Bound specs of a CONV descriptor, with their limits. -/
def convSpecs (w : List Nat) : List (Nat × Option Nat) :=
  [(eW w 0x38, some 65535), (eW w 0x3C, some 65535), (eW w 0x40, some 65535)]

/-- Bound specs of a crop-and-resize entry. -/
def cropSpecs (w : List Nat) : List (Nat × Option Nat) :=
  [(eW w 0x28, some 65535), (eW w 0x2C, some 65535), (eW w 0x30, some 65535), (eW w 0x34, some 65536)]

/-- A descriptor's or a crop entry's spec is refused: reserved bits, a limit, or a MEM_ISSUE source (R157, R248). -/
def Image.startSpecBad (p : Image) (s : Nat × Option Nat) : Bool :=
  !specOk s.1 || p.specBad s || (match p.bound s.1 with | some b => b.atIssue | none => false)

/-- ENTRY entries of an ENTRY_MASK that are RUN entries. -/
def Image.runMask (p : Image) (m : Nat) : Bool :=
  ((List.range p.entries.length).zip p.entries).any fun e => e.2.kind == 0 && bits m e.1 e.1 == 1

/-- The code of some RUN entry names CONV descriptor `i`. -/
def Image.runNames (p : Image) (i : Nat) : Bool :=
  ((List.range p.entries.length).zip p.entries).any fun e => e.2.kind == 0 && (p.descsOf e.1).contains i

/-- A region that the instructions of logical tile `t` cannot reach: another tile's palette, or another group's shared memory (R153). -/
def Image.foreign (p : Image) (t : Nat) (r : Region) : Bool :=
  match r.kind with
  | 1 => r.owner != t
  | 2 => ((p.ltiles[t]?).map (·.group)) != some r.owner
  | _ => false

/-- BOUND (R157, R248); the reserved bits of an entry are refused here (DESIGN CHOICE, log entry 89). -/
def LoadIn.bound (l : LoadIn) : Option Nat :=
  let p := l.im
  let rs := l.resv 4 [0xFFFF, 0xFFFF, wAll, wAll, wAll, wAll, wAll, 0]
  let rows (w : Nat) : Bool := match p.bound w with | some b => b.src == 4 | none => false
  (firstBad (fun i b =>
    rs.getD i false || b.src == 0 || decide (4 < b.src) || (b.src == 1 && decide (15 < b.word)) ||
    ((b.src == 2 || b.src == 3) && (match p.regions[b.region]? with
      | none => true
      | some r => (r.kind == 1 && b.src == 2) || b.offset % 4 != 0 || decide (r.elemBytes < b.offset + 4)))) p.bounds) <|>
  (firstBad (fun _ w => match TInstr.ofWords w with | some i => i.specs.any p.specBad | none => false) p.code) <|>
  (p.ownedBad fun t i => i.specs.any fun s => match p.bound s.1 with
    | some b => b.atIssue && (match p.regions[b.region]? with | some r => p.foreign t r | none => true)
    | none => false) <|>
  ((((p.entries.filter fun e => e.kind == 0).flatMap fun e => p.entryCode e).filter fun x => x.2.2.specs.any fun s => rows s.1).map
    (·.2.1)).min? <|>
  (firstBad (fun i w => (convSpecs w).any p.startSpecBad ||
    ((convSpecs w).any (fun s => rows s.1) && (p.runMask (headOf w).mask || p.runNames i))) p.conv) <|>
  firstBad (fun _ w => eKind w == 3 && ((cropSpecs w).any p.startSpecBad ||
    ((cropSpecs w).any (fun s => rows s.1) && p.runMask (headOf w).mask))) p.engine

/-- A region reference's place and extent are refused (R152). -/
def Region.extentBad (r : Region) (x : ORef) (rows elems : Nat) : Bool :=
  (if r.layout = 1 then x.row0 % max 1 r.rho != 0 || x.col0 % 256 != 0
   else x.col0 * r.ef.bits % 512 != 0 || x.col0 % r.blk != 0) ||
  decide (r.rows < x.row0 + rows) || decide (r.rowElems < x.col0 + elems)

/-- A reference is refused for its extent. -/
def Image.refExtent (p : Image) (x : ORef) (rows elems : Nat) : Bool :=
  match p.refRegion x with
  | none => false
  | some r => r.extentBad x rows elems

/-- An instruction's operands exceed their regions at planned maxima (R146, R152). -/
def Image.extentBad (p : Image) (i : TInstr) : Bool :=
  match i with
  | .mma x =>
    let m := p.plannedOf x.m
    let n := p.plannedOf x.n
    let k := p.plannedOf x.k
    p.refExtent x.a n k || (!x.conv && p.refExtent x.b m k) || p.refExtent x.bias 1 n || p.refExtent x.add m n || p.refExtent x.d m n
  | .fwd x => p.refExtent x.s (p.plannedOf x.m) (p.plannedOf x.e) || p.refExtent x.d (p.plannedOf x.m) (p.plannedOf x.e)
  | .stage x => p.refExtent x.s (p.plannedOf x.m) (p.plannedOf x.e) || p.refExtent x.d (p.plannedOf x.m) (p.plannedOf x.e)
  | _ => false

/-- A descriptor's geometry at planned maxima: images, input and output extents. -/
structure Plan where
  d : ConvD
  n : Nat
  h : Nat
  w : Nat
  oh : Nat
  ow : Nat
deriving DecidableEq, Repr

/-- Plan a descriptor. -/
def Image.plan (p : Image) (ws : List Nat) : Plan :=
  let d := ConvD.ofWords ws
  let h := p.plannedOf d.h
  let w := p.plannedOf d.w
  { d := d, n := p.plannedOf d.n, h := h, w := w, oh := if d.owh ≠ 0 then d.owh else d.fullH h
    ow := if d.oww ≠ 0 then d.oww else d.fullW w }

/-- A region is long enough for an image tensor (R244). -/
def Region.holdsImage (r : Region) (n c h w : Nat) : Bool :=
  let cb := if r.layout = 3 then 32 else 16
  let px := n * ((c + cb - 1) / cb) * h * w
  decide (px * cb * r.ef.bits / 8 ≤ r.elemBytes) && (!r.ef.scaled || decide (px * (cb / r.blk) * r.ef.scaleBytes ≤ r.scaleBytes))

/-- Output channels of a descriptor by its OP (R261, R262). -/
def Plan.outC (q : Plan) : Nat :=
  let f := max 1 q.d.factor
  match q.d.op with
  | 4 => f * f * q.d.cin
  | 5 => q.d.cin / (f * f)
  | 6 => q.d.cin
  | _ => q.d.cout

/-- The region index of a tensor its descriptor makes too short (R245). -/
def Image.shortRegion (p : Image) (ws : List Nat) : Option Nat :=
  let q := p.plan ws
  let i := (q.d.inReg, q.d.cin, if q.d.iwh ≠ 0 then q.d.iwh else q.h, if q.d.iww ≠ 0 then q.d.iww else q.w)
  ([(i.1, i.2.1, i.2.2.1, i.2.2.2), (q.d.outReg, q.outC, q.oh, q.ow)].find? fun t =>
    match p.regions[t.1]? with
    | some r => decide (2 ≤ r.layout) && !r.holdsImage q.n t.2.1 t.2.2.1 t.2.2.2
    | none => false).map (·.1)

/-- The regions a crop-and-resize entry makes too short. -/
def Image.shortCrop (p : Image) (ws : List Nat) : Option Nat :=
  let c := CropE.ofWords ws
  ([(c.inn.index, p.plannedOf c.n, p.plannedOf c.h, p.plannedOf c.w), (c.out.index, p.plannedOf c.boxes, c.outH, c.outW)].find? fun t =>
    match p.regions[t.1]? with
    | some r => decide (2 ≤ r.layout) && !r.holdsImage t.2.1 c.c t.2.2.1 t.2.2.2
    | none => false).map (·.1)

/-- One axis of a descriptor: the input's extent and pads, the computed outputs, where they start, the filter's extent, dilation and stride. -/
structure PlanAxis where
  inn : Nat
  lo : Nat
  hi : Nat
  o0 : Nat
  outs : Nat
  k : Nat
  dil : Nat
  st : Nat
deriving DecidableEq, Repr

/-- The input coordinates the computed outputs read on an axis, by the OP: only those inside the image (R250, R253, R259, R261, R262). -/
def ConvD.reads (d : ConvD) (a : PlanAxis) : List Nat :=
  let inside (v : Nat) : Option Nat := if v < a.inn then some v else none
  match d.op with
  | 1 => (List.range a.outs).flatMap fun y => (List.range a.k).filterMap fun t =>
      tapAt d.padMode a.inn ((((a.o0 + y) * a.st + t * a.dil : Nat) : Int) - a.lo)
  | 2 => (List.range ((a.outs + 1) / 2)).flatMap fun y => (List.range 4).filterMap fun t =>
      let i : Int := ((a.o0 + 2 * y + t : Nat) : Int) - a.lo
      if ((a.inn + a.hi : Nat) : Int) ≤ i then none else tapAt d.padMode a.inn i
  | 3 => []
  | 4 => (List.range a.outs).flatMap fun y => (List.range (max 1 d.factor)).filterMap fun t =>
      inside ((a.o0 + y) * max 1 d.factor + t)
  | 5 => (List.range a.outs).filterMap fun y => inside ((a.o0 + y) / max 1 d.factor)
  | _ => (List.range a.outs).filterMap fun y => inside (a.o0 + y)

/-- Some coordinate lies outside the input window, where there is one. -/
def outOfWindow (vs : List Nat) (i0 iw : Nat) : Bool := iw != 0 && vs.any fun v => decide (v < i0) || decide (i0 + iw ≤ v)

/-- A descriptor's windows are refused for EXTENT (R264, axis by axis: log entry 78): the output window leaves the full output, or an in-image
tap of it, which is one on both axes, leaves the input window. -/
def Plan.windowBad (q : Plan) : Bool :=
  let d := q.d
  let ys := d.reads { inn := q.h, lo := d.pt, hi := d.pb, o0 := if d.owh ≠ 0 then d.oy0 else 0, outs := q.oh, k := d.kh, dil := d.dh, st := d.sh }
  let xs := d.reads { inn := q.w, lo := d.pl, hi := d.pr, o0 := if d.oww ≠ 0 then d.ox0 else 0, outs := q.ow, k := d.kw, dil := d.dw, st := d.sw }
  (d.owh != 0 && decide (d.fullH q.h < d.oy0 + d.owh)) || (d.oww != 0 && decide (d.fullW q.w < d.ox0 + d.oww)) ||
  (q.n != 0 && !ys.isEmpty && !xs.isEmpty && (outOfWindow ys d.iy0 d.iwh || outOfWindow xs d.ix0 d.iww))

/-- The descriptor has a window. -/
def ConvD.windowed (d : ConvD) : Bool := d.owh != 0 || d.oww != 0 || d.iwh != 0 || d.iww != 0

/-- EXTENT (R152, R245, R264). -/
def LoadIn.extent (l : LoadIn) : Option Nat :=
  let p := l.im
  ((p.conv.filterMap p.shortRegion) ++ ((p.engine.filter fun w => eKind w == 3).filterMap p.shortCrop)).min? <|>
  (firstBad (fun _ w => match TInstr.ofWords w with | some i => p.extentBad i | none => false) p.code) <|>
  firstBad (fun _ w => (ConvD.ofWords w).windowed && (p.plan w).windowBad) p.conv

/-- What memory a reference names for logical tile `t` (R153): 0 none, 1 own palette ROWS, 2 own palette FEED, 3 own group's shared,
4 buffer, 5 link, 9 anything else. -/
def Image.tag (p : Image) (t : Nat) (r : ORef) : Nat :=
  match r.kind with
  | 0 => 0
  | 1 =>
    match p.regions[r.index]? with
    | none => 9
    | some x =>
      if 2 ≤ x.layout then 9
      else if p.foreign t x then 9
      else match x.kind with
        | 1 => if x.layout = 1 then 2 else 1
        | 2 => 3
        | _ => 4
  | 2 => 9
  | 3 => 9
  | _ => 5

/-- The DREF of an MMA with KIND APPEND is refused (R227). -/
def Image.appendBad (p : Image) (x : MmaI) (under : List Nat) : Bool :=
  match p.engine[x.d.index]? with
  | none => true
  | some w =>
    let a := AttE.ofWords w
    eKind w != 2 || !(under.all fun e => bits (headOf w).mask e e == 1) || decide (1 < x.d.col0) || x.d.row0 % 1024 != 0 ||
    bits x.cvt 11 8 != 0 || p.plannedOf x.n != a.kv * a.dh || decide (a.maxRows < x.d.row0 + p.plannedOf x.m)

/-- The DREF of an MMA of logical tile `t` with KIND IMAGE is refused (R153, R256). -/
def Image.imageBad (p : Image) (t : Nat) (x : MmaI) : Bool :=
  match p.conv[x.d.index]? with
  | none => true
  | some w =>
    let d := ConvD.ofWords w
    let n := p.plannedOf x.n
    match p.regions[d.outReg]? with
    | none => true
    | some r =>
      let cb := if r.layout = 3 then 32 else 16
      (d.op != 1 && d.op != 3) || decide (r.layout < 2) || p.foreign t r || !r.isFmt (bits x.cvt 11 8) (cvtBlockCode x.cvt) || x.d.col0 % cb != 0 ||
      decide ((d.cout + cb - 1) / cb * cb < x.d.col0 + n) || (r.ef.scaled && n % r.blk != 0) ||
      (x.conv && (match (p.conv[x.b.index]?).bind fun v => p.regions[(ConvD.ofWords v).inReg]? with
        | some q => r.overlaps q
        | none => false))

/-- The BREF of a CONV MMA is refused (R253, R255, R257). -/
def Image.convBad (p : Image) (t : Nat) (x : MmaI) : Bool :=
  match p.conv[x.b.index]? with
  | none => true
  | some w =>
    let q := p.plan w
    let d := q.d
    match p.regions[d.inReg]? with
    | none => true
    | some r =>
      let cb := if r.layout = 3 then 32 else 16
      let ckp := max 1 (roundUp d.ck (if r.ef.scaled then r.blk else 16))
      let k := bits x.k 16 0
      x.b.kind != 1 || d.op != 1 || decide (r.layout < 2) ||
      p.foreign t r || (specRef x.k).isSome || k % ckp != 0 || decide (d.kh * d.kw < bits x.b.col0 23 14 + k / ckp) || bits x.b.col0 13 0 % ckp != 0 ||
      decide ((d.cin + cb - 1) / cb * cb < bits x.b.col0 13 0 + ckp) || decide (2 ^ 24 < q.n * q.oh * q.ow)

/-- ENTRY entries whose code for tile `t` reaches CODE index `i`. -/
def Image.underOf (p : Image) (t i : Nat) : List Nat :=
  (List.range p.entries.length).filter fun e =>
    match p.entries[e]? with
    | some en => (p.tileCode en t).any fun x => x.1 == i
    | none => false

/-- Operand kinds of an instruction are refused (R153, R155). -/
def Image.operandBad (p : Image) (t i : Nat) (x : TInstr) : Bool :=
  match x with
  | .mma m =>
    p.tag t m.a != 1 ||
    (if m.conv then p.convBad t m else !([1, 2, 3, 4, 5].contains (p.tag t m.b))) ||
    (if m.init then p.tag t m.bias != 1 else m.bias.kind != 0) ||
    !([0, 1, 3, 5].contains (p.tag t m.add)) ||
    (if m.d.kind = 2 then p.appendBad m (p.underOf t i)
     else if m.d.kind = 3 then p.imageBad t m
     else !([1, 3, 4, 5].contains (p.tag t m.d)))
  | .fwd m => !([1, 2, 3, 4, 5].contains (p.tag t m.s)) || !([1, 3, 4, 5].contains (p.tag t m.d))
  | .stage m => !([1, 2, 3, 4, 5].contains (p.tag t m.s)) || p.tag t m.d != 2
  | _ => false

/-- OPERAND. -/
def LoadIn.operand (l : LoadIn) : Option Nat :=
  ((l.im.owned.filter fun x => l.im.operandBad x.1 x.2.1 x.2.2).map (·.2.1)).min?

/-! ## Reason 0x0E LINK (R154) -/

/-- A transfer's signature: MSPEC, format, BLOCK, element bound. -/
structure Sig where
  m : Nat
  fmt : Nat
  block : Nat
  e : Nat
deriving DecidableEq, Repr

/-- Transfers of an instruction: direction, signature, whether it sends. -/
def TInstr.transfers : TInstr → List (Nat × Sig × Bool)
  | .mma i =>
    let blk (f b : Nat) : Nat := match EFmt.ofCode f with | some x => if x.scaled then b else 0 | none => 0
    ((i.b.link.map fun d => (d, ({ m := i.m, fmt := i.afmt, block := blk i.afmt i.block, e := i.k } : Sig), false)).toList) ++
    ((i.add.link.map fun d => (d, ({ m := i.m, fmt := 0, block := 0, e := i.n } : Sig), false)).toList) ++
    ((i.d.link.map fun d => (d, ({ m := i.m, fmt := bits i.cvt 11 8, block := blk (bits i.cvt 11 8) (cvtBlockCode i.cvt)
                                   e := i.n } : Sig), true)).toList)
  | .fwd i => mv i
  | .stage i => mv i
  | _ => []
where
  mv (i : MoveI) : List (Nat × Sig × Bool) :=
    let s : Sig := { m := i.m, fmt := i.fmt, block := match EFmt.ofCode i.fmt with | some x => if x.scaled then i.block else 0 | none => 0
                     e := i.e }
    ((i.s.link.map fun d => (d, s, false)).toList) ++ ((i.d.link.map fun d => (d, s, true)).toList)

/-- The logical neighbour of a tile: 0 north, 1 east, 2 south, 3 west (R140). -/
def Image.logNeighbour (p : Image) (t d : Nat) : Option Nat :=
  match p.ltiles[t]? with
  | none => none
  | some x =>
    let y : Int := if d = 0 then x.y - 1 else if d = 2 then x.y + 1 else x.y
    let z : Int := if d = 1 then x.x + 1 else if d = 3 then x.x - 1 else x.x
    firstBad (fun _ u => u.group == x.group && (u.y : Int) == y && (u.x : Int) == z) p.ltiles

/-- Signatures a tile's code sends or receives on a side, with their CODE indices. -/
def Image.sigsOf (p : Image) (e : PEntry) (t d : Nat) (send : Bool) : List (Sig × Nat) :=
  (p.tileCode e t).flatMap fun x => (x.2.transfers.filter fun y => y.1 == d && y.2.2 == send).map fun y => (y.2.1, x.1)

/-- The CODE index where two ordered lists of signatures first differ. -/
def sigDiff : List (Sig × Nat) → List (Sig × Nat) → Option Nat
  | [], [] => none
  | a :: _, [] => some a.2
  | [], b :: _ => some b.2
  | a :: as, b :: bs => if a.1 = b.1 then sigDiff as bs else some a.2

/-- LINK. -/
def LoadIn.link (l : LoadIn) : Option Nat :=
  let p := l.im
  (p.ownedBad fun t i =>
    (i.transfers.any fun x => (p.logNeighbour t x.1).isNone ||
      [x.2.1.m, x.2.1.e].any fun w => match p.bound w with | some b => b.atIssue | none => false) ||
    (match i with
     | .mma m => (m.b.link.isSome && (decide (256 < p.plannedOf m.n) || decide (256 < p.plannedOf m.k))) ||
                 (m.d.link.isSome && decide (256 < p.plannedOf m.n))
     | _ => false)) <|>
  ((p.entries.flatMap fun e => (List.range p.ltiles.length).flatMap fun t => (List.range 4).filterMap fun d =>
    match p.logNeighbour t d with
    | none => none
    | some u => sigDiff (p.sigsOf e t d true) (p.sigsOf e u ((d + 2) % 4) false))).min?

/-- PADDING (R164, R250, R261). -/
def LoadIn.padding (l : LoadIn) : Option Nat :=
  firstBad (fun _ w =>
    let d := ConvD.ofWords w
    decide (3 < d.padMode) || (d.op == 4 && decide (2 ≤ d.padMode)) ||
    (d.padMode == 3 && ((specRef d.h).isSome || (specRef d.w).isSome ||
      decide (bits d.h 16 0 ≤ max d.pt d.pb) || decide (bits d.w 16 0 ≤ max d.pl d.pr)))) l.im.conv

/-! ## Reason 0x10 ENGINE -/

/-- Reserved bits of a CONV descriptor (R247). -/
def convMasks : List Nat :=
  [0xFFF, 0xFFFF, 0x1F1F] ++ ones 6 ++ [0xFFFFFF] ++ ones 2 ++ [0xFFFF, 0xFFFF] ++ ones 3 ++ [0x7FFF, wAll, 0xFFFF, 0xFFFF, 0] ++
  ones 4 ++ zeros 6

/-- Reserved bits of an ENGINE entry by its KIND (R180, R214, R265, R296). -/
def engineMasks : Nat → List Nat
  | 1 => [0xF3FFFFFF, 0xFFFF, 0x1F1F, 0xFFFF] ++ ones 4 ++ [0x3FFF, 0x01FF01FF] ++ ones 3 ++ [0xFFFFFF, 0, 0] ++ ones 24 ++ zeros 24
  | 2 => [0xFD0000FF, 0xFFFF, 0x1F1F, 0xFFFF] ++ ones 4 ++ [0x01FFFFFF, wAll, wAll, 0xFFFF0000, wAll, 0xFFFFFF, wAll, wAll] ++
    ones 8 ++ zeros 40
  | 3 => [0x3FF, 0xFFFF, 0x1F1F, 0] ++ ones 4 ++ [wAll, 0x7FFF] ++ ones 5 ++ [0xFFFF] ++ ones 6 ++ zeros 42
  | 4 => [0xFFFF, 0, 0xFFFF] ++ zeros 13 ++ ones 48
  | _ => [0xFFFF, 0, 0xFFFF, 0] ++ ones 60

/-- An ENTRY_MASK names an entry that does not exist. -/
def Image.maskBad (p : Image) (m : Nat) : Bool := decide (2 ^ p.entries.length ≤ m)

/-- The region checks of a descriptor by its OP (R247, R255, R260, R262); an engine reaches no palette (R54; DEDUCED, log entry 85). -/
def Image.convRegions (p : Image) (q : Plan) (ws : List Nat) : Bool :=
  let d := q.d
  let img (r : Region) : Bool := decide (2 ≤ r.layout)
  let own (r : Region) : Bool := r.kind == 1
  let rowsR (r : Region) (n e : Nat) : Bool := r.layout == 0 && decide (n ≤ r.rows) && decide (e ≤ r.rowElems)
  let cv := eF ws 0x4C 15 0
  let outFmt (r : Region) : Bool := r.isFmt (bits cv 11 8) (cvtBlockCode cv)
  let t := q.n * ((q.oh + 1) / 2) * ((q.ow + 1) / 2)
  match p.regions[d.inReg]?, d.op with
  | some i, 1 => img i && (d.outReg == 0xFFFF || (match p.regions[d.outReg]? with | some o => img o | none => false))
  | some i, op =>
    match p.regions[d.outReg]? with
    | none => false
    | some o =>
      !own i && !own o && !i.overlaps o && outFmt o &&
      (match op with
       | 2 => img i && rowsR o (16 * t) d.cin
       | 3 => rowsR i (16 * t) d.cout && i.fmt == 0 && img o
       | 6 => (img i && img o) || (img i && rowsR o (q.n * q.h * q.w) d.cin) || (rowsR i (q.n * q.h * q.w) d.cin && img o)
       | _ => img i && img o)
  | none, _ => false

/-- A CONV entry is refused for ENGINE (R247, R260, R261, R264, R271). -/
def Image.convEntryBad (p : Image) (ws : List Nat) : Bool :=
  let q := p.plan ws
  let d := q.d
  let h := headOf ws
  let out (v lo hi : Nat) : Bool := decide (v < lo) || decide (hi < v)
  let lits := (specRef d.n).isNone && (specRef d.h).isNone && (specRef d.w).isNone
  let f := d.factor
  badMask (eW ws) convMasks || out d.op 1 6 || p.maskBad h.mask || (d.op == 1 && (h.mask != 0 || eW ws 8 != 0)) ||
  out d.sw 1 64 || out d.sh 1 64 || out d.kw 1 32 || out d.kh 1 32 || out d.dw 1 32 || out d.dh 1 32 ||
  decide (4095 < d.pb) || decide (4095 < d.pt) || decide (4095 < d.pr) || decide (4095 < d.pl) || out d.cin 1 16384 ||
  out d.cout 1 16384 || (d.op == 1 && out d.ck 1 1024) ||
  (if d.op = 4 ∨ d.op = 5 then !([2, 4, 8].contains f) else f != 0) ||
  (d.op == 4 && d.cout != f * f * d.cin) || (d.op == 5 && (d.cin % (f * f) != 0 || d.cout != d.cin / (f * f))) ||
  (d.op == 6 && d.cout != d.cin) || (d.windowed && !lits) ||
  ((d.op == 2 || d.op == 3) && (d.kh != 3 || d.kw != 3 || d.sh != 1 || d.sw != 1 || d.dh != 1 || d.dw != 1 || !lits)) ||
  (d.op == 2 && !([1, 2, 3].contains (bits (eF ws 0x4C 15 0) 11 8))) ||
  (d.op == 3 && d.biasReg != 0xFFFF && (match p.regions[d.biasReg]? with
    | some r => r.kind == 1 || r.layout != 0 || r.fmt != 0 || r.rows == 0 || decide (r.rowElems < d.cout)
    | none => true)) ||
  !p.convRegions q ws

/-- A reference of an engine entry names a SHARED or BUFFER region of a layout and format, at its origin, with room (R181, R215,
R265). -/
def Image.engRef (p : Image) (ws : List Nat) (o : Nat) (fmtOk : Region → Bool) (rows elems : Nat) : Bool :=
  match ORef.ofWords (eW ws o) (eW ws (o + 4)) with
  | none => false
  | some x => x.kind == 1 && x.row0 == 0 && x.col0 == 0 && (match p.regions[x.index]? with
      | none => false
      | some r => (r.kind == 2 || r.kind == 3) && r.layout == 0 && fmtOk r && decide (rows ≤ r.rows) && decide (elems ≤ r.rowElems))

/-- Raw bytes: I8, under any BLOCK. -/
def Region.isRaw (r : Region) : Bool := r.fmt == 5

/-- An unused reference is NONE (R152, R181). -/
def noRef (ws : List Nat) (o : Nat) : Bool :=
  match ORef.ofWords (eW ws o) (eW ws (o + 4)) with
  | some x => x.kind == 0
  | none => false

/-- A glaze entry is refused (R181, R183). -/
def Image.glazeBad (p : Image) (idx : Nat) (ws : List Nat) : Bool :=
  let g := GlazeE.ofWords ws
  let h := headOf ws
  let lg := eF ws 0 19 16
  let out (v lo hi : Nat) : Bool := decide (v < lo) || decide (hi < v)
  let cmax := g.maxRows / max 1 g.l
  let ref (i : Nat) (used : Bool) (fmtOk : Region → Bool) (rows elems : Nat) : Bool :=
    if used then p.engRef ws (0x40 + 8 * i) fmtOk rows elems else noRef ws (0x40 + 8 * i)
  let inF (r : Region) : Bool := r.isFmt g.inFmt 0
  let b32 (r : Region) : Bool := r.isFmt 0 0
  let scan := g.op == 1
  let mask := g.op == 2
  let carry := g.op == 3
  let yf := bits g.yCvt 11 8
  let yb := cvtBlockCode g.yCvt
  badMask (eW ws) (engineMasks 1) || out g.op 1 3 || (g.inFmt != 1 && g.inFmt != 2) ||
  (bits g.sCvt 11 8 != 1 && bits g.sCvt 11 8 != 2) || out g.d 16 8192 || g.d % 16 != 0 || out g.h 1 256 || out g.n 1 256 ||
  out g.maxRows 1 (2 ^ 28) || !([0, 3, 4, 5, 6, 7, 8].contains lg) || (scan && decide (8 < g.l)) || (!scan && decide (g.l < 16)) ||
  (!scan && g.elementShape) || g.d % max 1 g.h != 0 || decide (262144 < g.d * g.n * (if g.comp then 2 else 1)) ||
  cvtBad g.sCvt false || cvtBad g.yCvt true || h.mask == 0 || p.maskBad h.mask || p.runMask h.mask || g.recOff % 1024 != 0 ||
  !(ref 0 true inF g.maxRows g.d && ref 1 true inF g.maxRows (if g.elementShape then g.d * g.n else g.h) &&
    ref 2 (scan || mask) inF g.maxRows (g.h * g.n) && ref 3 (scan || carry) inF g.maxRows (g.h * g.n) &&
    ref 4 g.resetEn Region.isRaw 1 ((g.maxRows + 7) / 8) && ref 5 (scan || carry) (·.isFmt yf yb) g.maxRows g.d &&
    ref 6 ((scan || carry) && g.tail != 0) inF (4096 * g.tail) g.d && ref 7 mask b32 (cmax * g.h * g.l) g.l &&
    ref 8 mask inF (cmax * g.h * g.l) g.l && ref 9 mask inF (cmax * g.h * g.n) g.l && ref 10 carry b32 g.maxRows g.d &&
    ref 11 carry b32 (cmax * g.d) g.n) ||
  (g.keeps && ((p.engine.take idx).any fun w =>
    let q := GlazeE.ofWords w
    eKind w == 1 && q.keeps && (headOf w).mask &&& h.mask != 0 &&
    (q.layer == g.layer || runsOverlap (q.recOff, q.recBytes) (g.recOff, g.recBytes))))

/-- A lent tile of an attention entry breaks R216. -/
def Image.lentBad (p : Image) (a : AttE) (h : EHead) (t : Nat) : Bool :=
  match p.ltiles[t]? with
  | none => true
  | some x =>
    decide (x.palBytes < a.scrOff + a.scrBytes) || decide (a.scrBytes < 4 * (a.pageBytes + a.pageBytes / 16)) ||
    (p.regions.any fun r => r.kind == 1 && r.owner == t && r.planes.any fun q => runsOverlap q (a.scrOff, a.scrBytes)) ||
    ((List.range p.entries.length).any fun e => bits h.mask e e == 1 && (match p.entries[e]? with
      | none => true
      | some en => !((p.tileCode en t).any fun y => match y.2 with | .wait s _ _ => s == h.sigSync | _ => false)))

/-- An attention entry is refused (R215, R216). -/
def Image.attBad (p : Image) (idx : Nat) (ws : List Nat) : Bool :=
  let a := AttE.ofWords ws
  let h := headOf ws
  let out (v lo hi : Nat) : Bool := decide (v < lo) || decide (hi < v)
  badMask (eW ws) (engineMasks 2) || out a.fmt 1 3 || decide (1 < a.block) || (a.block != 0 && a.fmt != 3) || out a.dh 32 256 ||
  a.dh % 32 != 0 || out a.group 1 16 || out a.kv 1 64 || out a.maxRows 1 (2 ^ 28) ||
  (a.ring && (a.window == 0 || a.fallback != 0)) || (!a.ring && a.window != 0) || decide (a.dh / 2 < a.pf + a.pr + a.pc) ||
  decide (65536 < a.pageBytes) || cvtBad a.yCvt true || a.scrOff % 64 != 0 || h.mask == 0 || p.maskBad h.mask || p.runMask h.mask ||
  !(p.engRef ws 0x40 (·.isFmt 0 0) a.maxRows (a.hq * a.dh) && p.engRef ws 0x48 Region.isRaw 1 (8 * (a.pf + a.pr + a.pc)) &&
    p.engRef ws 0x50 (·.isFmt (bits a.yCvt 11 8) (cvtBlockCode a.yCvt)) a.maxRows (a.hq * a.dh)) ||
  a.tiles == 0 || decide (2 ^ p.ltiles.length ≤ a.tiles) ||
  ((List.range 64).any fun t => bits a.tiles t t == 1 && p.lentBad a h t) ||
  ((p.engine.take idx).any fun w => eKind w == 2 && (headOf w).mask &&& h.mask != 0 && (AttE.ofWords w).layer == a.layer) ||
  ((List.range p.entries.length).any fun e => bits h.mask e e == 1 &&
    decide (64 < ((p.engine.take (idx + 1)).filter fun w => eKind w == 2 && bits (headOf w).mask e e == 1).length))

/-- A crop-and-resize entry is refused (R265). -/
def Image.cropBad (p : Image) (ws : List Nat) : Bool :=
  let c := CropE.ofWords ws
  let h := headOf ws
  let out (v lo hi : Nat) : Bool := decide (v < lo) || decide (hi < v)
  let image (o : Nat) : Option Region :=
    match ORef.ofWords (eW ws o) (eW ws (o + 4)) with
    | none => none
    | some x => if x.kind = 1 ∧ x.row0 = 0 ∧ x.col0 = 0 then
        (p.regions[x.index]?).filter fun r => (r.kind == 2 || r.kind == 3) && decide (2 ≤ r.layout) else none
  badMask (eW ws) (engineMasks 3) || h.mask == 0 || p.maskBad h.mask || out c.outW 1 1024 || out c.outH 1 1024 || out c.c 1 16384 ||
  (match image 0x40, image 0x48 with
   | some i, some o =>
     i.overlaps o || !o.isFmt (bits c.cvt 11 8) (cvtBlockCode c.cvt) || !p.engRef ws 0x50 Region.isRaw 1 0 ||
     (match p.refRegion c.box with
      | some r => o.overlaps r || decide (r.elemBytes < 32 * p.plannedOf c.boxes)
      | none => true)
   | _, _ => true)

/-- The instructions of an update program's chain from entry `idx` (R296); none where the chain is refused. -/
def Image.chain (p : Image) : Nat → Nat → Option (List (Nat × Nat))
  | 0, _ => none
  | fuel + 1, idx =>
    match p.engine[idx]? with
    | none => none
    | some w =>
      let k := eKind w
      let base := if k = 4 then 0x40 else 0x10
      let own := (List.range (eF w 0 15 8)).map fun i => (eW w (base + 8 * i), eW w (base + 8 * i + 4))
      let nx := eF w 8 15 0
      if nx = 0xFFFF then some own
      else match p.engine[nx]? with
        | none => none
        | some v => if eKind v = 5 then (p.chain fuel nx).map fun r => own ++ r else none

/-- One update instruction's fields (R297). -/
structure UpdI where
  op : Nat
  dst : Nat
  a : Nat
  b : Nat
  c : Nat
  resv : Nat
deriving DecidableEq, Repr

/-- An update instruction in two words. -/
def UpdI.ofWords (w : Nat × Nat) : UpdI :=
  let v := w.1 + 2 ^ 32 * w.2
  { op := bits v 63 56, dst := bits v 55 52, a := bits v 51 44, b := bits v 43 36, c := bits v 35 28, resv := bits v 27 0 }

/-- Sources an opcode reads (R299); LDS's SRCA is a slot. -/
def UpdI.reads (i : UpdI) : List Nat :=
  match i.op with
  | 0x05 => [i.a]
  | 0x06 => [i.a]
  | 0x14 => [i.a, i.b, i.c]
  | 0x15 => [i.a]
  | 0x16 => [i.a]
  | 0x19 => [i.a]
  | 0x1A => [i.a]
  | 0x1B => [i.a, i.b, i.c]
  | 0x1C => [i.a]
  | 0x1D => [i.a]
  | op => if (0x10 ≤ op ∧ op ≤ 0x13) ∨ op = 0x17 ∨ op = 0x18 ∨ op = 0x1E then [i.a, i.b] else []

/-- The opcode writes a register. -/
def UpdI.writes (i : UpdI) : Bool := (decide (1 ≤ i.op) && decide (i.op ≤ 4)) || (decide (0x10 ≤ i.op) && decide (i.op ≤ 0x1E))

/-- An operand code of R298. -/
def srcOk (v : Nat) : Bool := decide (v ≤ 7) || (decide (0x10 ≤ v) && decide (v ≤ 0x14)) || (decide (0x20 ≤ v) && decide (v ≤ 0x3F))

/-- The fields of an update instruction are refused: reserved bits, a reserved opcode or operand code, a register beyond t7. -/
def UpdI.fieldsBad (i : UpdI) : Bool :=
  i.resv != 0 || !(i.op == 0 || i.writes || i.op == 5 || i.op == 6) || (i.reads.any fun v => !srcOk v) || (i.writes && decide (7 < i.dst))

/-- Some instruction reads a register that none before it writes; `ws`: the registers written so far. -/
def readsUnset : List UpdI → List Nat → Bool
  | [], _ => false
  | i :: is, ws => (i.reads.any fun v => decide (v ≤ 7) && !ws.contains v) || readsUnset is (if i.writes then i.dst :: ws else ws)

/-- What follows the first END; none where there is no END. -/
def afterEnd : List UpdI → Option (List UpdI)
  | [] => none
  | i :: is => if i.op = 0 then some is else afterEnd is

/-- An update program's instructions, in chain order, are refused (R301). -/
def progBad (is : List UpdI) : Bool :=
  (is.any UpdI.fieldsBad) || readsUnset is [] ||
  (match afterEnd is with
   | none => true
   | some rest => rest.any fun i => i.op == 3 || i.op == 6) ||
  decide (1 < (is.filter fun i => i.op == 5).length) ||
  (List.range 4).any fun k => decide (1 < (is.filter fun i => i.op == 6 && i.dst % 4 == k).length)

/-- An update program entry is refused (R296-R301). -/
def Image.updBad (p : Image) (idx : Nat) (ws : List Nat) : Bool :=
  let k := eKind ws
  let n := eF ws 0 15 8
  badMask (eW ws) (engineMasks k) || n == 0 || decide ((if k = 4 then 24 else 30) < n) ||
  (match p.chain (if k = 4 then 4 else 3) idx with
    | none => true
    | some is => k == 4 && progBad (is.map UpdI.ofWords))

/-- ENGINE: CONV entries, then ENGINE entries. -/
def LoadIn.engine (l : LoadIn) : Option Nat :=
  let p := l.im
  (firstBad (fun _ w => p.convEntryBad w) p.conv) <|>
  firstBad (fun i w => match eKind w with
    | 1 => p.glazeBad i w
    | 2 => p.attBad i w
    | 3 => p.cropBad w
    | 4 => p.updBad i w
    | 5 => p.updBad i w
    | _ => true) p.engine

/-! ## Reasons 0x11 and 0x12 -/

/-- ENTRY (R166). -/
def LoadIn.entry (l : LoadIn) : Option Nat :=
  let p := l.im
  let rs := l.resv 5 ([0xFF, 0] ++ ones 64)
  firstBad (fun i e =>
    rs.getD i false || decide (2 < e.kind) ||
    ((List.range e.start.length).zip e.start).any fun x => x.2 != 0xFFFFFFFF &&
      (match p.ltiles[x.1]? with
       | none => true
       | some t => decide (t.codeCount ≤ x.2) || !((p.tileCode e x.1).any fun y => y.2 == .fin))) p.entries

/-- Regions an entry's commands address: its code, its engine entries, and the words of its bounds. -/
def Image.regionsUnder (p : Image) (e : Nat) : List Nat :=
  let code : List TInstr := match p.entries[e]? with
    | none => []
    | some en => (p.entryCode en).map fun x => x.2.2
  let refs (i : TInstr) : List ORef := match i with
    | .mma m => [m.a, m.b, m.bias, m.add, m.d].filter fun r => !(m.conv && r == m.b)
    | .fwd m => [m.s, m.d]
    | .stage m => [m.s, m.d]
    | _ => []
  let ofCode := code.flatMap fun i => (refs i).filterMap fun r => if r.kind = 1 then some r.index else none
  let descs := code.flatMap fun i => match i with
    | .mma m => (if m.conv then ((p.conv[m.b.index]?).map fun w => (ConvD.ofWords w).inReg).toList else []) ++
        (if m.d.kind = 3 then ((p.conv[m.d.index]?).map fun w => (ConvD.ofWords w).outReg).toList else [])
    | _ => []
  let bnds := (p.boundsOf e).filterMap fun i => (p.bounds[i]?).bind fun b =>
    if b.src = 2 ∨ b.src = 3 then some b.region else none
  let engs := (p.issued e).flatMap fun x =>
    if x.1 then
      let d := ConvD.ofWords x.2.2
      [d.inReg, d.outReg] ++ (if d.op = 3 then [d.biasReg] else [])
    else
      let os := match eKind x.2.2 with
        | 1 => (List.range 12).map fun i => 0x40 + 8 * i
        | _ => [0x40, 0x48, 0x50]
      os.filterMap fun o => let r := eRef x.2.2 o; if r.kind = 1 then some r.index else none
  ofCode ++ descs ++ bnds ++ engs

/-- BINDING (R167, R168, R394). -/
def LoadIn.binding (l : LoadIn) : Option Nat :=
  let p := l.im
  let rb := l.resv 7 [0xFFFF, 0xFF, wAll, wAll]
  let ri := l.resv 8 [0x1FFFF, 0xFF, wAll, wAll, wAll, wAll]
  (firstBad (fun i b =>
    rb.getD i false || decide (2 < b.cls) || decide (63 < b.index) || decide (b.alignLog2 < 9) || decide (21 < b.alignLog2) ||
    (b.cls == 2 && decide (4 < b.index)) ||
    (b.cls == 0 && (match l.statics[b.index]? with
      | none => true
      | some x => decide (x.2 < b.minBytes) || x.1 % 2 ^ b.alignLog2 != 0))) p.bindings) <|>
  (firstBad (fun i x =>
    ri.getD i false || (match p.regions[x.region]?, p.bindings[x.binding]? with
      | some r, some b =>
        r.kind != 1 || b.cls != 0 || decide ((if x.plane = 1 then r.scaleBytes else r.elemBytes) < x.bytes) ||
        (match l.statics[b.index]? with | none => true | some y => decide (y.2 < x.srcOffset + x.bytes))
      | _, _ => true)) p.palInit) <|>
  firstBad (fun i e => (p.regionsUnder i).any fun r => match p.regions[r]? with
    | some x => x.kind == 3 && x.bind == (if e.kind = 0 then 3 else 2)
    | none => false) p.entries

/-- The first refusal, as reason and index, of an image whose section table is read (R164). -/
def LoadIn.refusal (l : LoadIn) (param : Nat) : Option (Nat × Nat) :=
  let t (r : Nat) (x : Option Nat) : Option (Nat × Nat) := x.map fun i => (r, i)
  t 1 (l.header param) <|> t 2 l.crc <|> t 3 l.target <|> t 4 l.section <|> t 5 l.count <|> t 6 l.ltile <|> t 7 l.region <|>
  t 8 l.opcode <|> t 9 l.format <|> t 0xA l.cvt <|> t 0xB l.bound <|> t 0xC l.extent <|> t 0xD l.operand <|> t 0xE l.link <|>
  t 0xF l.padding <|> t 0x10 l.engine <|> t 0x11 l.entry <|> t 0x12 l.binding

end Sys2Proof.Machine
end

