-- ==== Sys2Proof/Machine/Load.lean ====
section
/-! DEFINITION. Placement and LOAD_PROGRAM (05 R141-R144, R168-R170): logical tiles onto healthy tiles, reservations first fit, the code
and PALETTE_INIT copies, the mapping and the handle. -/

namespace Sys2Proof.Machine

/-- Reservations of one memory: base and length. -/
abbrev Ranges := List (Nat × Nat)

/-- First-fit at the lowest free address of a memory of `size` bytes (R141): the start lies at 0 or at the end of a reservation. -/
def firstFit (size n : Nat) (rs : Ranges) : Option Nat :=
  let starts := sortBy (fun a b => decide (a ≤ b)) (0 :: rs.map fun r => r.1 + r.2)
  starts.find? fun a => decide (a + n ≤ size) && rs.all fun r => !runsOverlap (a, max 1 n) r

/-- Loaded programs. -/
def State.loaded (s : State) : List Program := s.progs.filterMap fun e => e.2.prog

/-- Palette reservations on tile `t` of a program whose map and bases are given. -/
def Image.palRanges (im : Image) (map bases : List Nat) (t : Nat) : Ranges :=
  ((List.range im.ltiles.length).zip im.ltiles).filterMap fun x =>
    if map.getD x.1 0xFF = t then some (bases.getD x.1 0, 64 * x.2.codeCount + x.2.palBytes) else none

/-- Shared-memory reservations on panel `p`. -/
def Image.shrRanges (im : Image) (panels bases : List Nat) (p : Nat) : Ranges :=
  ((List.range panels.length).zip im.groups).filterMap fun x =>
    if panels.getD x.1 4 = p then some (bases.getD x.1 0, x.2.sharedBytes) else none

/-- What placement has taken so far: physical tile and palette base of each logical tile, panel and shared base of each group. -/
structure Placing where
  map : List Nat
  palBase : List Nat
  panel : List Nat
  shrBase : List Nat
deriving DecidableEq, Repr

/-- Palette reservations on a tile: loaded programs' and this placement's. -/
def State.palHeld (s : State) (im : Image) (w : Placing) (t : Nat) : Ranges :=
  (s.loaded.flatMap fun p => p.image.palRanges p.map p.palBase t) ++ im.palRanges w.map w.palBase t

/-- Shared reservations on a panel. -/
def State.shrHeld (s : State) (im : Image) (w : Placing) (p : Nat) : Ranges :=
  (s.loaded.flatMap fun q => q.image.shrRanges q.groupPanel q.shrBase p) ++ im.shrRanges w.panel w.shrBase p

/-- A tile is eligible (R142). -/
def State.eligible (s : State) (avoid : Bool) (t : Nat) : Bool :=
  let x := s.tile t
  !x.retireFuse && !(avoid && (x.st == .quarantined || x.st == .selfTest))

/-- Subsets of {0, 1, 2, 3} from `lo` on with `k` elements, in lexicographic order (R143). -/
def subsets : Nat → Nat → Nat → List (List Nat)
  | _, _, 0 => [[]]
  | 0, _, _ + 1 => []
  | fuel + 1, lo, k + 1 => ((subsets fuel (lo + 1) k).map (lo :: ·)) ++ subsets fuel (lo + 1) (k + 1)

/-- The physical tile at a mesh row and column of a panel (R53). -/
def tileAt (p y x : Nat) : Nat := 16 * p + 4 * y + x

/-- Elements strictly between the first and the last of an increasing list that are not in it. -/
def skipped (xs : List Nat) : List Nat :=
  (List.range 4).filter fun k => !xs.contains k && decide (xs.headD 4 < k) && decide (k < xs.getLastD 0)

/-- Bytes of a logical tile's reservation. -/
def LTile.resvBytes (t : LTile) : Nat := 64 * t.codeCount + t.palBytes

/-- Place the logical tiles of a group at chosen rows and columns: none where a tile does not fit. -/
def State.placeTiles (s : State) (im : Image) (avoid : Bool) (p : Nat) (rows cols : List Nat) :
    Placing → List (Nat × LTile) → Option Placing
  | w, [] => some w
  | w, (i, l) :: ls =>
    let t := tileAt p (rows.getD l.y 0) (cols.getD l.x 0)
    if !s.eligible avoid t || w.map.contains t then none
    else
      match firstFit palBytes l.resvBytes (s.palHeld im w t) with
      | none => none
      | some b => s.placeTiles im avoid p rows cols { w with map := w.map.set i t, palBase := w.palBase.set i b } ls

/-- Place group `g` with one choice of panel, rows and columns (R142). -/
def State.tryPlace (s : State) (im : Image) (avoid : Bool) (w : Placing) (g : Nat) (grp : PGroup) (p : Nat)
    (rows cols : List Nat) : Option Placing :=
  let gone (y x : Nat) : Bool := (s.tile (tileAt p y x)).retireFuse
  if rows.all (fun y => (skipped cols).all fun x => gone y x) && cols.all (fun x => (skipped rows).all fun y => gone y x) then
    match firstFit shrBytes grp.sharedBytes (s.shrHeld im w p) with
    | none => none
    | some b =>
      let ls := (((List.range im.ltiles.length).zip im.ltiles).filter fun x => x.2.group == g)
      s.placeTiles im avoid p rows cols { w with panel := w.panel ++ [p], shrBase := w.shrBase ++ [b] } ls
  else none

/-- The first fit of group `g` in the order of R143. -/
def State.placeGroup (s : State) (im : Image) (avoid : Bool) (w : Placing) (g : Nat) (grp : PGroup) : Option Placing :=
  let choices := (List.range 4).flatMap fun p => (subsets 4 0 grp.rows).flatMap fun r => (subsets 4 0 grp.cols).map fun c => (p, r, c)
  choices.findSome? fun x => s.tryPlace im avoid w g grp x.1 x.2.1 x.2.2

/-- Every group in table order. -/
def State.placeGroups (s : State) (im : Image) (avoid : Bool) : Placing → List (Nat × PGroup) → Option Placing
  | w, [] => some w
  | w, (g, grp) :: gs =>
    match s.placeGroup im avoid w g grp with
    | none => none
    | some w => s.placeGroups im avoid w gs

/-- The placement, or the DETAIL of TILE_SHORT (R143). -/
def State.place (s : State) (im : Image) (avoid : Bool) : Except Nat Placing :=
  if ((List.range 64).filter (s.eligible avoid)).length < im.ltiles.length then .error 1
  else
    match s.placeGroups im avoid
      { map := im.ltiles.map fun _ => 0xFF, palBase := im.ltiles.map fun _ => 0, panel := [], shrBase := [] }
      ((List.range im.groups.length).zip im.groups) with
    | none => .error 2
    | some w => .ok w

/-- Write a program's reservations to zero (R168, R172). -/
def State.zeroProgram (s : State) (p : Program) : State :=
  let s := ((List.range p.image.ltiles.length).zip p.image.ltiles).foldl (fun s e =>
    { s with pal := SMap.erase (palBytes * p.phys e.1 + p.palBase.getD e.1 0) e.2.resvBytes s.pal }) s
  ((List.range p.image.groups.length).zip p.image.groups).foldl (fun s e =>
    { s with shr := SMap.erase (shrBytes * p.groupPanel.getD e.1 0 + p.shrBase.getD e.1 0) e.2.sharedBytes s.shr }) s

/-- Copy each logical tile's code into the front of its reservation. -/
def State.copyCode (s : State) (p : Program) : State :=
  ((List.range p.image.ltiles.length).zip p.image.ltiles).foldl (fun s e =>
    let bs := ((p.image.code.drop e.2.codeFirst).take e.2.codeCount).flatMap fun ws => ws.flatMap (leBytes 4)
    (s.storeBytes (.pal (p.phys e.1) (p.palBase.getD e.1 0)) bs).orElse s) s

/-- The PALETTE_INIT copies, in section order, as pieces of the movers' work (R168). -/
def Program.palInits (p : Program) : List Piece :=
  ((List.range p.image.palInit.length).zip p.image.palInit).flatMap fun x =>
    match p.image.regions[x.2.region]?, p.image.bindings[x.2.binding]? with
    | some r, some b =>
      piecesOf 6 x.1 (.dva ((p.statics.getD b.index (0, 0)).1 + x.2.srcOffset)) (p.planeLoc [] r (x.2.plane == 1)) x.2.bytes none
    | _, _ => []

/-- The generation after `g` (R169): modulo 1,024, skipping 0. -/
def nextGen (g : Nat) : Nat := if (g + 1) % 1024 = 0 then 1 else (g + 1) % 1024

/-- The lowest program slot that holds nothing (R169). -/
def State.freeSlot (s : State) : Option Nat := (List.range 64).find? fun i => (s.pslot i).prog.isNone

/-- What the load's checks read: the image, beside the static binding list read at dispatch (R389). -/
def State.loadIn (s : State) (c : Cmd) : E (State × LoadIn) :=
  let a := locH (c.q 0x40)
  let n := c.w 0x48
  match s.cells a n with
  | .ok cs =>
    let ss := sectionsOf cs (cW cs 0x10 % 65536)
    return (s.touchLoc true a n,
      { c := cs, n := n, ss := ss, im := imageOf cs ss, statics := c.bufs, major := s.silicon.major, minor := s.silicon.minor })
  | .wait => throw .wait
  | .err e => s.accErr a n e

/-- A load that fails once it has reserved: its reservations are zero and no handle is issued (R168). -/
def State.failLoad (s : State) (c : Cmd) (st : Nat) : State :=
  match c.load with
  | none => s
  | some (_, p) =>
    (((s.zeroProgram p).dropUnits c.tok).updCmd c.tok fun c => { c with pieces := [], load := none }).endCmd c.tok st 0

/-- Step 4 of R168: the mapping is written and the handle issued. -/
def State.finishLoad (s : State) (tok : Nat) : State :=
  match s.cmd tok with
  | none => s
  | some c =>
    match c.load with
    | none => s
    | some (slot, p) =>
      s.after (do
        let s ← s.wr (locH (c.q 0x58)) (((List.range 64).map fun i => p.map.getD i 0xFF).flatMap (leBytes 1))
        let gen := nextGen (s.pslot slot).gen
        return (((s.setPslot slot { gen := gen, prog := some p }).updCmd tok fun c => { c with load := none }).endCmd tok 0 (slot + 64 * gen)))
        fun st _ => s.failLoad c st

/-- Step 3 of R168: a placed program's reservations are zero, its code is copied, and the movers take its PALETTE_INIT copies. -/
def State.loadPlaced (s : State) (tok : Nat) (c : Cmd) (l : LoadIn) (slot : Nat) (w : Placing) : State :=
  let p : Program :=
    { image := l.im, map := w.map, palBase := w.palBase, groupPanel := w.panel, shrBase := w.shrBase, statics := l.statics
      flags := c.flags % 4, crc := cW l.c 0x3C }
  let s := (((s.zeroProgram p).copyCode p).begin_ tok).updCmd tok fun c => { c with load := some (slot, p) }
  if p.palInits.isEmpty then s.finishLoad tok else s.startPieces tok p.palInits

/-- LOAD_PROGRAM (R141-R144, R164, R168-R170): the checks, the placement and the reservations; the movers' copies follow. The row of a load
whose copies are done writes a mapping that had to wait. -/
def execLoadProgram (tok : Nat) (s : State) : Host.Outcome State Fault Refusal :=
  .next (match s.mayBegin tok 0x0100 with
  | none =>
    (match (s.running tok).filter fun c => c.load.isSome && c.pieces.isEmpty with
     | some _ => s.finishLoad tok
     | none => s)
  | some c =>
    s.after (do
      let x ← s.loadIn c
      match x.2.refusal (c.w 0x48) with
      | some e => return x.1.instant tok 0x1003 (reject e.2 e.1)
      | none =>
        match x.1.freeSlot with
        | none => return x.1.instant tok 0x1003 (reject 0 0x13)
        | some slot =>
          match x.1.place x.2.im (c.flag 0) with
          | .error d => return x.1.instant tok 0x1004 d
          | .ok w => return x.1.loadPlaced tok c x.2 slot w) fun st d => s.instant tok st d)

end Sys2Proof.Machine
end

