-- ==== Sys2Proof/Machine/Tiles.lean ====
section
/-! DEFINITION. Tile instructions (04 R97-R121, 05 R150-R163): the commands MMA, TILE_REPLAY, OUTPUT_BLOCK_RELEASE, FWD, STAGE, NOP,
WAIT, SIGNAL and END of a running program's tiles. -/

namespace Sys2Proof.Machine

/-- A tile of a running command: command, run, program and the tile's progress. -/
structure OnTile where
  c : Cmd
  r : ProgRun
  p : Program
  t : TileRun
deriving DecidableEq, Repr

/-- The running tile `t` of command `tok`; its tiles must be granted (R415). -/
def State.onTile (s : State) (tok t : Nat) : Option OnTile :=
  if !s.holds tok 0 0 then none
  else
    match s.running tok with
    | none => none
    | some c =>
      match c.run with
      | none => none
      | some r =>
        match s.runProg r, r.tiles.find? fun x => x.phys == t && !x.ended && !x.stopped with
        | some p, some x => some { c := c, r := r, p := p, t := x }
        | _, _ => none

/-- Change a tile's progress. -/
def State.updTile (s : State) (tok t : Nat) (f : TileRun → TileRun) : State :=
  s.updRun tok fun r => { r with tiles := r.tiles.map fun x => if x.phys = t then f x else x }

/-- The instruction at the tile's program counter. -/
def OnTile.instr (o : OnTile) : Option TInstr := o.p.image.instr o.t.pc

/-- Every transfer the tile has sent is taken (R105, R154). -/
def State.sentAll (s : State) (t : Nat) : Bool :=
  (List.range 4).all fun d => (s.link (linkKey t d)).all fun x => x.closed && x.taken

/-- A neighbour's running MMA receives on the link from tile `t` in direction `d`. -/
def ProgRun.receives (r : ProgRun) (s : State) (p : Program) (t d : Nat) : Bool :=
  match s.neighbour t d with
  | none => false
  | some u => r.tiles.any fun x => x.phys == u && x.mma.isSome &&
      (match p.image.instr x.pc with
       | some (.mma i) => (i.b.link == some ((d + 2) % 4) && (match x.mma with | some g => decide (0 < g.k) | none => false)) ||
           i.add.link == some ((d + 2) % 4)
       | _ => false)

/-- Links an instruction receives on. -/
def TInstr.inLinks : TInstr → List Nat
  | .mma i => [i.b.link, i.add.link].filterMap id
  | .fwd i => [i.s.link].filterMap id
  | .stage i => [i.s.link].filterMap id
  | _ => []

/-- Links an instruction sends on. -/
def TInstr.outLinks : TInstr → List Nat
  | .mma i => [i.d.link].filterMap id
  | .fwd i => [i.d.link].filterMap id
  | _ => []

/-- In a command that stops for pre-emption, an instruction still starts where a neighbour has begun to send it a transfer or is
receiving one from it (R423 step 2). -/
def OnTile.stillStarts (o : OnTile) (s : State) (i : TInstr) : Bool :=
  (i.inLinks.any fun d => match s.inLink o.t.phys d with | some k => !(s.link k).isEmpty | none => false) ||
  (i.outLinks.any fun d => o.r.receives s o.p o.t.phys d)

/-- The tile may issue its next instruction (R150, R154, R160, R423). -/
def OnTile.mayIssue (o : OnTile) (s : State) : Bool :=
  o.c.stop.isNone && o.t.mma.isNone && (o.t.waitObj.isNone || o.t.waitMet) && s.sentAll o.t.phys &&
  (o.c.phase == .running || (match o.instr with | some i => o.stillStarts s i | none => false))

/-- A tile reaches an instruction boundary: a pending QUARANTINE write takes effect there and stops the command (R130, R163), with
TILE_QUARANTINED and the tile as DETAIL (DESIGN CHOICE, log entry 62). -/
def State.boundary (s : State) (tok t : Nat) : State :=
  let x := s.tile t
  if x.quarPending then
    let s := s.setTile t { x with st := .quarantined, quarPending := false }
    (s.updTile tok t fun y => { y with stopped := true }).stopCmd tok (srcUnit 0 t) 0x4003 t
  else s.tryStop tok

/-- The tile's instruction is done. -/
def State.nextInstr (s : State) (tok t : Nat) : State :=
  (s.updTile tok t fun x => { x with pc := x.pc + 1, mma := none, waitObj := none, waitMet := false }).boundary tok t

/-- A tile instruction starts: RESIDUE_ON follows the profile (R113, R129). -/
def State.startInstr (s : State) (t : Nat) : State := s.setTile t { s.tile t with residueOn := s.profile == 2 }

/-- The MEM_ISSUE word of the instruction that an error makes unreadable, where the instruction has not issued yet (R160). -/
def OnTile.boundHit (o : OnTile) (h : Hazard) : Option Nat :=
  if o.t.mma.isSome then none
  else
    let ids := match o.instr with | some i => i.bounds | none => []
    (o.r.ctx o.p).boundHit (ids.filter fun i => match o.p.image.bounds[i]? with | some b => b.atIssue | none => false) h

/-! ## MMA -/

/-- The MMA the tile runs or is about to run. -/
def OnTile.mma (o : OnTile) : Option MmaI :=
  match o.instr with
  | some (.mma i) => some i
  | _ => none

/-- The context of a running MMA. -/
def OnTile.mctx (o : OnTile) (i : MmaI) (g : MmaProg) : MmaCtx :=
  { x := o.r.ctx o.p, r := o.r, tok := o.c.tok, t := o.t.phys, i := i, g := g }

/-- The extents of an MMA at its issue, m cut at its descriptor's last output pixel (R158, R160, R254). -/
def OnTile.extents (o : OnTile) (s : State) (i : MmaI) : E (State × MmaProg) := do
  let x := o.r.ctx o.p
  let m ← s.extAt x o.r i.m
  let n ← m.1.extAt x o.r i.n
  let k ← n.1.extAt x o.r i.k
  let g : MmaProg := { m := m.2, n := n.2, k := k.2, np := 0, g := 0, todo := [], mism := 0, replayPending := false }
  match (o.mctx i g).conv with
  | none => return (k.1, g)
  | some (d, _) => return (k.1, { g with m := min g.m (d.n * d.oh * d.ow - i.b.row0) })

/-- The m-group to run next and whether any is left (R102). -/
def MmaProg.left (g : MmaProg) : Bool := decide (g.np < g.nn)

/-- Its accumulator half is still being released (R104). -/
def MmaProg.halfBusy (g : MmaProg) : Bool :=
  g.replayPending || g.todo.any fun b => g.parity b.1 b.2.1 == g.parity g.np g.g

/-- The m-group run last, as n-pass and group. -/
def MmaProg.last (g : MmaProg) : Nat × Nat :=
  if g.g = 0 then (g.np - 1, g.ng - 1) else (g.np, g.g - 1)

/-- The next m-group after (np, g). -/
def MmaProg.bump (g : MmaProg) : MmaProg :=
  if g.g + 1 < g.ng then { g with g := g.g + 1 } else { g with np := g.np + 1, g := 0 }

/-- Rows of a transfer the receiver has all taken. -/
def State.takeLink (s : State) (t : Nat) (l : Option Nat) (slot : Nat) : State :=
  match l with
  | none => s
  | some d => match s.inLink t d with
    | none => s
    | some k => s.updTransfer k slot fun x => { x with taken := true }

/-- Remove the transfers an MMA has received. -/
def State.dropTransfers (s : State) (t : Nat) (ls : List Nat) : State :=
  ls.foldl (fun s d => match s.inLink t d with | none => s | some k => s.setLink k ((s.link k).drop 1)) s

/-- Close the transfer an instruction sent. -/
def State.closeOut (s : State) (t : Nat) (ls : List Nat) : State :=
  ls.foldl (fun s d => s.updLast (linkKey t d) fun x => { x with closed := true }) s

/-- Run the next m-group's passes (R102-R104). -/
def MmaCtx.runGroup (c : MmaCtx) (s : State) : E (State × MmaProg) := do
  let g := c.g
  let s ← c.compute s g.np g.g (List.range (g.blocksOf g.g))
  let g' := { g.bump with todo := g.todo ++ (List.range (g.blocksOf g.g)).map fun b => (g.np, g.g, b) }
  let s := if g'.left then s else s.takeLink c.t c.bLink c.bSlot
  return (s, g')

/-- The instruction has run and released everything: it ends (R105, R154); `b`: the link it took B from. -/
def State.endMma (s : State) (tok t : Nat) (i : MmaI) (b : Option Nat) : State :=
  let s := s.takeLink t i.add.link (if b.isSome && b == i.add.link then 1 else 0)
  let s := s.dropTransfers t ([b, i.add.link].filterMap id)
  (s.closeOut t ((TInstr.mma i).outLinks)).nextInstr tok t

/-- A tile of a command that stops, with nothing of its MMA going on: at a link it waits on (R160), or after an error (R163). -/
def State.giveUp (s : State) (tok t : Nat) : State :=
  (s.updTile tok t fun x => { x with mma := none, stopped := true }).tryStop tok

/-- Keep an MMA's progress, or end it where nothing is left. -/
def State.keepMma (s : State) (tok t : Nat) (i : MmaI) (g : MmaProg) : State :=
  let s := s.updTile tok t fun x => { x with mma := some g }
  if g.dead then (if g.todo.isEmpty then s.giveUp tok t else s)
  else if !g.left && g.todo.isEmpty && !g.replayPending then s.endMma tok t i (if g.k = 0 then none else i.b.link) else s

/-- A tile's MMA stops for good (R119, R160, R163): blocks that have begun release go on to their end (R105). -/
def State.haltMma (s : State) (tok t : Nat) : State :=
  s.updTile tok t fun x => match x.mma with
    | some g => if g.todo.isEmpty then { x with mma := none, stopped := true }
        else { x with mma := some { g with dead := true, replayPending := false, replaying := [] } }
    | none => { x with stopped := true }

/-- What a tile's instruction meets: a contained error stops the tile and its command (R160, R163, R478). -/
def OnTile.meet (o : OnTile) (s : State) (h : Hazard) (k : State → State) : State :=
  let tok := o.c.tok
  let t := o.t.phys
  s.meet (some o.c) (srcUnit 0 t) h (fun s =>
    let s := s.haltMma tok t
    match o.boundHit h with
    | some i => s.stopCmd tok (srcUnit 0 t) 0x1002 i
    | none => s.stopCmd tok (srcUnit 0 t) 0x4002 0) k

/-- The MMA waits for rows of a link. -/
def MmaCtx.linkShort (c : MmaCtx) (s : State) : Bool :=
  let short (l : Option Nat) (slot : Nat) : Bool :=
    match l.bind fun d => s.inLink c.t d with
    | none => false
    | some k => match (s.link k)[slot]? with
      | none => true
      | some x => !x.closed && decide (x.rows.length < c.g.m)
  short c.bLink c.bSlot || short c.i.add.link c.addSlot

/-- What a computation on a running MMA leaves: a wait on a link of a stopping command ends it, and an error stops the tile. `rel`: the
computation is the release of a block, and no later one follows it. -/
def OnTile.settleMma (o : OnTile) (s : State) (c : MmaCtx) (rel : Bool) (r : E State) : State :=
  match r with
  | .error .wait => if o.c.stop.isSome && c.linkShort s then s.giveUp o.c.tok o.t.phys else s
  | .error (.err st d) => (if rel then s.giveUp o.c.tok o.t.phys else s.haltMma o.c.tok o.t.phys).stopCmd o.c.tok (srcUnit 0 o.t.phys) st d
  | r => s.runErr o.c.tok (srcUnit 0 o.t.phys) r

/-- Count a suspect column (R132). -/
def Tile.suspect (x : Tile) (col : Nat) : Tile × Bool :=
  if x.suspects.any fun e => e.col == col then
    ({ x with suspects := x.suspects.map fun e => if e.col = col then { e with count := min (e.count + 1) 0xFFFF } else e }, false)
  else if x.suspects.length < 8 then ({ x with suspects := x.suspects ++ [{ col := col, count := 1 }] }, false)
  else (x, true)

/-- Count the suspect columns of an event. -/
def State.suspects (s : State) (t : Nat) (cols : List Nat) : State :=
  cols.foldl (fun s c =>
    let r := (s.tile t).suspect c
    let s := s.setTile t r.1
    if r.2 then s.bumpF (0x10010C + 0x1000 * t) 15 0 1 else s) s

/-- The RESIDUE record of an event (R121, R587). -/
def State.residueRecord (s : State) (t outcome : Nat) (cols : List Nat) : State :=
  s.record 0x10 1 (srcUnit 0 t) (leBytes 1 t ++ leBytes 1 outcome ++ leBytes 2 cols.length ++
    (((cols.take 16) ++ List.replicate (16 - cols.length) 0xFFFF).flatMap fun c => leBytes 2 c))

/-- The first mismatch event of a tile instruction (R116, R121). -/
def State.firstEvent (s : State) (t : Nat) (cols : List Nat) : State :=
  ((s.bump (0x100100 + 0x1000 * t) 1).suspects t cols).residueRecord t 0 cols

/-- The second one: the tile is quarantined (R119, R121). -/
def State.secondEvent (s : State) (t : Nat) (cols : List Nat) : State :=
  let s := (((s.bump (0x100100 + 0x1000 * t) 1).suspects t cols).residueRecord t 1 cols).bumpF (0x100108 + 0x1000 * t) 15 0 1
  s.setTile t { s.tile t with st := .quarantined, quarPending := false }

/-- A mismatch event (R116-R121): the first one of an instruction discards the current m-group's blocks for a replay, the second
quarantines the tile and stops the command. -/
def OnTile.event (o : OnTile) (s : State) (i : MmaI) (g : MmaProg) (cols : List Nat) : State :=
  let t := o.t.phys
  let tok := o.c.tok
  let cur := g.last
  let mine := g.todo.filter fun b => b.1 == cur.1 && b.2.1 == cur.2
  let rest := g.todo.filter fun b => !mine.contains b
  if g.mism = 0 then
    let s := s.firstEvent t cols
    let s := s.setTile t { s.tile t with st := .replaying }
    s.keepMma tok t i { g with mism := 1, replayPending := true, replaying := mine, todo := rest }
  else
    let s := (s.secondEvent t cols).updTile tok t fun x => { x with mma := some { g with todo := rest } }
    (s.haltMma tok t).stopCmd tok (srcUnit 0 t) 0x4001 0

/-- The physical columns of the event that faults bring to the blocks `bs` of m-group `at_`, in Finish (R113, R114, R116). -/
def MmaCtx.eventCols (c : MmaCtx) (s : State) (at_ : Nat × Nat) (bs : List Nat) (fs : List ColFault) : List Nat :=
  if (s.tile c.t).residueOn then (s.tile c.t).faultCols fs (c.faultFails s at_.1 at_.2 bs) else []

/-- One MMA row: run the next m-group. An event falls into that group, or into the group run last where its blocks are not all released. -/
def OnTile.mmaRow (o : OnTile) (s : State) (i : MmaI) (g : MmaProg) (fs : List ColFault) : State :=
  let t := o.t.phys
  let tok := o.c.tok
  let c := o.mctx i g
  let late := c.eventCols s g.last ((g.todo.filter fun b => b.1 == g.last.1 && b.2.1 == g.last.2).map (·.2.2)) fs
  if g.dead then s
  else if !late.isEmpty then o.event s i g late
  else if !g.left || g.halfBusy then s
  else
    o.settleMma s c false (do
      let r ← c.runGroup s
      let cols := c.eventCols s (g.np, g.g) (List.range (g.blocksOf g.g)) fs
      return (if cols.isEmpty then r.1.keepMma tok t i r.2
        else o.event (r.1.updTile tok t fun x => { x with mma := some r.2 }) i r.2 cols))

/-- MMA (R97-R117, R151, R160, R162): the instruction starts, or its next m-group runs; `fs`: faults in the array meanwhile. -/
def execMma (tok : Nat) (t : Fin 64) (fs : List ColFault) (h : Hazard) (s : State) : Host.Outcome State Fault Refusal :=
  .next (match s.onTile tok t.val with
  | none => s
  | some o =>
    match o.mma with
    | none => s
    | some i =>
      match o.t.mma with
      | some g => o.meet s h fun s => o.mmaRow s i g fs
      | none =>
        if !o.mayIssue s then s
        else
          o.meet s h fun s =>
            match o.extents s i with
            | .error e => s.runErr tok (srcUnit 0 t.val) (.error e)
            | .ok (s1, g) =>
              let s1 := s1.startInstr t.val
              if g.m = 0 ∨ g.n = 0 then s1.nextInstr tok t.val
              else
                let s1 := (TInstr.mma i).outLinks.foldl (fun s d => s.openTransfer (linkKey t.val d)) s1
                o.mmaRow (s1.updTile tok t.val fun x => { x with mma := some g }) i g fs)

/-- TILE_REPLAY (R117, R118): the discarded blocks are run again from their initial values. -/
def execTileReplay (tok : Nat) (t : Fin 64) (s : State) : Host.Outcome State Fault Refusal :=
  .next (match s.onTile tok t.val with
  | none => s
  | some o =>
    match o.mma, o.t.mma with
    | some i, some g =>
      if !g.replayPending then s
      else
        let c := o.mctx i g
        let cur := g.last
        o.settleMma s c false (do
          let s ← c.compute s cur.1 cur.2 (g.replaying.map fun b => b.2.2)
          return s.keepMma tok t.val i { g with replayPending := false, todo := g.todo ++ g.replaying })
    | _, _ => s)

/-- A replay whose blocks are all released is counted and the tile runs on (R117, R121). -/
def State.replayEnds (s : State) (t : Nat) (g : MmaProg) : State × MmaProg :=
  if g.replaying.isEmpty || g.replayPending || g.replaying.any (fun b => g.todo.contains b) then (s, g)
  else
    let s := (s.bump (0x100104 + 0x1000 * t) 1).setTile t { s.tile t with st := .running }
    (s, { g with replaying := [] })

/-- What the release of a block meets: a contained error ends it and every later one. -/
def OnTile.meetRelease (o : OnTile) (s : State) (h : Hazard) (k : State → State) : State :=
  s.meet (some o.c) (srcUnit 0 o.t.phys) h (fun s =>
    (s.giveUp o.c.tok o.t.phys).stopCmd o.c.tok (srcUnit 0 o.t.phys) 0x4002 0) k

/-- OUTPUT_BLOCK_RELEASE (R105, R227, R256): the oldest finished block of the instruction is released. -/
def execOutputBlockRelease (tok : Nat) (t : Fin 64) (h : Hazard) (s : State) : Host.Outcome State Fault Refusal :=
  .next (match s.onTile tok t.val with
  | none => s
  | some o =>
    match o.mma, o.t.mma with
    | some i, some g =>
      match g.todo with
      | [] => s
      | b :: bs =>
        o.meetRelease s h fun s =>
          let c := o.mctx i g
          o.settleMma s c true (do
            let s ← c.release s o.c b.1 b.2.1 b.2.2
            let s := if 1 ≤ i.d.kind ∧ i.d.kind ≤ 3 then s.updRun tok fun r => { r with wrote := true } else s
            let x := s.replayEnds t.val { g with todo := bs }
            return x.1.keepMma tok t.val i x.2)
    | _, _ => s)

/-! ## FWD and STAGE (R155, R162) -/

/-- Row `r` of a source: a region's row, or a link's first transfer. -/
def OnTile.srcRow (o : OnTile) (s : State) (src : ORef) (r e : Nat) : E (State × RowVals) :=
  match src.link with
  | some d =>
    match (s.inLink o.t.phys d).bind fun k => s.linkRow k 0 r with
    | some v => .ok (s, { elems := v.elems, scales := v.scales })
    | none => .error .wait
  | none =>
    let x := o.r.ctx o.p
    match x.region src.index with
    | some g => s.readAny x g (src.row0 + r) src.col0 e
    | none => .ok (s, { elems := [], scales := [] })

/-- Replace elements of a packed feed word. -/
def putElems (f : EFmt) (bs : List Byte) (at_ : Nat → Option Nat) (n : Nat) : List Byte :=
  pack f ((List.range n).map fun i => (at_ i).getD (elemIn f bs i))

/-- Write one row into a FEED region (R148): its elements of each feed word, and its scales. -/
def State.writeFeed (s : State) (x : Ctx) (r : Region) (row c0 : Nat) (v : RowVals) : E State := do
  let f := r.ef
  let es := v.elems ++ List.replicate (roundUp v.elems.length r.blk - v.elems.length) 0
  let base := x.p.planeLoc x.binds r false
  let sbase := x.p.planeLoc x.binds r true
  let w := 32 * r.rho * f.bits / 8
  let s ← foldE (fun (s : State) k => do
    let c := c0 + 32 * k
    let a := base.plus (r.feedAt row c).1
    let old ← s.rd a w
    let lane := row % r.rho
    old.1.wr a (putElems f old.2 (fun i => if i % r.rho = lane then es[32 * k + i / r.rho]? else none) (32 * r.rho)))
    s (List.range ((es.length + 31) / 32))
  if f.scaled then
    foldE (fun (s : State) k => s.wr (sbase.plus (r.feedAt row (c0 + r.blk * k)).2.2) (leBytes f.scaleBytes (v.scales.getD k 0))) s
      (List.range v.scales.length)
  else return s

/-- Put row `r` of an FWD or a STAGE at its destination. -/
def OnTile.putRow (o : OnTile) (s : State) (dst : ORef) (feed : Bool) (r : Nat) (v : RowVals) : E State :=
  let x := o.r.ctx o.p
  match dst.link with
  | some d => .ok (s.updLast (linkKey o.t.phys d) fun t => { t with rows := t.rows ++ [{ elems := v.elems, scales := v.scales }] })
  | none =>
    match x.region dst.index with
    | none => .ok s
    | some g => if feed then s.writeFeed x g (dst.row0 + r) dst.col0 v else s.writeRow x g (dst.row0 + r) dst.col0 v

/-- Move every row of an FWD or a STAGE. -/
def OnTile.moveRows (o : OnTile) (s : State) (i : MoveI) (feed : Bool) (m e : Nat) : E State :=
  foldE (fun (s : State) r => do
    let v ← o.srcRow s i.s r e
    o.putRow v.1 i.d feed r { v.2 with elems := v.2.elems.take e }) s (List.range m)

/-- An FWD or a STAGE: nothing is written or taken from a link unless all of it runs. -/
def OnTile.move (o : OnTile) (s : State) (i : MoveI) (ins : TInstr) (feed : Bool) : E State := do
  let x := o.r.ctx o.p
  let m ← s.extAt x o.r i.m
  let e ← m.1.extAt x o.r i.e
  let s := e.1.startInstr o.t.phys
  if m.2 = 0 ∨ e.2 = 0 then return s.nextInstr o.c.tok o.t.phys
  else
    let s := ins.outLinks.foldl (fun s d => s.openTransfer (linkKey o.t.phys d)) s
    let s ← o.moveRows s i feed m.2 e.2
    let s := s.dropTransfers o.t.phys ins.inLinks
    let s := s.closeOut o.t.phys ins.outLinks
    let s := if i.d.kind = 1 then s.updRun o.c.tok fun r => { r with wrote := true } else s
    return s.nextInstr o.c.tok o.t.phys

/-- FWD (R155). -/
def execFwd (tok : Nat) (t : Fin 64) (h : Hazard) (s : State) : Host.Outcome State Fault Refusal :=
  .next (match s.onTile tok t.val with
  | none => s
  | some o =>
    match o.instr with
    | some (.fwd i) =>
      if !o.mayIssue s then s
      else o.meet s h fun s => s.runErr tok (srcUnit 0 t.val) (o.move s i (.fwd i) false)
    | _ => s)

/-- STAGE (R155). -/
def execStage (tok : Nat) (t : Fin 64) (h : Hazard) (s : State) : Host.Outcome State Fault Refusal :=
  .next (match s.onTile tok t.val with
  | none => s
  | some o =>
    match o.instr with
    | some (.stage i) =>
      if !o.mayIssue s then s
      else o.meet s h fun s => s.runErr tok (srcUnit 0 t.val) (o.move s i (.stage i) true)
    | _ => s)

/-! ## NOP, WAIT, SIGNAL, END -/

/-- NOP of a tile (R150). -/
def execTileNop (tok : Nat) (t : Fin 64) (s : State) : Host.Outcome State Fault Refusal :=
  .next (match s.onTile tok t.val with
  | none => s
  | some o =>
    match o.instr with
    | some .nop => if o.mayIssue s then (s.startInstr t.val).nextInstr tok t.val else s
    | _ => s)

/-- The object a SYNC index names (R155). -/
def ProgRun.syncObj (r : ProgRun) (i : Nat) : Nat := r.syncs.getD i 0

/-- WAIT (R155, R160, R407, R408): the wait begins, or one that is satisfied ends. -/
def execTileWait (a : MetBy) (t : Fin 64) (s : State) : Host.Outcome State Fault Refusal :=
  .next (match s.onTile a.tok t.val with
  | none => s
  | some o =>
    match o.instr with
    | some (.wait sy v vref) =>
      if o.t.waitMet ∧ o.c.phase = .running then s.nextInstr a.tok t.val
      else if o.t.waitObj.isSome || !o.mayIssue s then s
      else
        let x := o.r.ctx o.p
        o.meet s a.met fun s => s.runErr a.tok (srcUnit 0 t.val) (do
          let target ← (if bits vref 31 31 = 1 then s.extAt x o.r vref else .ok (s, v))
          let s := target.1.startInstr t.val
          let obj := o.r.syncObj sy
          if target.2 ≤ (s.obj obj).value then return s.nextInstr a.tok t.val
          else return s.updTile a.tok t.val fun y => { y with waitObj := some (obj, target.2), waitMet := false })
    | _ => s)

/-- SIGNAL (R155, R404). -/
def execTileSignal (tok : Nat) (t : Fin 64) (s : State) : Host.Outcome State Fault Refusal :=
  .next (match s.onTile tok t.val with
  | none => s
  | some o =>
    match o.instr with
    | some (.signal sy n) =>
      if o.mayIssue s then ((s.startInstr t.val).cmdSignal tok (o.r.syncObj sy) n).nextInstr tok t.val else s
    | _ => s)

/-- END (R150, R163): the tile's part ends; the command ends with the last one. -/
def execEndTile (tok : Nat) (t : Fin 64) (s : State) : Host.Outcome State Fault Refusal :=
  .next (match s.onTile tok t.val with
  | none => s
  | some o =>
    match o.instr with
    | some .fin =>
      if o.mayIssue s then
        ((((s.startInstr t.val).updTile tok t.val fun x => { x with ended := true }).boundary tok t.val).tryFinish tok)
      else s
    | _ => s)

/-! ## RUN and UNLOAD_PROGRAM (R120, R159, R169, R171, R172) -/

/-- RUN (R120, R159, R171). -/
def execRun (a : MetBy) (s : State) : Host.Outcome State Fault Refusal :=
  .next (match s.mayBegin a.tok 0x0101 with
  | none => s
  | some c =>
    s.meetStart c a.met fun s =>
    let hd := c.f 0x40 15 0
    let e := c.f 0x40 23 16
    match s.programFor c hd with
    | none => s.instant a.tok 0x1003 (reject 0 0x13)
    | some p =>
      if ((p.image.entries[e]?).map (·.kind)) ≠ some 0 then s.instant a.tok 0x1003 (reject e 0x11)
      else
        s.after (do
          match p.image.badBinding 1 (fun i => c.bufs[i]?) with
          | some b => return s.instant a.tok 0x1003 (reject b 0x12)
          | none =>
            match s.blockedTile (p.needed e) with
            | some t => return s.instant a.tok 0x4003 t
            | none =>
              let run : ProgRun :=
                { handle := hd, entry := e, kind := 0, syncs := c.syncs, binds := p.bufs 1 (fun i => c.bufs[i]?), words := c.words
                  bounds := [], scene := 0, frame := 1, streams := [], tiles := [], entries := [], wrote := false
                  started := false, scattering := false, listLen := 0 }
              match s.startBounds (run.ctx p) run.words 0 e a.met with
              | .error (.err st i) => return (s.noteStart c (run.ctx p) e st i a.met).instant a.tok st i
              | .error x => throw x
              | .ok b =>
                let s := (b.1.begin_ a.tok).updCmd a.tok fun c => { c with run := some { run with bounds := b.2 } }
                return (s.startProgram a.tok).tryFinish a.tok) fun st d => s.instant a.tok st d)

/-- UNLOAD_PROGRAM (R169, R172): refused while an open scene names the program; its reservations are written to zero. -/
def execUnloadProgram (tok : Nat) (s : State) : Host.Outcome State Fault Refusal :=
  .next (match s.mayBegin tok 0x0102 with
  | none => s
  | some c =>
    let h := c.f 0x40 15 0
    match s.program h with
    | none => s.instant tok 0x1003 (reject 0 0x13)
    | some p =>
      if s.inScene h then
        s.instant tok 0x1003 (reject 0 0x14)
      else
        let s := s.zeroProgram p
        (s.setPslot (h % 64) { s.pslot (h % 64) with prog := none }).instant tok 0 0)

end Sys2Proof.Machine
end

