-- ==== Sys2Proof/Machine/Engine.lean ====
section
/-! DEFINITION. Engine entries of a running command (06 R186, 07 R225, 08 R269): when one starts, its units in issue order, and its
end. An entry is named by its place in the command's issue order: CONV engine ops, then ENGINE entries. -/

namespace Sys2Proof.Machine

/-- A running engine entry: its command, run, program, place and words, one of its units and the instance the unit holds. -/
structure OnEntry where
  c : Cmd
  r : ProgRun
  p : Program
  pos : Nat
  e : EntryRun
  ws : List Nat
  u : UnitRun := { n := 0 }
  inst : Nat := 0
deriving DecidableEq, Repr

/-- Words of an engine entry. -/
def Program.entryWords (p : Program) (e : EntryRun) : List Nat :=
  ((if e.conv then p.image.conv[e.idx]? else p.image.engine[e.idx]?)).getD []

/-- Entry `e` of a running command that neither stops nor is pre-empted. -/
def State.entryAt (s : State) (tok e : Nat) : Option OnEntry :=
  match (s.running tok).filter fun c => c.phase == .running && c.stop.isNone with
  | none => none
  | some c =>
    match c.run with
    | none => none
    | some r =>
      match s.runProg r, r.entries[e]? with
      | some p, some x => some { c := c, r := r, p := p, pos := e, e := x, ws := p.entryWords x }
      | _, _ => none

/-- Unit `u` of entry `e` runs: the entry has started, the unit has not ended, and it holds an instance. -/
def State.onEntry (s : State) (tok e u : Nat) : Option OnEntry :=
  match (s.entryAt tok e).filter fun o => o.e.started && !o.e.done with
  | none => none
  | some o =>
    match o.e.units.find? fun x => x.n == u, (s.unitOf tok o.e.kind e u).filter (·.held) with
    | some x, some v => some { o with u := x, inst := v.inst }
    | _, _ => none

/-- SOURCE of the unit (R587). -/
def OnEntry.src (o : OnEntry) : Nat := srcUnit o.e.kind o.inst

/-- The context of the entry's regions. -/
def OnEntry.x (o : OnEntry) : Ctx := o.r.ctx o.p

/-- Change an entry's progress. -/
def State.updEntry (s : State) (tok e : Nat) (f : EntryRun → EntryRun) : State :=
  s.updRun tok fun r => { r with entries := ((List.range r.entries.length).zip r.entries).map fun x => if x.1 = e then f x.2 else x.2 }

/-- The entry has done all its work: it signals once, and the command ends where nothing is left. -/
def State.endEntry (s : State) (o : OnEntry) : State :=
  let hd := headOf o.ws
  let tok := o.c.tok
  let s := s.updEntry tok o.pos fun x => { x with done := true, units := [] }
  let s := if hd.sigEn then s.cmdSignal tok (o.r.syncs.getD hd.sigSync 0) hd.sigAdd else s
  s.tryFinish tok

/-- Units of the entry leave: their instances are given up, and the entry ends where none is left. -/
def State.dropEntryUnits (s : State) (o : OnEntry) (gone : UnitRun → Bool) : State :=
  let tok := o.c.tok
  let s := (o.e.units.filter gone).foldl (fun s x =>
    match s.unitOf tok o.e.kind o.pos x.n with
    | some u => s.dropUnit u
    | none => s) s
  let s := s.updEntry tok o.pos fun x => { x with units := x.units.filter fun y => !gone y }
  if o.e.units.all gone then s.endEntry o else s

/-- Stream `n` of the command has failed: its remaining units are skipped (R199, R233). -/
def ProgRun.lost (r : ProgRun) (n : Nat) : Bool :=
  match r.nth n with
  | some x => x.status != 0
  | none => true

/-- The entry's units are streams of the command. -/
def EntryRun.byStream (e : EntryRun) : Bool := e.kind == 1 || e.kind == 2

/-- One engine step is done: the next chunk of the unit, or the unit's end. `wrote`: the step wrote a byte. -/
def State.advEntry (s : State) (o : OnEntry) (last wrote : Bool) (buf : List Nat) : State :=
  let tok := o.c.tok
  let s := if wrote then s.updRun tok fun r => { r with wrote := true } else s
  if last then s.dropEntryUnits o fun x => x.n == o.u.n
  else s.updEntry tok o.pos fun x =>
    { x with units := x.units.map fun y => if y.n = o.u.n then { y with chunk := o.u.chunk + 1, buf := buf } else y }

/-- A stream of the command has failed: its units of every glaze and attention entry are skipped (R199, R233). -/
def State.skipLost (s : State) (tok : Nat) : State :=
  match (s.cmd tok).bind (·.run) with
  | none => s
  | some r => (List.range r.entries.length).foldl (fun s e =>
      match s.entryAt tok e with
      | none => s
      | some o =>
        if o.e.started && !o.e.done && o.e.byStream && (o.e.units.any fun x => o.r.lost x.n) then
          s.dropEntryUnits o fun x => o.r.lost x.n
        else s) s

/-- Units of an entry in issue order (R186, R225, R269): those of failed streams are skipped. -/
def OnEntry.firstUnits (o : OnEntry) (s : State) : List Nat :=
  let all := (List.range o.r.passed.length).filter fun n => !o.r.lost n
  match o.e.kind with
  | 1 => all
  | 2 =>
    let b (n : Nat) : Nat := match o.r.nth n with | some x => (s.strm x.stream).bucket | none => 0
    sortBy (fun i j => decide (b j ≤ b i)) all
  | 4 => List.range (o.r.ext (CropE.ofWords o.ws).boxes)
  | _ => List.range (o.r.ext (ConvD.ofWords o.ws).n)

/-- ENGINE_ENTRY_START (R186, R269): the entry's WAIT is satisfied, or there is none; its units become ready, each for any instance
of its kind. -/
def execEngineEntryStart (tok : Nat) (e : Nat) (s : State) : Host.Outcome State Fault Refusal :=
  .next (match s.entryAt tok e with
  | none => s
  | some o =>
    if o.e.started || o.e.done || (o.e.waitOn.isSome && !o.e.waitMet) then s
    else
      let us := o.firstUnits s
      let s := s.updEntry tok e fun x => { x with started := true, waitOn := none, units := us.map fun n => { n := n } }
      if us.isEmpty then s.endEntry o else us.foldl (fun s n => s.addUnit tok o.e.kind e [] n) s)

end Sys2Proof.Machine
end

