-- ==== Sys2Proof/Machine/Attention.lean ====
section
/-! DEFINITION. The attention engine (07 R214-R226, R233): the command QUERY_BLOCK, one query block of one unit over every query head
and every visible page. -/

namespace Sys2Proof.Machine

/-- A unit's query block: the entry's fields, its layer, the layers of the directory, the stream, its number, scene, span and place. -/
structure QueryAt where
  a : AttE
  l : AttLayer
  ls : List AttLayer
  st : StepStream
  n : Nat
  sc : Scene
  q : Nat
  k : Nat
deriving DecidableEq, Repr

/-- The query block an entry runs next. -/
def OnEntry.query (o : OnEntry) (s : State) : Option QueryAt :=
  if o.e.conv || o.e.kind != 2 then none
  else
    match s.scene o.r.scene with
    | none => none
    | some sc =>
      let ls := o.p.layers sc.f
      match o.r.nth o.u.n, ls.find? fun l => l.idx == o.e.idx with
      | some x, some l => some { a := l.a, l := l, ls := ls, st := x, n := o.u.n, sc := sc, q := o.r.q o.c, k := o.u.chunk }
      | _, _ => none

/-- Rows of the block: offsets within the stream's span (R223). -/
def QueryAt.rows (b : QueryAt) : List Nat := (List.range (min 64 (b.q - 64 * b.k))).map (· + 64 * b.k)

/-- It is the unit's last query block. -/
def QueryAt.last (b : QueryAt) : Bool := decide (b.q ≤ 64 * (b.k + 1))

/-- Key positions a query at `pos` sees (R222), from the first to before the second. -/
def QueryAt.sees (b : QueryAt) (pos : Nat) : Nat × Nat :=
  let f := max 1 b.sc.f
  let fq := pos / f
  (if b.a.ring then (fq + 1 - b.a.window) * f else 0, min ((fq + 1) * f) (b.st.p0 + b.q))

/-- Page indices some row of the block sees, in increasing order (R224). -/
def QueryAt.pages (b : QueryAt) : List Nat :=
  let vis := b.rows.map fun r => b.sees (b.st.p0 + r)
  let lo := (vis.map (·.1)).foldl min ((vis.headD (0, 0)).1)
  let hi := (vis.map (·.2)).foldl max 0
  if hi ≤ lo then [] else (List.range ((hi - 1) / 64 + 1 - lo / 64)).map (· + lo / 64)

/-- The page that holds page index `j`, and whether the stream's committed directory lists it. -/
def State.pageFor (s : State) (b : QueryAt) (j : Nat) : E (State × Nat × Bool) :=
  match b.st.pend.find? fun p => p.layer == b.l.idx && p.j == j with
  | some p => .ok (s, p.page, p.act == .inPlace)
  | none => do
    let pg ← s.dirSlot b.st.stream (b.l.slot b.ls j)
    return (pg.1, pg.2, true)

/-- `n` cached elements and their scales at two offsets of a page. -/
def State.pageRow (s : State) (a : AttE) (pg : Nat) (off : Nat × Nat) (n : Nat) : E (State × RowVals) := do
  let at_ := s.pool.pageLoc pg
  let e ← s.rd (.dva (at_.1 + off.1)) (n * a.eb)
  if a.ef.scaled then
    let c ← e.1.rd (.dva (at_.2 + off.2)) (n / a.blk)
    return (c.1, { elems := unpack a.ef n e.2, scales := c.2.map (·.toNat) })
  else return (e.1, { elems := unpack a.ef n e.2, scales := [] })

/-- Keys of one head of a page, one row a position. -/
def State.pageKeys (s : State) (a : AttE) (pg h : Nat) : E (State × List RowVals) :=
  foldE (fun (z : State × List RowVals) i => do
    let v ← z.1.pageRow a pg (a.keyOff h i 0) a.dh
    return (v.1, z.2 ++ [v.2])) (s, []) (List.range 64)

/-- Values of one head of a page, one column a dimension. -/
def State.pageVals (s : State) (a : AttE) (pg h : Nat) : E (State × List RowVals) :=
  foldE (fun (z : State × List RowVals) d => do
    let v ← z.1.pageRow a pg (a.valOff h 0 d) 64
    return (v.1, z.2 ++ [v.2])) (s, []) (List.range a.dh)

/-- A query row of one head under way (R223). -/
structure QRow where
  pos : Nat
  q : RowVals
  m : Val
  l : Val
  o : List Val
deriving DecidableEq, Repr

/-- The larger of two values; a NaN stays one. -/
def Val.maxN (a b : Val) : Val := if a.isNan || b.isNan then .nan else if a.lt b then b else a

/-- Minus infinity. -/
def negInf : Val := .inf true

/-- One row over one page (R223): `keys` and `vals` of its key-value head, `j` the page index. -/
def QueryAt.rowPage (b : QueryAt) (j : Nat) (keys vals : List RowVals) (r : QRow) : QRow :=
  let a := b.a
  let v := b.sees r.pos
  let vis (i : Nat) : Bool := decide (v.1 ≤ 64 * j + i) && decide (64 * j + i < v.2)
  if !(List.range 64).any vis then r
  else
    let sc := (keys.map fun k => mul32 (dot a.ef a.ef a.blk Val.zero r.q k) (dec32 a.scale))
    let seen := ((List.range 64).zip sc).filter fun e => vis e.1
    let mn := (seen.map (·.2)).foldl Val.maxN r.m
    let alpha := if r.m = negInf then Val.zero else exp32 (sub32 r.m mn)
    let p := ((List.range 64).zip sc).map fun e => if vis e.1 then exp32 (sub32 e.2 mn) else Val.zero
    let sum := (((List.range 64).zip p).filter fun e => vis e.1).foldl (fun t e => add32 t e.2) Val.zero
    let pc := convRow a.cvt p (allRne p)
    let pr : RowVals := { elems := pc.1, scales := pc.2.1 }
    { r with m := mn, l := add32 (mul32 r.l alpha) sum
             o := r.o.zipWith (fun o c => add32 (mul32 o alpha) (dot a.ef a.ef a.blk Val.zero pr c)) vals }

/-- The rows of one query head at the block's start: rotated and converted (R221, R223). -/
def QueryAt.headRows (b : QueryAt) (fs : List Nat) (qs : List (Nat × List Val)) (hq : Nat) : List QRow :=
  qs.map fun e =>
    let pos := b.st.p0 + e.1
    let x := b.a.rotate b.sc fs pos 0 ((e.2.drop (hq * b.a.dh)).take b.a.dh)
    let c := convRow b.a.cvt x (allRne x)
    { pos := pos, q := { elems := c.1, scales := c.2.1 }, m := negInf, l := Val.zero, o := List.replicate b.a.dh Val.zero }

/-- Why a query block's work cannot go on: a committed page of the stream is lost, or any other stop. -/
inductive QStop where
  | page (detail : Nat)
  | other (e : Stop)
deriving DecidableEq, Repr

/-- A read of a page with its place noted: an uncorrectable one of a listed page fails the stream alone (R233). -/
def pageErr {α : Type} (listed : Bool) : E α → Except QStop α
  | .ok a => .ok a
  | .error (.err 0x4002 d) => if listed then .error (.page d) else .error (.other (.err 0x4002 d))
  | .error e => .error (.other e)

/-- A fold of such work. -/
def foldQ {α β : Type} (f : β → α → Except QStop β) : β → List α → Except QStop β
  | b, [] => .ok b
  | b, a :: as => (f b a).bind fun b' => foldQ f b' as

/-- One head of the block over its pages. -/
def State.headBlock (s : State) (b : QueryAt) (fs : List Nat) (qs : List (Nat × List Val)) (hq : Nat) :
    Except QStop (State × List QRow) :=
  foldQ (fun (z : State × List QRow) j => do
    let pg ← pageErr false (z.1.pageFor b j)
    let ks ← pageErr pg.2.2 (pg.1.pageKeys b.a pg.2.1 (hq / max 1 b.a.group))
    let vs ← pageErr pg.2.2 (ks.1.pageVals b.a pg.2.1 (hq / max 1 b.a.group))
    return (vs.1, z.2.map (b.rowPage j ks.2 vs.2))) (s, b.headRows fs qs hq) b.pages

/-- Non-finite elements of a converted row. -/
def nonFinOf (c : Cvt) (k : List Nat × List Nat × Nat) : Nat :=
  ((rowValues c.fmt (if c.fmt.scaled then c.block else 1) { elems := k.1, scales := k.2.1 }).filter Val.nonFinite).length

/-- The lent tiles that sit in the WAIT that lends them (R216, R226). -/
def OnEntry.lentTiles (o : OnEntry) (a : AttE) : List TileRun :=
  let obj := o.r.syncs.getD (headOf o.ws).sigSync 0
  o.r.tiles.filter fun t => bits a.tiles t.logical t.logical == 1 && !t.waitMet &&
    (match t.waitObj with | some (w, _) => w == obj | none => false)

/-- Some lent tile sits in the WAIT that lends it. -/
def OnEntry.lent (o : OnEntry) (a : AttE) : Bool := !(o.lentTiles a).isEmpty

/-- What a query block leaves in the tiles that ran it (R226): free bytes in their scratch ranges, where the pages were staged; the spec does
not say how. DESIGN CHOICE, log entry 79. -/
def State.useTiles (s : State) (p : Program) (a : AttE) (ts : List TileRun) : State :=
  ts.foldl (fun s t => s.scribble (.pal t.phys (p.palStart t.logical + a.scrOff)) a.scrBytes) s

/-- The whole block: every head over its pages, then the Y rows (R223). -/
def OnEntry.queryBlock (o : OnEntry) (s : State) (b : QueryAt) : Except QStop State := do
  let a := b.a
  let x := o.x
  let fs ← pageErr false (s.freqs x a)
  let qs ← pageErr false (foldE (fun (z : State × List (Nat × List Val)) r =>
    match x.region a.q.index with
    | none => .ok z
    | some g => do
      let v ← z.1.readVals x g (b.n * b.q + r) 0 (a.hq * a.dh)
      return (v.1, z.2 ++ [(r, v.2)])) (fs.1, []) b.rows)
  let hs ← foldQ (fun (z : State × List (List QRow)) hq => do
    let r ← z.1.headBlock b fs.2 qs.2 hq
    return (r.1, z.2 ++ [r.2])) (qs.1, []) (List.range a.hq)
  let c := cvtOf a.yCvt
  let ys := (List.range b.rows.length).map fun i =>
    hs.2.flatMap fun h => match h[i]? with
      | some r => r.o.map fun v => div32 v r.l
      | none => []
  let w ← pageErr false (foldE (fun (z : State × Nat) e =>
    match x.region a.y.index with
    | none => .ok z
    | some g => do
      let k := convRow c e.2 (c.modes e.2)
      let s ← z.1.writeRow x g (b.n * b.q + e.1) 0 { elems := k.1, scales := k.2.1 }
      return (s, z.2 + nonFinOf c k)) (hs.1, 0) (b.rows.zip ys))
  let base := 0x148000 + 0x1000 * o.inst
  let s := (w.1.bump64 (base + 8) (a.hq * b.pages.length)).bump (base + 0x18) w.2
  let s := if b.k = 0 then s.bump (base + 0x40 + 4 * min 15 (s.strm b.st.stream).bucket) 1 else s
  return (s.useTiles o.p a (o.lentTiles a)).advEntry o b.last true []

/-- A committed page of the stream is lost: the stream fails alone (R233). -/
def State.pageLost (s : State) (o : OnEntry) (b : QueryAt) (d : Nat) : State :=
  let s := if d = 0 then s else s.noteEcc o.src o.c.client o.c.op o.c.tag d
  (s.failStream o.c.tok b.st 0x4002 true).skipLost o.c.tok

/-- The mismatch events of the lent tiles' instructions in Finish (R113, R116-R121, R226): tile, the faults of an instruction's first
event, and those of its second, if it has one. A first event replays the instruction; a second quarantines the tile, which ends the
block. -/
def State.lentEvents (s : State) (tiles : List Nat) : List (Fin 64 × List ColFault × List ColFault) → State × Option Nat
  | [] => (s, none)
  | (t, first, second) :: es =>
    let lane (f : ColFault) (_ : Nat) : Bool := compareFails { f with blk := 0 } 1 [[]]
    let cols := (s.tile t.val).faultCols first lane
    if !tiles.contains t.val || cols.isEmpty || !(s.tile t.val).residueOn then s.lentEvents tiles es
    else
      let s := s.firstEvent t.val cols
      let again := (s.tile t.val).faultCols second lane
      if again.isEmpty then (s.bump (0x100104 + 0x1000 * t.val) 1).lentEvents tiles es
      else (s.secondEvent t.val again, some t.val)

/-- The block as its lent tiles run it. -/
def OnEntry.runQuery (o : OnEntry) (s : State) (b : QueryAt) (ev : List (Fin 64 × List ColFault × List ColFault)) : State :=
  let ts := o.lentTiles b.a
  let s := ts.foldl (fun s t => s.startInstr t.phys) s
  match s.lentEvents (ts.map (·.phys)) ev with
  | (s, some _) => s.stopCmd o.c.tok o.src 0x4001 0
  | (s, none) =>
    match o.queryBlock s b with
    | .ok s' => s'
    | .error (.page d) => s.pageLost o b d
    | .error (.other e) => s.runErr o.c.tok o.src (.error e)

/-- An uncorrectable error the block meets (R233, R590): the pool's bookkeeping fails the module, a listed page its stream alone, and any
other read the command. -/
def OnEntry.queryMeet (o : OnEntry) (s : State) (b : QueryAt) (h : Hazard) (k : State → State) : State :=
  match h with
  | .ue st _ ad =>
    if st = .hbm ∨ st = .flash then
      if s.pool.trusted ad.toNat then s.meet (some o.c) o.src h (fun s => s.enterSafe 6) k
      else
        match s.listedAt b.st.stream ad.toNat with
        | .ok true => s.meet (some o.c) o.src h (fun s => s.pageLost o b 0) k
        | .ok false => s.meet (some o.c) o.src h (fun s => s.stopCmd o.c.tok o.src 0x4002 0) k
        | .error e => s.runErr o.c.tok o.src (.error e)
    else s.meet (some o.c) o.src h (fun s => s.stopCmd o.c.tok o.src 0x4002 0) k
  | _ => s.meet (some o.c) o.src h (fun s => s.stopCmd o.c.tok o.src 0x4002 0) k

/-- QUERY_BLOCK (R214-R226, R233): one query block of one unit. `ev`: mismatch events of lent tiles' instructions. -/
def execQueryBlock (tok : Nat) (e : EntryUnit) (ev : List (Fin 64 × List ColFault × List ColFault)) (h : Hazard) (s : State) :
    Host.Outcome State Fault Refusal :=
  .next (match s.onEntry tok e.entry e.unit with
  | none => s
  | some o =>
    match o.query s with
    | none => s
    | some b => if !o.lent b.a then s else o.queryMeet s b h fun s => o.runQuery s b ev)

end Sys2Proof.Machine
end

