-- ==== Sys2Proof/Machine/Mem.lean ====
section
/-! DEFINITION. Residency, flash and HBM events (11 R338-R371, 15 R479, 19 R572): HINT and MIGRATE, fills and write-backs, regulators,
scrub, retraining and the flash translation layer. -/

namespace Sys2Proof.Machine

/-! ## Ranges (R342, R343) -/

/-- The granules of a HINT's or MIGRATE's range, or the status that refuses it. -/
def Cmd.granuleRange (c : Cmd) : Except Nat (List Nat) :=
  let b := c.q 0x40
  let n := c.q 0x48
  if b % gBytes ≠ 0 ∨ n % gBytes ≠ 0 then .error 0x1001
  else if dvaEnd < b + n then .error 0x1006
  else .ok ((List.range (n / gBytes)).map (· + b / gBytes))

/-! ## Fills (R339-R341) -/

/-- Queue fills of granules in order. -/
def State.queueFills (s : State) (gs : List Nat) : State :=
  { s with fillQ := s.fillQ ++ gs.filter fun g => !s.fillQ.contains g }.startFills

/-! ## MIGRATE (R343, R344, R363) -/

/-- MODE of a MIGRATE; a CHECKPOINT's flush step works as FLUSH (15 R490). -/
def Cmd.migMode (c : Cmd) : Nat := if c.op = 0x0800 then 1 else c.f 0x50 1 0

/-- A command that moves granules of its own: a MIGRATE or a CHECKPOINT. -/
def Cmd.movesGranules (c : Cmd) : Bool := c.op == 0x0301 || c.op == 0x0800

/-- A MIGRATE, or a CHECKPOINT's flush step, still at work. -/
def State.migrating (s : State) (tok mode : Nat) : Option Cmd :=
  (s.running tok).filter fun c => c.movesGranules && c.migMode == mode

/-- A MIGRATE ends once no granule is left. -/
def State.endMigrate (s : State) (tok : Nat) : State :=
  match s.cmd tok with
  | none => s
  | some c => if c.op == 0x0301 && c.targets.isEmpty then s.endCmd tok c.status c.detail else s

/-- A granule of a MIGRATE is finished. -/
def State.finishGranule (s : State) (tok g : Nat) (f : Cmd → Cmd) : State :=
  s.updCmd tok fun c => f { c with targets := c.targets.filter fun x => x != g }

/-- A MIGRATE row: the command begins with its range, or goes on. -/
def State.beginMigrate (s : State) (tok mode : Nat) (go : State → State) : State :=
  match (s.mayBegin tok 0x0301).filter fun c => c.f 0x50 1 0 == mode with
  | some c =>
    (match c.granuleRange with
     | .error st => s.instant tok st 0
     | .ok gs => go ((s.begin_ tok).updCmd tok fun c => { c with targets := gs }))
  | none => if (s.migrating tok mode).isSome then go s else s

/-- TO_HBM: resident granules are done; a poisoned one, or any in FAILED, fails with ECC_UNCORRECTED (R345, R362, R365); the rest are
filled. -/
def State.stepToHbm (s : State) (tok : Nat) : State :=
  match s.migrating tok 0 with
  | none => s
  | some c =>
    let s := c.targets.foldl (fun s g =>
      let x := s.granule g
      if x.resident && x.move == 0 then s.finishGranule tok g id
      else if x.move == 0 && s.ftlState != 1 && (s.ftlState == 3 || x.poison) then
        s.finishGranule tok g fun c => { c with status := 0x4002 }
      else s) s
    let left := match s.cmd tok with | some c => c.targets | none => []
    (s.queueFills (left.filter fun g => (s.granule g).move == 0 && !(s.granule g).resident)).endMigrate tok

/-- MIGRATE TO_HBM (R343). -/
def execMigrateToHbm (tok : Nat) (s : State) : Host.Outcome State Fault Refusal :=
  .next (s.beginMigrate tok 0 fun s => s.stepToHbm tok)

/-- One more granule for the DETAIL of a FLUSH or TO_FLASH: pinned, or cancelled; once the flash was found read-only DETAIL counts the dirty
granules instead (R343, R344, R363). -/
def Cmd.countKept (c : Cmd) : Cmd := if c.status = 0x4004 then c else { c with detail := c.detail + 1 }

/-- One more dirty granule that READ_ONLY keeps from the flash (R363). -/
def Cmd.countReadOnly (c : Cmd) : Cmd := { c with status := 0x4004, detail := (if c.status = 0x4004 then c.detail else 0) + 1 }

/-- FLUSH and TO_FLASH of one granule (R343): with nothing to write back it is done; a dirty one's copy starts, and what it has read by then is
kept, for R344. In READ_ONLY and FAILED none is written back (R362, R363). A granule of another movement is waited for. -/
def State.startFlushOf (s : State) (tok mode g : Nat) : State :=
  let x := s.granule g
  if x.move != 0 || x.by_ != 0 then s
  else if !x.resident then s.finishGranule tok g id
  else if !x.dirty then
    if mode = 1 then s.finishGranule tok g id
    else if x.pin then s.finishGranule tok g Cmd.countKept
    else (s.dropFrame g).finishGranule tok g id
  else if s.ftlState = 2 then s.finishGranule tok g Cmd.countReadOnly
  else if s.ftlState = 3 then s.finishGranule tok g fun c => { c with status := 0x4002 }
  else if mode = 2 ∧ 1024 ≤ s.moving then s
  else
    let old := SMap.slice (gBytes * x.frame) gBytes 0 s.hbm
    (s.setGranule g { x with move := if mode = 2 then 2 else 0, by_ := tok + 1, met := false }).updCmd tok fun c =>
      { c with items := c.items ++ [[g]], savedPal := c.savedPal ++ [(g, 0, old)] }

/-- Every granule left of a FLUSH or TO_FLASH. -/
def State.startFlush (s : State) (tok mode : Nat) : State :=
  match s.migrating tok mode with
  | none => s
  | some c =>
    if s.ftlState = 1 then s
    else ((c.targets.filter fun g => !c.items.contains [g]).foldl (fun s g => s.startFlushOf tok mode g) s).endMigrate tok

/-- MIGRATE FLUSH (R343, R344, R363). -/
def execMigrateFlush (tok : Nat) (s : State) : Host.Outcome State Fault Refusal :=
  .next (s.beginMigrate tok 1 fun s => s.startFlush tok 1)

/-- MIGRATE TO_FLASH (R343, R344, R363). -/
def execMigrateToFlash (tok : Nat) (s : State) : Host.Outcome State Fault Refusal :=
  .next (s.beginMigrate tok 2 fun s => s.startFlush tok 2)

/-- A mix of two copies of a granule at 64 B granularity (R344): a free choice for each line. -/
def mixLines (ctr : Nat) (old new : SMap Byte) : SMap Byte :=
  let pick (o : Nat) : Bool := (Config.freeWord (ctr + o / 64)).toNat % 2 == 0
  SMap.setAll (fun _ => 0) (new.filter fun e => !pick e.1) (old.filter fun e => pick e.1)

/-- A copy met a bad line of the granule's frame: the read counts and is recorded (R368, R478). -/
def State.noteFrame (s : State) (client op tag g : Nat) : State :=
  s.noteEcc (srcUnit 6 ((Config.freeWord s.freeCtr).toNat % 16)) client op tag (s.badAt (gBytes * g) gBytes + 1)

/-- The write-back a FLUSH or TO_FLASH makes of one granule ends (R343, R344, R360, R363, R478): one that no write met commits; under FLUSH one
that was written meanwhile leaves a mix and stays DIRTY; under TO_FLASH the write has cancelled it. -/
def State.endFlush (s : State) (c : Cmd) (g : Nat) : State :=
  let x := s.granule g
  let mode := c.migMode
  let s := s.updCmd c.tok fun c => { c with items := c.items.filter fun i => i != [g], savedPal := c.savedPal.filter fun e => e.1 != g }
  if x.by_ ≠ c.tok + 1 then s.finishGranule c.tok g Cmd.countKept
  else
    let free := s.setGranule g { x with move := 0, by_ := 0, met := false }
    if s.ftlState = 2 then free.finishGranule c.tok g Cmd.countReadOnly
    else if s.badIn (gBytes * x.frame) gBytes then
      (free.noteFrame c.client c.op c.tag g).finishGranule c.tok g fun c => { c with status := 0x4002 }
    else if x.met then
      let old := ((c.savedPal.find? fun e => e.1 == g).map (·.2.2)).getD []
      let mix := mixLines s.freeCtr old (SMap.slice (gBytes * x.frame) gBytes 0 s.hbm)
      let s := free.commitWriteback g
      let s := { s with freeCtr := s.freeCtr + gBytes / 64
                        flash := SMap.setAll (fun _ => 0) (mix.map fun (e : Nat × Byte) => (gBytes * g + e.1, e.2)) (SMap.erase (gBytes * g) gBytes s.flash) }
      (s.setGranule g { s.granule g with dirty := true }).finishGranule c.tok g id
    else
      let s := free.commitWriteback g
      if mode = 1 then s.finishGranule c.tok g id
      else if x.pin then s.finishGranule c.tok g Cmd.countKept
      else (s.dropFrame g).finishGranule c.tok g id

/-- FLUSH_WRITEBACK_DONE (R343, R344, R353). -/
def execFlushWritebackDone (tok : Nat) (g : Nat) (s : State) : Host.Outcome State Fault Refusal :=
  .next (match (s.running tok).filter fun c => c.movesGranules && c.items.contains [g] with
  | none => s
  | some c => if s.ftlState = 1 then s else ((s.endFlush c g).startFlush tok c.migMode).startFills)

/-- ZERO_FILL of one granule: answers none where it must wait (R343, R365). -/
def State.zeroFill (s : State) (g : Nat) : Option State :=
  let x := s.granule g
  let put (s : State) (f : Nat) : State :=
    { s with hbm := SMap.erase (gBytes * f) gBytes s.hbm
             badLines := SMap.erase (f * (gBytes / 64)) (gBytes / 64) s.badLines }.setGranule g
      { x with frame := f, resident := true, dirty := true, poison := false, move := 0 }
  if x.move ≠ 0 || x.by_ != 0 then none
  else if x.resident then some (put s x.frame)
  else if s.ftlState = 1 then none
  else
    match s.takeFrame with
    | (s', some f) => some (put s' f)
    | (_, none) => none

/-- MIGRATE ZERO_FILL: granules in order; one that moves, or for which no frame can be had, is waited for. -/
def execMigrateZeroFill (tok : Nat) (s : State) : Host.Outcome State Fault Refusal :=
  .next (s.beginMigrate tok 3 fun s =>
    let gs := match s.cmd tok with | some c => c.targets | none => []
    (gs.foldl (fun s g =>
      match s.zeroFill g with
      | some s => s.finishGranule tok g id
      | none => s) s).endMigrate tok)

/-! ## HINT (R342) -/

/-- A HINT whose effect is one change of each granule's entry. -/
def State.hint (s : State) (tok action : Nat) (f : Granule → Granule) : State :=
  match (s.mayBegin tok 0x0302).filter fun c => c.f 0x50 2 0 == action with
  | none => s
  | some c =>
    match c.granuleRange with
    | .error st => s.instant tok st 0
    | .ok gs => (gs.foldl (fun s g => s.setGranule g (f (s.granule g))) s).instant tok 0 0

/-- HINT UNPIN. -/
def execHintUnpin (tok : Nat) (s : State) : Host.Outcome State Fault Refusal := .next (s.hint tok 1 fun x => { x with pin := false })
/-- HINT NO_WB. -/
def execHintNoWb (tok : Nat) (s : State) : Host.Outcome State Fault Refusal := .next (s.hint tok 2 fun x => { x with noWb := true })
/-- HINT WB. -/
def execHintWb (tok : Nat) (s : State) : Host.Outcome State Fault Refusal := .next (s.hint tok 3 fun x => { x with noWb := false })
/-- HINT STREAM. -/
def execHintStream (tok : Nat) (s : State) : Host.Outcome State Fault Refusal := .next (s.hint tok 4 fun x => { x with stream := true })
/-- HINT NOSTREAM. -/
def execHintNostream (tok : Nat) (s : State) : Host.Outcome State Fault Refusal :=
  .next (s.hint tok 5 fun x => { x with stream := false })
/-- HINT DONTNEED: REF of each resident granule is cleared. -/
def execHintDontneed (tok : Nat) (s : State) : Host.Outcome State Fault Refusal :=
  .next (s.hint tok 7 fun x => { x with ref := if x.resident then false else x.ref })

/-- HINT WILLNEED: the fills of the NONRESIDENT granules are queued, and the command has completed. -/
def execHintWillneed (tok : Nat) (s : State) : Host.Outcome State Fault Refusal :=
  .next (match (s.mayBegin tok 0x0302).filter fun c => c.f 0x50 2 0 == 6 with
  | none => s
  | some c =>
    match c.granuleRange with
    | .error st => s.instant tok st 0
    | .ok gs => (s.queueFills (gs.filter fun g => !(s.granule g).resident && (s.granule g).move == 0)).instant tok 0 0)

/-- Pinned granules. -/
def State.pinned (s : State) : Nat := (s.gran.filter fun e => e.2.pin).length

/-- Pin one granule, filled first where it is NONRESIDENT: none where it must wait, otherwise a status, 0 where it is pinned. -/
def State.pinOne (s : State) (g : Nat) : Option (State × Nat) :=
  let x := s.granule g
  if x.pin then some (s, 0)
  else if s.resFrames < s.pinned + 1 + 1024 then some (s, 0x2008)
  else if x.move = 2 || x.by_ != 0 then none
  else
    let was := x.resident || x.move == 1
    match s.ensure g with
    | .ok s' =>
      let s' := if was then s' else s'.setReg64 0x182018 (s.reg64 0x182018)
      let s' := if was then s' else s'.bump64 0x182020 1
      some (s'.setGranule g { s'.granule g with pin := true }, 0)
    | .wait => none
    | .err st => some (s, st)

/-- Pin granules in order. `n`: how many this command has pinned. Answers the granules left where it must wait. -/
def State.pinAll (s : State) (tok : Nat) : Nat → List Nat → State
  | _, [] => s.endCmd tok 0 0
  | n, g :: gs =>
    match s.pinOne g with
    | none => s.updCmd tok fun c => { c with targets := g :: gs, total := n }
    | some (s', 0) => s'.pinAll tok (if (s.granule g).pin then n else n + 1) gs
    | some (s', st) => if st = 0x2008 then s'.endCmd tok st n else s'.endCmd tok st (if st = 0x4002 then gBytes * g + 1 else 0)

/-- HINT PIN. -/
def execHintPin (tok : Nat) (s : State) : Host.Outcome State Fault Refusal :=
  .next (match (s.mayBegin tok 0x0302).filter fun c => c.f 0x50 2 0 == 0 with
  | some c =>
    (match c.granuleRange with
     | .error st => s.instant tok st 0
     | .ok gs => (s.begin_ tok).pinAll tok 0 gs)
  | none =>
    match (s.running tok).filter fun c => c.op == 0x0302 with
    | some c => s.pinAll tok c.total c.targets
    | none => s)

/-! ## Ends of movements (R339, R340, R345) -/

/-- Commands that wait for granule `g`'s fill learn that it failed. -/
def State.failWanted (s : State) (g : Nat) : State :=
  { s with cmds := s.cmds.map fun c =>
      if c.op = 0x0301 ∧ c.f 0x50 1 0 = 0 ∧ c.phase = .running ∧ c.targets.contains g then
        { c with targets := c.targets.filter (fun x => x != g), status := 0x4002 } else c }

/-- What waits for a movement or for the flash map goes on: queued fills, every MIGRATE TO_HBM, and an apply of the pool (R243). -/
def State.stepMigrates (s : State) : State :=
  (s.cmds.filter fun c => c.op == 0x0301 && c.f 0x50 1 0 == 0 && c.phase == .running).foldl (fun s c => s.stepToHbm c.tok) s.startFills.finishApply

/-- A fill that fails (R342, R345, R365): the granule is NONRESIDENT and POISON, its frame is free again, and an ECC record says so. -/
def State.failFill (s : State) (g : Nat) : State :=
  let s := (s.poisonFlash g).eccRecord (srcUnit 6 ((Config.freeWord s.freeCtr).toNat % 16)) 7 0xFF 0xFFFF 0 (s.channelAt (gBytes * g)) (gBytes * g)
  s.setGranule g { s.granule g with frame := 0, resident := false, dirty := false, ref := false, move := 0 }

/-- FILL_DONE (R339, R345, R365): a promotion's or an explicit fill's copy ends; `ok`: its flash pages could be read. -/
def execFillDone (g : Nat) (ok : Bool) (s : State) : Host.Outcome State Fault Refusal :=
  .next (
    let x := s.granule g
    if !s.live || x.move ≠ 1 || s.ftlState = 1 then s
    else if ok && !x.poison && s.ftlState ≠ 3 then ((s.fillInto g x.frame).bump64 0x182020 1).stepMigrates
    else ((s.failFill g).failWanted g).stepMigrates)

/-- EVICTION_WRITEBACK_DONE (R340, R353, R363): the victim's write-back commits and its residency ends. -/
def execEvictionWritebackDone (g : Nat) (s : State) : Host.Outcome State Fault Refusal :=
  .next (
    let x := s.granule g
    if !s.live || x.move ≠ 2 || x.by_ != 0 || s.ftlState = 1 then s
    else if s.badIn (gBytes * x.frame) gBytes then ((s.noteFrame 0xFF 0xFFFF 0 g).setGranule g { x with move := 0 }).stepMigrates
    else if s.ftlState ≠ 0 then (s.setGranule g { x with move := 0 }).stepMigrates
    else ((s.commitWriteback g).dropFrame g).stepMigrates)

/-! ## Regulators (R351, R369) -/

/-- The partition of the work a unit does (R350): that of the client whose command holds it, or MIG_PARTITION for the module's own
movements. -/
def State.unitPart (s : State) (src : Nat) : Nat :=
  let k := src / 4096
  let i := src % 4096
  match s.sch.units.find? fun u => u.held && u.kind == k && (if k = 0 then u.tiles.contains i else u.inst == i) with
  | some u => let c := s.unitClient u; s.fld (0x181010 + c / 8 * 4) (c % 8 * 4 + 3) (c % 8 * 4)
  | none => s.fld 0x181004 3 0

/-- Depth of a partition's buckets in twelfths of a byte (R369). -/
def State.bucketDepth (s : State) (part : Nat) : Nat :=
  let b := s.fld (0x181104 + 0x10 * part) 15 0
  (if b = 0 then 1 else b) * 1024 * 12

/-- Tokens missing from the bucket of `stack` and `part` now, in twelfths of a byte: it fills at RATE / 12 GB/s, a byte a nanosecond for each
GB/s. -/
def State.bucketShort (s : State) (stack part : Nat) : Nat :=
  let k := 16 * stack + part
  let rate := s.fld (0x181100 + 0x10 * part) 15 0
  min (s.bucketDepth part) (SMap.get (fun _ => 0) s.buckets (2 * k) - rate * (s.itNow - SMap.get (fun _ => 0) s.buckets (2 * k + 1)))

/-- The missing tokens of a bucket as of now. -/
def State.setShort (s : State) (stack part v : Nat) : State :=
  let k := 16 * stack + part
  { s with buckets := SMap.set (fun _ => 0) (2 * k) v (SMap.set (fun _ => 0) (2 * k + 1) s.itNow s.buckets) }

/-- A write of a partition register: the buckets' tokens up to now count at the old rate and depth, and a changed depth adds none (R369). `w`:
the write. -/
def State.settleBuckets (s : State) (part : Nat) (w : State → State) : State :=
  let shorts := (List.range 12).map fun i => (i, s.bucketShort i part)
  let d := s.bucketDepth part
  let s := w s
  shorts.foldl (fun s x => s.setShort x.1 part (s.bucketDepth part - min (s.bucketDepth part) (d - x.2))) s

/-- REGULATOR_GRANT (R350, R351): the unit `src` asks stack `stack` for one line, or asks again where its request is held; `idle`: no unheld
request waits there. A request that finds too few tokens is held in the unit's port and stalls the unit until it is granted. -/
def execRegulatorGrant (stack : Fin 12) (src : Fin 65536) (idle : Bool) (it : Nat) (s : State) : Host.Outcome State Fault Refusal :=
  .next (
    let s := s.advance it
    if !s.live || s.fld 0x181000 0 0 ≠ 1 then s
    else
      let part := s.unitPart src.val
      let req := (stack.val, src.val)
      let grant (s : State) : State := { s with heldReqs := s.heldReqs.filter fun x => x != req }
      if s.fld (0x181100 + 0x10 * part) 15 0 = 0 then grant s
      else
        let depth := s.bucketDepth part
        let short := s.bucketShort stack.val part
        if short + 512 * 12 ≤ depth then grant (s.setShort stack.val part (short + 512 * 12))
        else
          let s := if s.heldReqs.contains req then s
            else { s.bump (0x181108 + 0x10 * part) 1 with heldReqs := s.heldReqs ++ [req] }
          if s.fld (0x181100 + 0x10 * part) 31 31 = 1 ∧ idle then grant (s.setShort stack.val part depth)
          else s.setShort stack.val part short)

/-! ## HBM upkeep (R479, R572) -/

/-- Units run: the module is up, not in safe state. -/
def State.upkeep (s : State) : Bool := s.ready && !s.safe && !s.scraping

/-- HBM_SCRUB (R368, R479): line `line` of the usable frames; `found`: 0 nothing, 1 a corrected error, otherwise an uncorrectable one. -/
def execHbmScrub (line : Nat) (found : Nat) (s : State) : Host.Outcome State Fault Refusal :=
  .next (
    let lines := s.fld 0x180004 19 0 * (gBytes / 64)
    if !s.upkeep || lines ≤ line then s
    else
      let t := hbmTarget s.mapped (line * 64)
      let bad := decide (2 ≤ found) || SMap.get (fun _ => false) s.badLines line
      let s :=
        if bad then
          ((({ s with badLines := SMap.set (fun _ => false) line true s.badLines }.bumpF (0x180800 + 4 * t) 31 16 1).bump 0x26003C 1).eccRecord
            (srcHub 1) 3 0xFF 0xFFFF 0 t (line * 64))
        else if found = 1 then s.bumpF (0x180800 + 4 * t) 15 0 1
        else s
      if line + 1 = lines then s.bump 0x260038 1 else s)

/-- HBM_RETRAIN (R572): a stack's periodic retrain; `fails`: offsets in the stack's targets of the lanes that failed. -/
def execHbmRetrain (stack : Fin 12) (fails : List (Fin 32)) (s : State) : Host.Outcome State Fault Refusal :=
  .next (if !s.upkeep || s.fld 0x183000 31 31 = 1 then s
  else
    let o := 0x183100 + 4 * stack.val
    let s := ((s.setFld 0x183004 3 0 stack.val).bumpF o 23 0 1).bumpF o 31 24 fails.length
    fails.foldl (fun s l => s.eccRecord (srcHub 3) 9 0xFF 0xFFFF 0 (32 * stack.val + l.val) (2 ^ 64 - 1)) s)

/-! ## Flash translation layer (R352-R365) -/

/-- The flash translation layer acts: its map is loaded. -/
def State.ftlActs (s : State) : Bool := s.upkeep && (s.ftlState == 0 || s.ftlState == 2)

/-- A block's read counter. -/
def State.readsOf (s : State) (b : Nat) : Int := (s.block b).reads + (s.ftl.rdBase : Int)

/-- A block is erased: its counter restarts at 0 and its sample interval at RD_SAMPLE (R356); it is free again. -/
def State.eraseBlock (s : State) (b : Nat) : State :=
  let x := s.block b
  { s.setBlock b { x with erases := x.erases + 1, reads := -(s.ftl.rdBase : Int), since := 0, interval := none } with
    ftl := { s.ftl with groups := SMap.mapEntries (fun _ => []) (fun _ bs => bs.filter fun k => k != b) s.ftl.groups } }

/-- A read reference after a sample (R358): step 0, 1 or 2 moves it by -1, 0 or 1, toward the value that minimises corrected bits. -/
def refStep (step : Fin 3) (v : Int) : Int := max (-128) (min 127 (v + (step.val : Int) - 1))

/-- READ_DISTURB_SAMPLE (R356, R358): a sample page of block `blk` is read once a sample is due; `steps`: which way each read
reference moves; `bits`: the most corrected bits in a codeword of it. -/
def execReadDisturbSample (blk : Nat) (steps : List (Fin 3)) (bits : Nat) (s : State) : Host.Outcome State Fault Refusal :=
  .next (
    let sample := (s.reg 0x1C0020).toNat
    let iv := (s.block blk).interval.getD sample
    if !s.ftlActs || eraseBlocks ≤ blk || decide ((s.block blk).since < iv) then s
    else
      let s := s.setBlock blk { s.block blk with since := (s.block blk).since - iv }
      let s := s.countReads blk 1
      let x := s.block blk
      let refs := (List.range 7).map fun i => refStep (steps.getD i 1) (x.offsets.getD i 0)
      let s := if refs ≠ (List.range 7).map (fun i => x.offsets.getD i 0) then s.bump64 0x1C0040 1 else s
      let x := { x with offsets := refs }
      let s := s.setBlock blk x
      let relocate := s.fld 0x1C0028 7 0
      let watch := s.fld 0x1C0028 15 8
      if relocate ≤ bits ∨ ((s.reg 0x1C0024).toNat : Int) ≤ s.readsOf blk then ((s.vacate blk).bump64 0x1C0030 1).eraseBlock blk
      else if watch ≤ bits then s.setBlock blk { x with interval := some (max 1000 (iv / 2)) }
      else if 3 * bits < watch then s.setBlock blk { x with interval := some (min (8 * sample) (2 * iv)) }
      else s)

/-- The layer enters READ_ONLY where fewer than 256 spare blocks are left (R362). -/
def State.checkSpare (s : State) : State :=
  if s.ftl.spare < 256 ∧ s.ftlState = 0 then
    ({ s with ftl := { s.ftl with readOnly := true } }.setFld 0x1C0000 3 0 2).record 0x22 2 (srcHub 2) (leBytes 4 2 ++ leBytes 4 s.ftl.spare)
  else s

/-- Most of a block's pages are invalid: fewer than half of its group's homes are still there (R353). -/
def State.mostlyInvalid (s : State) (b : Nat) : Bool :=
  match s.groupOf b with
  | none => false
  | some k => decide (2 * (s.homesIn k).length < groupHomes) && (k != s.ftl.cur || s.ftl.taken == groupHomes)

/-- RECLAIM (R353): the valid granules of a mostly invalid block move and the block is erased; `bad`: the erase fails and a spare block takes
its place. -/
def execReclaim (blk : Nat) (bad : Bool) (s : State) : Host.Outcome State Fault Refusal :=
  .next (if !s.ftlActs || eraseBlocks ≤ blk || (s.block blk).bad || !s.mostlyInvalid blk then s
  else
    let s := (s.vacate blk).eraseBlock blk
    if bad then
      { s.setBlock blk { s.block blk with bad := true, erases := (s.block blk).erases - 1 } with
        ftl := { s.ftl with badBlocks := min (s.ftl.badBlocks + 1) (2 ^ 32 - 1), spare := s.ftl.spare - 1 } }.checkSpare
    else s)

/-- Erase counts of the in-service blocks: the lowest and the highest. -/
def State.wearRange (s : State) : Nat × Nat :=
  let es := (s.blocks.filter fun e => !e.2.bad).map fun e => e.2.erases
  let es := if s.blocks.length < eraseBlocks then 0 :: es else es
  (es.min?.getD 0, es.max?.getD 0)

/-- WEAR_LEVEL_MOVE (R354): the granules of the lowest-count block move and the block returns to service, erased. -/
def execWearLevelMove (blk : Nat) (s : State) : Host.Outcome State Fault Refusal :=
  .next (
    let r := s.wearRange
    if s.ftlActs && decide (blk < eraseBlocks) && !(s.block blk).bad && (s.block blk).erases == r.1 && decide (r.1 + 100 < r.2) then
      (s.vacate blk).eraseBlock blk
    else s)

/-- READ_COUNTER_PERSIST (R357): every 2^20 reads the counters are written to flash. -/
def execReadCounterPersist (s : State) : Host.Outcome State Fault Refusal :=
  .next (if s.ftlActs && decide (1048576 ≤ s.ftl.totalReads) then
    { s with ftl := { s.ftl with totalReads := s.ftl.totalReads - 1048576, rdSaved := s.ftl.rdBase }
             blocks := SMap.mapEntries (fun _ => {}) (fun _ x => { x with saved := x.reads }) s.blocks }
  else s)

/-- FLASH_MAP_LOADED (R362): the flash map is loaded, or cannot be. -/
def execFlashMapLoaded (ok : Bool) (s : State) : Host.Outcome State Fault Refusal :=
  .next (if s.held || s.ftlState ≠ 1 then s
  else
    let st := if !ok then 3 else if s.ftl.readOnly then 2 else 0
    let s := s.setFld 0x1C0000 3 0 st
    let s := if st = 0 then s else s.record 0x22 2 (srcHub 2) (leBytes 4 st ++ leBytes 4 s.ftl.spare)
    s.stepMigrates)

end Sys2Proof.Machine
end

