-- ==== Sys2Proof/Machine/Streams.lean ====
section
/-! DEFINITION. Scenes and streams (01 R12-R50, 06 R179, R184, 07 R217, R229-R236): the commands that open, fork, step, commit, park
and close them. -/

namespace Sys2Proof.Machine

/-! ## Scenes (R12, R13) -/

/-- The program fails R166: the KIND of a missing entry. -/
def Image.missingEntry (p : Image) : Option Nat :=
  if (p.firstEntry 1).isNone then some 1 else if (p.firstEntry 2).isNone then some 2 else none

/-- The lowest glaze entry of the first STEP or INGEST entry whose chunk length does not divide the frame (R184). -/
def Image.badChunk (p : Image) (f : Nat) : Option Nat :=
  let es := [p.firstEntry 1, p.firstEntry 2].filterMap id
  (((List.range p.engine.length).zip p.engine).find? fun x =>
    eKind x.2 == 1 && (es.any fun e => bits (headOf x.2).mask e e == 1) && f % (GlazeE.ofWords x.2).l != 0).map (·.1)

/-- The first entry whose slot count brings the directory's total above its slots (R217). -/
def overSlots (slots : Nat) : Nat → List AttLayer → Option Nat
  | _, [] => none
  | n, l :: ls =>
    let n := n + (if l.a.ring then l.r else 1)
    if slots < n then some l.idx else overSlots slots n ls

/-- The checks of R217 on a scene of `f` positions a frame, in order: the entry that fails. -/
def State.badAttention (s : State) (p : Program) (f : Nat) : Option Nat :=
  let ls := p.layers f
  let first (q : AttLayer → Bool) : Option Nat := (ls.find? q).map (·.idx)
  let set (k : Nat) : List Nat := match p.image.firstEntry k with
    | some e => (p.image.attUnder e).map (·.1)
    | none => []
  let a := set 1
  let b := set 2
  let diff := (a.filter fun i => !b.contains i) ++ (b.filter fun i => !a.contains i)
  (if s.poolActive then none else first fun _ => true) <|>
  (first fun l => decide (s.pool.pageSize < l.a.pageBytes)) <|>
  (first fun l => l.a.ef == .s8 && l.a.blk == 16 && !s.pool.scale16) <|>
  (first fun l => l.a.ef == .s8 && f % l.a.blk != 0) <|>
  overSlots s.pool.slots 0 ls <|>
  diff.min?

/-- SCENE_OPEN (R12, R13, R166, R179, R184, R217). -/
def execSceneOpen (tok : Nat) (s : State) : Host.Outcome State Fault Refusal :=
  .next (match s.mayBegin tok 0x0200 with
  | none => s
  | some c =>
    let slot := c.f 0x40 4 0
    let h := c.f 0x40 31 16
    let rows := c.f 0x44 8 0
    let cols := c.f 0x44 24 16
    let maxS := c.f 0x48 14 0
    if (s.scene slot).isSome then s.instant tok 0x2006 0
    else
      match s.programFor c h with
      | none => s.instant tok 0x1003 (reject 0 0x13)
      | some p =>
        let total := s.scenes.foldl (fun n e => match e.2 with | some x => n + x.maxStreams | none => n) 0
        if 23 < slot ∨ rows = 0 ∨ 256 < rows ∨ cols = 0 ∨ 256 < cols ∨ maxS = 0 ∨ 16384 < maxS ∨ c.q 0x50 % 4096 ≠ 0
            ∨ c.q 0x58 < maxS * 2 * p.image.sBytes then s.instant tok 0x1001 0
        else if 16384 < total + maxS then s.instant tok 0x2007 0
        else
          match p.image.missingEntry with
          | some k => s.instant tok 0x1003 (reject k 0x11)
          | none =>
            match p.image.badChunk (rows * cols) with
            | some i => s.instant tok 0x1003 (reject i 0x10)
            | none =>
              match s.badAttention p (rows * cols) with
              | some i => s.instant tok 0x1003 (reject i 0x10)
              | none =>
                (s.setScene slot (some { program := h, rows := rows, cols := cols, maxStreams := maxS, stateBase := c.q 0x50
                                         stateBytes := c.q 0x58, condBase := c.q 0x60, condBytes := c.q 0x68
                                         pageSync := c.f 0x48 29 16, defQuota := c.f 0x4C 23 0 })).instant tok 0 0)

/-! ## Opening a stream (R26) -/

/-- An identifier is free to take; one of 16,384 or above never is, so a child list that names it ends STREAM_STATE (DESIGN CHOICE, log entry
88). -/
def State.idFree (s : State) (i : Nat) : Bool := decide (i < 16384) && (s.strm i).st == .free && !s.claimed i

/-- The streams a scene holds, with the children a running FORK creates in it: state slots. -/
def State.slotsUsed (s : State) (sc : Nat) : List Nat :=
  (s.streams.filterMap fun e => if e.2.st ≠ .free ∧ e.2.scene = sc then some e.2.stateSlot else none) ++
  s.cmds.flatMap fun c => match c.fork with
    | some w => if (s.strm w.parent).scene = sc then w.slots else []
    | none => []

/-- The `n` lowest numbers below `bound` that satisfy a test, walking up from `i`. -/
def lowest (q : Nat → Bool) : Nat → Nat → Nat → List Nat
  | 0, _, _ => []
  | _, 0, _ => []
  | fuel + 1, n + 1, i => if q i then i :: lowest q fuel n (i + 1) else lowest q fuel (n + 1) (i + 1)

/-- The `n` lowest free identifiers (which ones ANY and CHOOSE take: log entry 24). -/
def State.freeIds (s : State) (n : Nat) : List Nat := lowest s.idFree 16384 n 0

/-- The `n` lowest free state slots of a scene (R179). -/
def State.freeSlots (s : State) (sc n : Nat) : List Nat :=
  let u := s.slotsUsed sc
  lowest (fun k => !u.contains k) (u.length + n) n 0

/-- A stream is opened (R26): both halves of its state area and its directory are written. -/
def State.openStream (s : State) (i sc : Nat) (c : Scene) (p : Program) (quota : Nat) : E State := do
  let k := (s.freeSlots sc 1).headD 0
  let s ← (s.store (.dva (stateLoc c p k 0)) (2 * p.image.sBytes) []).e
  let s ← (if s.poolActive then s.openDir i (p.layers c.f) c.f else .ok s)
  return s.updStrm i fun x => { commitSeq := x.commitSeq, st := .ready, quota := quota, rootPage := rootOf i, scene := sc, stateSlot := k }

/-- STREAM_OPEN (R25, R26). -/
def execStreamOpen (tok : Nat) (s : State) : Host.Outcome State Fault Refusal :=
  .next (match s.mayBegin tok 0x0201 with
  | none => s
  | some c =>
    let sc := c.f 0x40 4 0
    match s.scene sc with
    | none => s.instant tok 0x2007 0
    | some x =>
      if c.stream ≠ 0xFFFF ∧ s.idFree c.stream = false then s.instant tok 0x2005 0
      else
        match (if c.stream = 0xFFFF then (s.freeIds 1)[0]? else some c.stream) with
        | none => s.instant tok 0x2004 0
        | some i =>
          if x.maxStreams ≤ (s.slotsUsed sc).length then s.instant tok 0x2004 0
          else
            match s.sceneProg x with
            | none => s.instant tok 0x1003 (reject 0 0x13)
            | some p =>
              s.after ((s.openStream i sc x p (if c.flag 0 then c.f 0x44 23 0 else x.defQuota)).bind fun s' =>
                .ok ((s'.begin_ tok).endCmdS tok 0 0 i)) fun st d => s.instant tok st d)

/-! ## FORK (R29-R33, R234) -/

/-- The tail pages of a stream (R31): its layers' slots and pages where its position is inside a page. -/
def State.tailsOf (s : State) (ls : List AttLayer) (i : Nat) : E (State × List PagePend) :=
  let pos := (s.strm i).pos
  if pos % 64 = 0 then .ok (s, [])
  else foldE (fun (a : State × List PagePend) l => do
    let slot := l.slot ls (pos / 64)
    let pg ← a.1.dirSlot i slot
    return (pg.1, a.2 ++ [{ layer := l.idx, j := pos / 64, slot := slot, page := pg.2, old := pg.2, act := .cow }])) (s, []) ls

/-- Reserve one child's tail copies. -/
def State.takeTails (s : State) (child : Nat) (ts : List PagePend) : E (State × List PagePend) :=
  foldE (fun (a : State × List PagePend) x => do
    let t ← a.1.takePage child
    return (t.1, a.2 ++ [{ x with page := t.2 }])) (s, []) ts

/-- The copies a FORK makes for one child (R33, R217): the committed glaze half, and of the tail pages and their scale slots the bytes their
layers use. -/
def State.forkPieces (s : State) (c : Scene) (p : Program) (parent slot : Nat) (ts : List PagePend) : List Piece :=
  let x := s.strm parent
  let g := s.pool
  piecesOf 5 0 (.dva (stateLoc c p x.stateSlot x.half)) (.dva (stateLoc c p slot 0)) p.image.sBytes none ++
  ts.flatMap fun t =>
    match (p.layers c.f).find? fun l => l.idx == t.layer with
    | none => []
    | some l =>
      piecesOf 5 1 (.dva (g.pageLoc t.old).1) (.dva (g.pageLoc t.page).1) l.a.pageBytes none ++
      piecesOf 5 1 (.dva (g.pageLoc t.old).2) (.dva (g.pageLoc t.page).2) l.a.scaleBytes none

/-- A FORK's reservation is made and its copies begin. -/
def State.beginFork (s : State) (c : Cmd) (sc : Scene) (p : Program) (children slots : List Nat) (quota : Nat)
    (ts : List PagePend) : E State := do
  let x := s.strm c.stream
  let r ← foldE (fun (a : State × List (List PagePend)) ch => do
    let t ← a.1.takeTails ch ts
    return (t.1, a.2 ++ [t.2])) (s, []) children
  let ps := (slots.zip r.2).flatMap fun e => s.forkPieces sc p c.stream e.1 e.2
  let s := (r.1.begin_ c.tok).showSt c.stream .forking x.parkReason
  let s := s.updCmd c.tok fun d => { d with
    pieces := ps
    fork := some { parent := c.stream, prior := x.st, children := children, slots := slots, tails := r.2, quota := quota
                   wasParked := x.parkReason } }
  return (if ps.isEmpty then s else s.addUnit c.tok 6 0 [])

/-- FORK (R25, R29-R32). -/
def execFork (tok : Nat) (s : State) : Host.Outcome State Fault Refusal :=
  .next (match s.mayBegin tok 0x0202 with
  | none => s
  | some c =>
    let x := s.strm c.stream
    let n := c.f 0x40 8 0
    if x.st = .free ∨ (x.st = .parked ∧ x.parkReason = 4) then s.instant tok 0x2005 0
    else
      match s.streamProg c.stream with
      | none => s.instant tok 0x1003 (reject 0 0x13)
      | some (sc, p) =>
        let free := s.freeIds n
        let children := if c.flag 0 then free else c.targets
        if free.length < n then s.instant tok 0x2003 0
        else if sc.maxStreams < (s.slotsUsed x.scene).length + n then s.instant tok 0x2003 0
        else if (children.any fun i => !s.idFree i) || children.eraseDups.length != children.length then s.instant tok 0x2005 0
        else
          s.after (do
            let r ← (if s.poolActive then s.tailsOf (p.layers sc.f) c.stream else .ok (s, []))
            let s := r.1
            let ts := r.2
            let quota := if c.flag 1 then c.f 0x44 23 0 else x.quota
            if quota ≠ 0 ∧ quota < ts.length then
              return ((s.bump 0x148824 1).instant tok 0x2001 0).freeSignal sc.pageSync 1
            if s.poolFree < n * ts.length then
              return ((s.bump 0x148820 1).instant tok 0x2001 0).freeSignal sc.pageSync 1
            s.beginFork c sc p children (s.freeSlots x.scene n) quota ts) fun st d => s.instant tok st d)

/-- A FORK ends without children (R32): its tail copies go FREE; the parent returns to its prior state, or is parked for a fault in
its own memory. -/
def State.failFork (s : State) (tok st : Nat) (park : Bool) : State :=
  match s.cmd tok with
  | none => s
  | some c =>
    match c.fork with
    | none => s
    | some w =>
      s.after ((foldE (fun s ts => s.unreserve ts) s w.tails).bind fun s =>
        let s := if park then s.setSt w.parent .parked 4 else s.showSt w.parent w.prior w.wasParked
        let s := (s.dropUnits tok).updCmd tok fun c => { c with pieces := [], fork := none }
        .ok (s.endCmd tok st 0)) fun _ _ => s

/-- The directory of one child (R234): the parent's, with its own tail copies. -/
def State.childDir (s : State) (parent child : Nat) (ts : List PagePend) : E State := do
  let g := s.pool
  let r ← s.poolCells (g.dir parent) (2 ^ g.dirLog2)
  let s ← (r.1.store (.dva (g.dir child)) (2 ^ g.dirLog2) r.2).poolE
  foldE (fun (s : State) t => do
    let s ← s.setDirSlot child t.slot t.page
    s.pageLive t.page) s ts

/-- Every shared page of the parent gains one count per child (R234). -/
def State.sharePages (s : State) (w : ForkWork) : E State := do
  let ps ← s.dirPages w.parent
  let tails := (w.tails.headD []).map (·.slot)
  foldE (fun (s : State) e =>
    if tails.contains e.1 then .ok s
    else do
      let x ← s.page e.2
      x.1.setPage e.2 { x.2 with count := x.2.count + w.children.length }) ps.1 ps.2

/-- The commit of a FORK as one update (R30, R33). -/
def State.commitFork (s : State) (w : ForkWork) : E State := do
  let x := s.strm w.parent
  let s := (w.children.zip w.slots).foldl (fun s e => s.updStrm e.1 fun y =>
    { commitSeq := y.commitSeq, st := .ready, quota := w.quota, rootPage := rootOf e.1, parent := w.parent, hasParent := true
      scene := x.scene, bucket := x.bucket, forkPos := x.pos, pos := x.pos, half := 0, stateSlot := e.2 }) s
  let s ← (if s.poolActive then do
      let s ← s.sharePages w
      foldE (fun s e => s.childDir w.parent e.1 e.2) s (w.children.zip w.tails)
    else .ok s)
  return s.setSt w.parent w.prior w.wasParked

/-- FORK_COMMIT (R33): the chosen children are written into the child list, then the fork commits. -/
def execForkCommit (tok : Nat) (s : State) : Host.Outcome State Fault Refusal :=
  .next (match s.running tok with
  | none => s
  | some c =>
    match c.fork with
    | none => s
    | some w =>
      if !c.pieces.isEmpty then s
      else
        s.after (do
          let s ← (if c.flag 0 then s.wr (locH (c.q 0x48)) (w.children.flatMap fun i => leBytes 2 i) else .ok s)
          let s ← s.commitFork w
          return (s.updCmd tok fun c => { c with fork := none }).endCmdS tok 0 0 w.parent) fun st _ => s.failFork tok st false)

/-! ## STEP and INGEST_SEQ (R27-R28, R34-R37, R395) -/

/-- The list entry `e` (stream, input and output offset) of a STEP is refused, parked, or reserved (R35, R37, R230). A stream of 16,384 or
above gives the entry STREAM_STATE (DESIGN CHOICE, log entry 88). -/
def State.stepEntry (s : State) (_tok : Nat) (ls : List AttLayer) (sc f q : Nat) (busy : StreamSt) (seen : List Nat)
    (idx : Nat) (e : List Nat) : E (State × StepStream) :=
  let i := e.headD 0xFFFF
  let x := s.strm i
  let base : StepStream :=
    { listIdx := idx, stream := i, p0 := x.pos, inOff := e.getD 1 0, outOff := e.getD 2 0, passed := false, pend := []
      status := 0, committed := false }
  if 16384 ≤ i ∨ x.st = .free ∨ x.scene ≠ sc ∨ i ∈ seen then .ok (s, { base with status := 0x2005 })
  else if x.st = .parked then .ok (s, { base with status := 0x2002 })
  else if 2 ^ 64 ≤ x.pos + q then .ok (s, { base with status := 0x1001 })
  else do
    match (← s.reserve ls i q f) with
    | .ok s ps => return (s.showSt i busy 0, { base with passed := true, pend := ps })
    | .shape => return (s, { base with status := 0x1001 })
    | .quota s => return (s.parkForPages i 3, { base with status := 0x2001 })
    | .noPage s => return (s.parkForPages i 2, { base with status := 0x2001 })

/-- Every entry in list order; where a reservation meets an error the command fails (R590): answers the error too. -/
def State.stepEntries (tok : Nat) (ls : List AttLayer) (sc f q : Nat) (busy : StreamSt) :
    State → List StepStream → List Nat → Nat → List (List Nat) → E (State × List StepStream × Option (Nat × Nat))
  | s, done, _, _, [] => .ok (s, done, none)
  | s, done, seen, idx, e :: es =>
    let i := e.headD 0xFFFF
    match s.stepEntry tok ls sc f q busy seen idx e with
    | .ok r => State.stepEntries tok ls sc f q busy r.1 (done ++ [r.2]) (i :: seen) (idx + 1) es
    | .error (.err st d) =>
      match (if st = 0x4002 ∧ d ≠ 0 then s.listedAt i (d - 1) else .ok false) with
      | .error x => .error x
      | .ok own =>
      let s := if own then s.setSt i .parked 4 else s
      let rest := ((List.range (es.length + 1)).zip (e :: es)).map fun x =>
        ({ listIdx := idx + x.1, stream := x.2.headD 0xFFFF, p0 := 0, inOff := 0, outOff := 0, passed := false, pend := []
           status := st, committed := false } : StepStream)
      .ok (s, done ++ rest, some (st, d))
    | .error x => .error x

/-- The run of a STEP or INGEST_SEQ after its dispatch checks: entries reserve, and where some pass, command start follows
(R37, R159, R185, R395). -/
def State.launch (s : State) (c : Cmd) (sc : Scene) (scIdx : Nat) (p : Program) (entry kind q : Nat) (items : List (List Nat))
    (syncs : List Nat) (binds : List (Nat × Nat)) (h : Hazard) : E State := do
  let busy := if kind = 2 then StreamSt.ingesting else .stepping
  let r ← State.stepEntries c.tok (p.layers sc.f) scIdx sc.f q busy (s.begin_ c.tok) [] [] 0 items
  let run : ProgRun :=
    { handle := sc.program, entry := entry, kind := kind, syncs := syncs, binds := binds, words := [], bounds := []
      scene := scIdx, frame := sc.f, streams := r.2.1, tiles := [], entries := [], wrote := false, started := false
      scattering := false, listLen := if kind = 1 then c.f 0x40 12 0 else 1 }
  let s := r.1.updCmd c.tok fun c => { c with run := some run }
  match r.2.2 with
  | some (st, d) => return (s.noteCmd c.tok st d).failRun c.tok st 0 false
  | none =>
    if run.passed.isEmpty then return s.endStep c run.names run.statuses
    else
      let rows := run.rCmd c
      match p.image.rowsOver entry rows with
      | some i => return s.failRun c.tok 0x1001 (0x10000 + i) true
      | none =>
        match s.startBounds (run.ctx p) [] rows entry h with
        | .error (.err st i) => return (s.noteStart c (run.ctx p) entry st i h).failRun c.tok st i true
        | .error x => throw x
        | .ok b =>
          let s := b.1.updRun c.tok fun r => { r with bounds := b.2 }
          match s.writePositions c run with
          | .error (.err st _) => return s.failRun c.tok st 0 false
          | .error x => throw x
          | .ok s =>
            let ps := run.slotPieces c false
            let s := s.updCmd c.tok fun c => { c with pieces := ps }
            return (if ps.isEmpty then (s.startProgram c.tok).tryFinish c.tok else s.addUnit c.tok 6 0 [])

/-- STEP (R25, R34-R37, R47, R394-R395). -/
def execStep (a : MetBy) (s : State) : Host.Outcome State Fault Refusal :=
  .next (match s.mayBegin a.tok 0x0203 with
  | none => s
  | some c =>
    s.meetStart c a.met fun s =>
    let items := c.items
    let all (st : Nat) : List Nat := items.map fun _ => st
    if c.stageBase % mib2 ≠ 0 then (s.begin_ a.tok).endWhole c (all 0x1001) 0x1001 0x68
    else
      match s.stepLead c with
      | none => (s.begin_ a.tok).endStep c (items.map fun e => e.headD 0xFFFF) (all 0x2005)
      | some i0 =>
        let scIdx := (s.strm i0).scene
        match s.streamProg i0 with
        | none => (s.begin_ a.tok).endWhole c (all 0x1003) 0x1003 (reject 0 0x13)
        | some (sc, p) =>
          let n := max 1 (c.f 0x40 12 0)
          let entry := (p.image.firstEntry 1).getD 0
          match p.image.badBinding 2 (c.stepBuf sc n) with
          | some b => (s.begin_ a.tok).endWhole c (all 0x1003) 0x1003 (reject b 0x12)
          | none =>
            match s.blockedTile (p.needed entry) with
            | some t => (s.begin_ a.tok).endWhole c (all 0x4003) 0x4003 t
            | none => s.after (s.launch c sc scIdx p entry 1 sc.f items c.syncs (p.bufs 2 (c.stepBuf sc n)) a.met) fun _ _ => s)

/-- INGEST_SEQ (R25, R27, R28, R394-R395). -/
def execIngestSeq (a : MetBy) (s : State) : Host.Outcome State Fault Refusal :=
  .next (match s.mayBegin a.tok 0x0204 with
  | none => s
  | some c =>
    s.meetStart c a.met fun s =>
    let x := s.strm c.stream
    if c.stageBase % mib2 ≠ 0 then s.instant a.tok 0x1001 0x68
    else if x.st = .free then s.instant a.tok 0x2005 0
    else if x.st = .parked then s.instant a.tok 0x2002 0
    else
      match s.streamProg c.stream with
      | none => s.instant a.tok 0x1003 (reject 0 0x13)
      | some (sc, p) =>
        let n := c.w 0x40
        if n = 0 ∨ 2 ^ 20 < n ∨ n % sc.f ≠ 0 then s.instant a.tok 0x1001 0
        else
          let entry := (p.image.firstEntry 2).getD 0
          match p.image.badBinding 2 (c.stepBuf sc 1) with
          | some b => s.instant a.tok 0x1003 (reject b 0x12)
          | none =>
            match s.blockedTile (p.needed entry) with
            | some t => s.instant a.tok 0x4003 t
            | none =>
              s.after (s.launch c sc x.scene p entry 2 n [[c.stream, 0, 0]] c.syncs (p.bufs 2 (c.stepBuf sc 1)) a.met)
                fun _ _ => s)

/-- One stream's commit (R37, R231): its pages, then its table entry. -/
def State.commitStream (s : State) (tok : Nat) (ls : List AttLayer) (f q : Nat) (x : StepStream) : E State := do
  let pos := x.p0 + q
  let s ← (if s.poolActive then s.commitPages x.stream pos x.pend else .ok s)
  let s := s.updStrm x.stream fun y =>
    { y with st := .ready, parkReason := 0, pos := pos, half := 1 - y.half, bucket := bucketOf (contextOf ls f pos) }
  return s.updStep tok x.listIdx fun y => { y with committed := true }

/-- STREAM_COMMIT (R37, R231): list entry `idx` of a command whose scatter has ended. Where a remote operation of the command has failed by
then, the streams not yet committed end before commit with its status (R38, R413; DEDUCED, log entry 81). -/
def execStreamCommit (tok idx : Nat) (s : State) : Host.Outcome State Fault Refusal :=
  .next (match s.running tok with
  | none => s
  | some c =>
    match c.run with
    | none => s
    | some r =>
      if !r.scattering || !c.pieces.isEmpty then s
      else
        match c.rfail with
        | some (st, d) => (s.updCmd tok fun c => { c with rfail := none }).failRun tok st d true
        | none =>
        match r.streams.find? fun x => x.listIdx == idx && x.passed && !x.committed && x.status == 0, s.runProg r with
        | some x, some p =>
          s.after ((s.commitStream tok (p.layers r.frame) r.frame (r.q c) x).bind fun s => .ok (s.tryEndStep tok)) fun _ _ => s
        | _, _ => s)

/-! ## PARK and CLOSE (R43-R45, R235) -/

/-- PARK (R25, R43). -/
def execPark (tok : Nat) (s : State) : Host.Outcome State Fault Refusal :=
  .next (match (s.mayBegin tok 0x0205).filter fun c => !c.flag 0 with
  | none => s
  | some c =>
    match (s.strm c.stream).st with
    | .ready => (s.setSt c.stream .parked 1).instant tok 0 0
    | .parked => s.instant tok 0x0101 0
    | _ => s.instant tok 0x2005 0)

/-- PARK with RELEASE (R25, R43). -/
def execParkRelease (tok : Nat) (s : State) : Host.Outcome State Fault Refusal :=
  .next (match (s.mayBegin tok 0x0205).filter fun c => c.flag 0 with
  | none => s
  | some c =>
    let x := s.strm c.stream
    match x.st with
    | .ready => s.instant tok 0x0101 0
    | .parked => if x.parkReason = 4 then s.instant tok 0x2005 0 else (s.setSt c.stream .ready 0).instant tok 0 0
    | _ => s.instant tok 0x2005 0)

/-- The table entries that change when stream `i` closes (R44). -/
def State.closeEntries (s : State) (i : Nat) : State :=
  let x := s.strm i
  let kids := (s.streams.filter fun e => e.2.hasParent && e.2.parent == i).map (·.1)
  let s := kids.foldl (fun s k => s.updStrm k fun y => { y with hasParent := false }) s
  let s := if x.hasParent then s.updStrm x.parent id else s
  s.updStrm i fun y => { commitSeq := y.commitSeq }

/-- CLOSE of a stream (R25, R44, R235). -/
def execClose (tok : Nat) (s : State) : Host.Outcome State Fault Refusal :=
  .next (match (s.mayBegin tok 0x0206).filter fun c => !c.flag 0 with
  | none => s
  | some c =>
    if (s.strm c.stream).st = .free then s.instant tok 0x2005 0
    else
      let s1 := s.showSt c.stream .closing 0
      s.after ((if s1.poolActive then s1.closeDir c.stream else .ok s1).bind fun s2 =>
        .ok ((s2.closeEntries c.stream).instant tok 0 0)) fun _ _ => s)

/-- CLOSE with SCENE (R14, R275): a scene that holds no stream and no ingest context goes free. A slot that is not open ends SCENE_NO_SLOT
(DESIGN CHOICE, log entry 88). -/
def execCloseScene (tok : Nat) (s : State) : Host.Outcome State Fault Refusal :=
  .next (match (s.mayBegin tok 0x0206).filter fun c => c.flag 0 with
  | none => s
  | some c =>
    let i := c.f 0x40 4 0
    if (s.scene i).isNone then s.instant tok 0x2007 0
    else if !(s.slotsUsed i).isEmpty || (SMap.get (fun _ => none) s.ingest i).isSome then s.instant tok 0x2006 0
    else (s.setScene i none).instant tok 0 0)

end Sys2Proof.Machine
end

