-- ==== Sys2Proof/Machine/Dma.lean ====
section
/-! DEFINITION. The DMA movers (11 R346-R349, 14 R449, 15 R483-R485): COPY, PREFETCH_WINDOW and the pieces of every mover's work. -/

namespace Sys2Proof.Machine

/-! ## Endpoints (R346, R393, R449) -/

/-- A COPY endpoint as the checks see it. -/
structure Endpoint where
  loc : Loc
  /-- destination module of a REMOTE endpoint -/
  remote : Option Nat := none
  isRegion : Bool := false
  /-- bytes of the region's plane -/
  limit : Option Nat := none
  /-- a region endpoint's palette lies on this tile -/
  tile : Option Nat := none
  /-- a region endpoint's panel -/
  panel : Option Nat := none
deriving DecidableEq, Repr

/-- A refusal: status and DETAIL. -/
abbrev Refused := Nat × Nat

/-- A region of a loaded program as an endpoint at byte `off` of a plane (R346). -/
def State.regionEnd (s : State) (c : Cmd) (handle region : Nat) (scale : Bool) (off : Nat) : Except Refused Endpoint :=
  match s.programFor c handle with
  | none => .error (0x1003, reject 0 0x13)
  | some p =>
    match p.image.regions[region]? with
    | none => .error (0x1001, 0)
    | some r =>
      let l := (p.planeLoc [] r scale).plus off
      let b := if scale then r.scaleBytes else r.elemBytes
      match l with
      | .pal t _ =>
        if r.kind = 1 then .ok { loc := l, isRegion := true, limit := some (b - off), tile := some t, panel := some (t / 16) }
        else .error (0x1001, 0)
      | .shr p _ => .ok { loc := l, isRegion := true, limit := some (b - off), panel := some p }
      | _ => .error (0x1001, 0)

/-- The endpoint at packet offset `o`. -/
def State.endpoint (s : State) (c : Cmd) (o : Nat) : Except Refused Endpoint :=
  let remote := c.f (o + 12) 2 2 == 1
  let isRegion := c.f (o + 12) 1 1 == 1
  if remote then .ok { loc := .dva (c.q o), remote := some (c.f (o + 8) 15 0), isRegion := isRegion }
  else if isRegion then s.regionEnd c (c.f (o + 8) 15 0) (c.f (o + 8) 31 16) (c.f (o + 12) 0 0 == 1) (c.q o)
  else .ok { loc := locH (c.q o) }

/-- A tile a copy may not touch (R346). -/
def State.badTile (s : State) (e : Endpoint) : Option Nat :=
  e.tile.filter fun t => (s.tile t).st == .quarantined || (s.tile t).st == .selfTest || (s.tile t).retireFuse

/-- Two runs of bytes overlap: same store and common bytes. -/
def locOverlap (a b : Loc) (n m : Nat) : Bool :=
  match a, b with
  | .dva x, .dva y => runsMeet x n y m
  | .host x, .host y => runsMeet x n y m
  | .pal t x, .pal u y => t == u && runsMeet x n y m
  | .shr p x, .shr q y => p == q && runsMeet x n y m
  | _, _ => false
where
  /-- common numbers of two runs -/
  runsMeet (x n y m : Nat) : Bool := decide (x < y + m) && decide (y < x + n) && decide (n ≠ 0) && decide (m ≠ 0)

/-- A run of the device range does not translate (R326). -/
def locUnmapped (l : Loc) (n : Nat) : Bool :=
  match l with
  | .dva a => decide (dvaEnd < a + n)
  | _ => false

/-- A host endpoint. -/
def Loc.isHost : Loc → Bool
  | .host _ => true
  | _ => false

/-! ## COPY -/

/-- CHECK_MODE (R483). -/
def Cmd.checkMode (c : Cmd) : Nat := if c.op = 0x0300 then c.f 0x68 27 26 else 0
/-- The algorithm of a checked copy. -/
def Cmd.checkAlg (c : Cmd) : CrcAlg := (CrcAlg.ofCode (c.f 0x68 31 28)).getD ⟨32, 0, 0, true, 0⟩
/-- Bytes of its check value. -/
def Cmd.checkBytes (c : Cmd) : Nat := c.checkAlg.width / 8
/-- CVT. -/
def Cmd.copyCvt (c : Cmd) : Nat := c.f 0x68 15 0

/-- Source bytes of a plain copy (R484). -/
def Cmd.srcBytes (c : Cmd) : Nat := c.q 0x60 + (if c.checkMode = 3 then c.checkBytes else 0)
/-- Destination bytes of a plain copy (R484). -/
def Cmd.dstBytes (c : Cmd) : Nat := c.q 0x60 + (if c.checkMode = 2 then c.checkBytes else 0)

/-- The refusals R483 adds for a checked copy. -/
def Cmd.checkBad (c : Cmd) : Bool :=
  c.checkMode != 0 && (c.copyCvt != 0 || (CrcAlg.ofCode (c.f 0x68 31 28)).isNone || c.q 0x78 % 16 != 0 ||
    decide (2 ^ c.checkAlg.width ≤ c.q 0x70))

/-- The planes of a converting copy (R347): start and bytes of the elements and of the scales. -/
def densePlanes (f : EFmt) (blk : Nat) (l : Loc) (scale n : Nat) : List (Loc × Nat) :=
  (l, packedBytes f (roundUp n blk)) :: (if f.scaled then [(.dva scale, (n + blk - 1) / blk * f.scaleBytes)] else [])

/-- The checks of a plain copy: its endpoints where they pass (R346, R449, R483). -/
def State.plainChecks (s : State) (c : Cmd) : Except Refused (Endpoint × Endpoint) := do
  let a ← s.endpoint c 0x40
  let b ← s.endpoint c 0x50
  if a.remote.isSome || (b.remote.isSome && b.isRegion) then throw (0x1001, 0)
  if c.q 0x60 % 64 ≠ 0 ∨ c.checkBad then throw (0x1001, 0)
  if (match a.limit with | some n => decide (n < c.srcBytes) | none => false) then throw (0x1001, 0)
  if (match b.limit with | some n => decide (n < c.dstBytes) | none => false) then throw (0x1001, 0)
  match ([s.badTile a, s.badTile b].filterMap id).min? with
  | some t => throw (0x4003, t)
  | none =>
    if b.remote.isNone ∧ locOverlap a.loc b.loc c.srcBytes c.dstBytes then throw (0x1001, 0)
    if locUnmapped a.loc c.srcBytes ∨ (b.remote.isNone ∧ locUnmapped b.loc c.dstBytes) then throw (0x1006, 0)
    return (a, b)

/-- The source format, source BLOCK and CVT of a converting copy; none where a code is reserved (R73, R86). -/
def Cmd.convSpec (c : Cmd) : Option (EFmt × Nat × Cvt) :=
  match EFmt.ofCode (c.f 0x68 19 16), Cvt.ofWord c.copyCvt with
  | some f, some v => if c.f 0x68 21 20 ≥ 2 then none else some (f, blockOf f (c.f 0x68 21 20), v)
  | _, _ => none

/-- BLOCK of a CVT word's destination. -/
def Cvt.blk (v : Cvt) : Nat := if v.fmt.scaled then v.block else 1

/-- The checks of a converting copy (R347, R393, R449). -/
def State.convChecks (c : Cmd) : Except Refused (EFmt × Nat × Cvt) := do
  if c.f 0x4C 2 1 ≠ 0 ∨ c.f 0x5C 2 1 ≠ 0 then throw (0x1001, 0)
  if c.checkMode ≠ 0 then throw (0x1001, 0)
  match c.convSpec with
  | none => throw (0x1003, 0)
  | some (f, k, v) =>
    let n := c.q 0x60
    let src := densePlanes f k (locH (c.q 0x40)) (c.q 0x70) n
    let dst := densePlanes v.fmt v.blk (locH (c.q 0x50)) (c.q 0x78) n
    if src.any fun a => dst.any fun b => locOverlap a.1 b.1 a.2 b.2 then throw (0x1001, 0)
    if (src ++ dst).any fun a => locUnmapped a.1 a.2 then throw (0x1006, 0)
    return (f, k, v)

/-- Elements of one piece of a converting copy: at most 2 MiB in either plane. -/
def convChunk : Nat := 524288

/-- Piece kinds beside those named at `Piece`: 10 converting copy (`entry` its first element, `len` its elements), 11 copy to a
remote module. -/
def convPieces (src dst : Loc) (n : Nat) : List Piece :=
  (List.range ((n + convChunk - 1) / convChunk)).map fun i =>
    { src := src, dst := dst, len := min convChunk (n - i * convChunk), kind := 10, entry := i * convChunk }

/-- The group a checked copy takes its check-value unit from (R482): 0 to 3 a panel's two, 4 any of units 0 to 7, 5 units 20 to
23. -/
def checkGroup (a b : Endpoint) : Nat :=
  if a.loc.isHost || b.loc.isHost then 5
  else match b.panel, a.panel with
    | some p, _ => p
    | none, some p => p
    | none, none => 4

/-- COPY (R346, R347, R449, R483). -/
def execCopy (tok : Nat) (s : State) : Host.Outcome State Fault Refusal :=
  .next (match s.mayBegin tok 0x0300 with
  | none => s
  | some c =>
    if c.copyCvt ≠ 0 then
      match State.convChecks c with
      | .error e => s.instant tok e.1 e.2
      | .ok _ =>
        let ps := convPieces (locH (c.q 0x40)) (locH (c.q 0x50)) (c.q 0x60)
        if ps.isEmpty then s.instant tok 0 0 else (s.begin_ tok).startPieces tok ps
    else
      match s.plainChecks c with
      | .error e => s.instant tok e.1 e.2
      | .ok (a, b) =>
        let kind := if b.remote.isSome then 11 else 1
        let ps := piecesOf kind 0 a.loc b.loc (c.q 0x60) none
        let ps := if ps.isEmpty ∧ c.checkMode ≠ 0 then [{ src := a.loc, dst := b.loc, len := 0, kind := kind }] else ps
        if ps.isEmpty then s.instant tok 0 0
        else
          let s := (s.begin_ tok).startPieces tok ps
          if c.checkMode = 0 then s
          else
            let start := if c.f 0x68 25 25 = 1 then c.q 0x70 else c.checkAlg.init
            (s.updCmd tok fun c => { c with crcRun := start }).addUnit tok 9 (checkGroup a b) [])

/-! ## PREFETCH_WINDOW (R348, R349) -/

/-- The checks of one window entry, from its eight words: its pieces. -/
def State.windowEntry (s : State) (c : Cmd) (i : Nat) (ws : List Nat) : Except Refused (List Piece) := do
  let scale := eF ws 0 8 8 == 1
  let off := eW ws 4
  let n := eW ws 0x10
  if eF ws 0 15 9 ≠ 0 ∨ eF ws 0x14 31 14 ≠ 0 then throw (0x1001, 0)
  if off % 64 ≠ 0 ∨ eQ ws 8 % 64 ≠ 0 ∨ n % 64 ≠ 0 ∨ n < 64 ∨ 25165824 < n then throw (0x1001, 0)
  let e ← s.regionEnd c (c.f 0x40 15 0) (eF ws 0 31 16) scale off
  match s.program (c.f 0x40 15 0) with
  | none => throw (0x1003, reject 0 0x13)
  | some p =>
    let owner := match p.image.regions[eF ws 0 31 16]? with | some r => r.owner | none => 256
    if e.tile.isNone ∨ owner ≠ eF ws 0 7 0 then throw (0x1001, 0)
    if (match e.limit with | some b => decide (b < n) | none => true) then throw (0x1001, 0)
    match s.badTile e with
    | some _ => throw (0x4003, 0)
    | none =>
      if dvaEnd < eQ ws 8 + n then throw (0x1006, 0)
      let add := eQ ws 0x18
      return piecesOf 2 i (.dva (eQ ws 8)) e.loc n (if add = 0 then none else some (eF ws 0x14 13 0, add))

/-- Every entry in list order; the first failure with its index as DETAIL. -/
def State.windowPieces (s : State) (c : Cmd) : Nat → List (List Nat) → Except Refused (List Piece)
  | _, [] => .ok []
  | i, w :: ws =>
    match s.windowEntry c i w with
    | .error e => .error (e.1, i)
    | .ok ps => (s.windowPieces c (i + 1) ws).bind fun qs => .ok (ps ++ qs)

/-- PREFETCH_WINDOW (R348). -/
def execPrefetchWindow (tok : Nat) (s : State) : Host.Outcome State Fault Refusal :=
  .next (match s.mayBegin tok 0x0303 with
  | none => s
  | some c =>
    match s.windowPieces c 0 c.items with
    | .error e => s.instant tok e.1 e.2
    | .ok ps => (s.begin_ tok).startPieces tok ps)

/-! ## Pieces -/

/-- The bytes of a piece that a dense vector's elements from `first` on take: a place and a length. -/
def denseAt (f : EFmt) (l : Loc) (first n : Nat) : Loc × Nat := (l.plus (first * f.bits / 8), packedBytes f n)

/-- Convert one piece (R347, R79, R81, R88-R91). -/
def State.convertPiece (s : State) (c : Cmd) (p : Piece) (f : EFmt) (k : Nat) (v : Cvt) : E State := do
  let n := p.len
  let a := denseAt f p.src p.entry (roundUp n k)
  let e ← s.rd a.1 a.2
  let codes := (unpack f n e.2)
  let sc ← (if f.scaled then do
      let m := (n + k - 1) / k
      let r ← e.1.rd (.dva (c.q 0x70 + p.entry / k * f.scaleBytes)) (m * f.scaleBytes)
      return (r.1, (List.range m).map fun i => leNat ((r.2.drop (i * f.scaleBytes)).take f.scaleBytes))
    else .ok (e.1, []))
  let vals := rowValues f k { elems := codes, scales := sc.2 }
  let modes := (List.range n).map fun i => v.mode .other (s.profile == 0) (rndWord c.seed 0xFFFF 0 4 0 (p.entry + i))
  let out := convRow v vals modes
  let full := roundUp n v.blk
  let es := out.1 ++ List.replicate (full - out.1.length) 0
  let b := denseAt v.fmt p.dst p.entry full
  let s ← sc.1.wr b.1 ((pack v.fmt es).take b.2)
  if v.fmt.scaled then
    s.wr (.dva (c.q 0x78 + p.entry / v.blk * v.fmt.scaleBytes)) (out.2.1.flatMap fun x => leBytes v.fmt.scaleBytes x)
  else return s

/-- Cut bytes into runs of 4,096 (R449). -/
def txChunks : Nat → List Byte → List (List Byte)
  | 0, _ => []
  | _, [] => []
  | k + 1, bs => bs.take 4096 :: txChunks k (bs.drop 4096)

/-- Send bytes to a remote module as REMOTE_WRITEs in address order. -/
def State.sendWrites (s : State) (c : Cmd) (m addr detail : Nat) (bs : List Byte) : State :=
  let ts := txChunks (bs.length / 4096 + 1) bs
  ((List.range ts.length).zip ts).foldl (fun s e => s.issueTx
    { id := 0, dest := m, seq := 0, client := c.client, epoch := c.epoch, deadline := 0, add := false, obj := 0, amount := 0
      addr := addr + 4096 * e.1, payload := e.2, e2e := false, port := none, sentOn := none, tok := some c.tok, proxy := none
      detail := detail, floorSeq := 0, resendAt := 0 }) s

/-- The destination module of a COPY's REMOTE endpoint. -/
def Cmd.copyModule (c : Cmd) : Nat := c.f 0x58 15 0

/-- Move one piece: its bytes, and what a checked copy makes of them (R484, R485). The check unit's number is `u`. -/
def State.plainPiece (s : State) (c : Cmd) (p : Piece) (u : Nat) : E State := do
  let r ← s.rdCells (p.kind != 2) p.src p.len
  if c.checkMode = 0 then
    if p.kind = 11 then
      match p.dst with
      | .dva d => return r.1.sendWrites c c.copyModule d (0x30000 + c.copyModule) (bytesOf p.len r.2)
      | _ => return r.1
    else r.1.wrCells p.dst p.len r.2
  else
    let bs := bytesOf p.len r.2
    let a := c.checkAlg
    let run := a.run c.crcRun bs
    let v := run ^^^ a.xorOut
    let last := c.pieces.length == 1
    let out := if last && c.checkMode == 2 then bs ++ leBytes c.checkBytes v else bs
    let s := r.1.bump64 (0x240008 + 0x1000 * u) p.len
    let s ← (if p.kind = 11 then
        match p.dst with
        | .dva d => return s.sendWrites c c.copyModule d (0x30000 + c.copyModule) out
        | _ => return s
      else s.wr p.dst out)
    let t ← (if last && c.checkMode == 3 then s.rdNat (p.src.plus p.len) c.checkBytes else return (s, v))
    let bad := t.2 != v
    let s := if bad then t.1.bump (0x240010 + 0x1000 * u) 1 else t.1
    return s.updCmd c.tok fun c =>
      { c with crcRun := run, check := if last then some (run, v) else none, status := if bad then 0x7001 else c.status }

/-- One piece by its kind. -/
def State.movePiece (s : State) (c : Cmd) (p : Piece) (u : Nat) : E State :=
  if p.kind = 10 then
    match c.convSpec with
    | some (f, k, v) => s.convertPiece c p f k v
    | none => .ok s
  else s.plainPiece c p u

/-- A piece failed: what becomes of its command (R38, R346, R32). `ownRead`: a read of the fork's parent's own memory. -/
def State.failPiece (s : State) (c : Cmd) (p : Piece) (src st detail : Nat) (ownRead : Bool) : State :=
  let s := s.noteRead c src st detail
  if p.kind = 5 then s.failFork c.tok st ownRead
  else if p.kind = 6 then s.failLoad c st
  else if p.kind = 7 ∨ p.kind = 8 then s.failRun c.tok st 0 false
  else ((s.dropUnits c.tok).updCmd c.tok fun c => { c with pieces := [], check := none }).endCmd c.tok st 0

/-- A mover has nothing more to do for the command once fewer pieces than units are left. -/
def State.releaseMover (s : State) (tok : Nat) (u : SUnit) (left : Nat) : State :=
  let n := (s.sch.units.filter fun v => v.tok == tok && v.kind == 6).length
  if left < n then s.dropUnit u else s

/-- The command's last piece has been moved. -/
def State.piecesEnd (s : State) (tok : Nat) (p : Piece) : State :=
  if p.kind = 7 then ((s.dropUnits tok).startProgram tok).tryFinish tok
  else if p.kind = 8 then (s.dropUnits tok).tryEndStep tok
  else if p.kind = 5 then s.dropUnits tok
  else if p.kind = 6 then (s.dropUnits tok).finishLoad tok
  else
    let st := match s.cmd tok with | some c => c.status | none => 0
    (s.dropUnits tok).endCmd tok st 0

/-- One piece is moved: counters, signal, and what follows. -/
def State.runPiece (s : State) (c : Cmd) (u : SUnit) (p : Piece) (cv : Nat) : State :=
  let src := srcUnit 6 u.inst
  let bad := (s.cells p.src p.len) == .err 0x4002
  s.after (do
    let s ← s.movePiece c p cv
    let n := match c.convSpec with
      | some (_, _, v) => if p.kind = 10 then packedBytes v.fmt p.len else p.len
      | none => p.len
    let s := s.bump64 (0x15C008 + 0x1000 * u.inst) n
    let s := if p.kind = 10 then s.bump (0x15C010 + 0x1000 * u.inst) p.len else s
    let s := s.updCmd c.tok fun c => { c with pieces := c.pieces.tail }
    let s := match p.sig with
      | some (o, n) => s.cmdSignal c.tok o n
      | none => s
    let left := c.pieces.length - 1
    return (if left = 0 then s.piecesEnd c.tok p else s.releaseMover c.tok u left)) fun st d => s.failPiece c p src st d bad

/-- DMA_PIECE (R346-R349, R422, R485): mover `mover`, which the command holds, completes the command's next piece. -/
def execDmaPiece (tok : Nat) (mover : Fin 16) (h : Hazard) (s : State) : Host.Outcome State Fault Refusal :=
  .next (match (s.running tok).filter fun c => c.phase == .running with
  | none => s
  | some c =>
    match s.sch.units.find? fun u => u.tok == tok && u.kind == 6 && u.held && u.inst == mover.val, c.pieces with
    | some u, p :: _ =>
      let cu := s.sch.units.find? fun u => u.tok == tok && u.kind == 9
      if c.checkMode ≠ 0 && (match cu with | some v => !v.held | none => true) then s
      else
        let cv := match cu with | some v => v.inst | none => 0
        s.meet (some c) (srcUnit 6 mover.val) h (fun s => s.failPiece c p (srcUnit 6 mover.val) 0x4002 0 (p.kind == 5))
          fun s => s.runPiece c u p cv
    | _, _ => s)

end Sys2Proof.Machine
end

