-- ==== Sys2Proof/Machine/Queue.lean ====
section
/-! DEFINITION. Queues, fetch, dispatch and completion (12 R373-R390, R396, R588; 13 R416, R420): the commands PACKET_FETCH,
COMMAND_DISPATCH, NOT_BEFORE_REACHED, COMMAND_COMPLETION, COMPLETION_RECORD_WRITE, QUEUE_DRAINED, the queue-control opcodes and the
queue register writes. -/

namespace Sys2Proof.Machine

/-! ## Rings -/

/-- The register block of queue `q`. -/
def qBase (q : Nat) : Nat := 0x10000 + 0x40 * q
/-- Slots of the submission ring. -/
def State.sqSize (s : State) (q : Nat) : Nat := 2 ^ s.fld (qBase q + 0x18) 4 0
/-- Entries of the completion ring. -/
def State.cqSize (s : State) (q : Nat) : Nat := 2 ^ s.fld (qBase q + 0x18) 12 8
/-- Packets of queue `q` covered by a doorbell and not fetched (R376). -/
def State.unfetched (s : State) (q : Nat) : Nat :=
  let x := s.queue q
  (x.sqTail + s.sqSize q - x.sqHead) % s.sqSize q

/-- Tokens a client holds (R387). -/
def State.clientTokens (s : State) (c : Nat) : Nat := (s.cmds.filter fun x => x.client == c).length
/-- A client's token cap; 0 reads as 65,536 (R402). -/
def State.clientCap (s : State) (c : Nat) : Nat := let v := s.fld (0x19000 + 4 * c) 16 0; if v = 0 then 65536 else v
/-- A bound of R387 defers a fetch for client `c`. -/
def State.bounded (s : State) (c : Nat) : Bool := decide (65536 ≤ s.cmds.length) || decide (s.clientCap c ≤ s.clientTokens c)
/-- Queue `q` is latency-critical (R416). -/
def State.isLc (s : State) (q : Nat) : Bool := s.fld (0x20100 + 4 * (q / 8)) (16 + q % 8) (16 + q % 8) == 1
/-- Queue `q` has a packet to fetch. -/
def State.hasPacket (s : State) (q : Nat) : Bool := (s.queue q).st == .enabled && s.unfetched q != 0
/-- Queue `q` is eligible for fetch (R420). -/
def State.fetchable (s : State) (q : Nat) : Bool := s.hasPacket q && !s.bounded (q / 8)

/-- The first element at or after `from_` in cyclic order. -/
def nextFrom (from_ : Nat) (xs : List Nat) : Option Nat := (xs.find? fun x => decide (from_ ≤ x)) <|> xs.head?

/-- WEIGHT of client `c`; 0 reads as 1. -/
def State.weight (s : State) (c : Nat) : Nat := let w := s.fld (0x20100 + 4 * c) 7 0; if w = 0 then 1 else w

/-- Eligible best-effort queues of client `c`. -/
def State.beQueues (s : State) (c : Nat) : List Nat :=
  ((List.range 8).map (· + 8 * c)).filter fun q => s.fetchable q && !s.isLc q

/-- The client whose turn it is in the current round, at or after the pointer (R420). -/
def State.beClient (s : State) : Option Nat :=
  (List.range 64).find? fun c => decide (s.sch.fetchPtr ≤ c) && !(s.beQueues c).isEmpty &&
    decide (SMap.get (fun _ => 0) s.sch.fetchRound c < s.weight c)

/-- The queue the next packet comes from, with the round's state after it (R420). -/
def State.pickQueue (s : State) : Option (State × Nat) :=
  let lcs := (List.range 512).filter fun q => s.fetchable q && s.isLc q
  match nextFrom s.sch.lastLcQ lcs with
  | some q => some ({ s with sch := { s.sch with lastLcQ := q + 1 } }, q)
  | none =>
    let fresh := { s with sch := { s.sch with fetchRound := [], fetchPtr := 0 } }
    let pick (s : State) : Option (State × Nat) :=
      match s.beClient with
      | none => none
      | some c =>
        match nextFrom (SMap.get (fun _ => 0) s.sch.lastBe c) (s.beQueues c) with
        | none => none
        | some q => some ({ s with sch := { s.sch with
            fetchPtr := c, lastBe := SMap.set (fun _ => 0) c (q + 1) s.sch.lastBe
            fetchRound := SMap.modify (fun _ => 0) c (· + 1) s.sch.fetchRound } }, q)
    pick s <|> pick fresh

/-! ## Records (R377, R378, R396) -/

/-- The 32 bytes of a command's record. -/
def recordBytes (c : Cmd) (phase : Bool) : List Byte :=
  leBytes 8 c.tag ++ leBytes 8 c.itDone ++ leBytes 4 c.detail ++ leBytes 2 c.status ++ leBytes 2 c.recStream ++ leBytes 4 c.epoch ++
    leBytes 4 (c.op + (if phase then 2 ^ 31 else 0))

/-- The command leaves: its token is free. -/
def State.dropCmd (s : State) (tok : Nat) : State := { s with cmds := s.cmds.filter fun c => c.tok != tok }.settle

/-- Write the record of a completed command where its queue has a free entry and no earlier record waits (R377, R378). -/
def State.tryRecord (s : State) (tok : Nat) : State :=
  match s.cmd tok with
  | none => s
  | some c =>
    let x := s.queue c.qid
    let waiting := s.cmds.any fun d => d.qid == c.qid && d.phase == .recordWait && decide (d.doneSeq < c.doneSeq)
    if c.phase ≠ .recordWait ∨ waiting ∨ s.cqSize c.qid ≤ x.unread then s
    else
      let n := (x.cqWrite + 1) % s.cqSize c.qid
      let adv (s : State) : State :=
        (s.setQueue c.qid { x with cqWrite := n, phase := if n = 0 then !x.phase else x.phase, unread := x.unread + 1 }).dropCmd tok
      match s.storeBytes ((locH (s.reg64 (qBase c.qid + 0x10))).plus (32 * x.cqWrite)) (recordBytes c x.phase) with
      | .ok s => adv s
      | .wait => s
      | .err _ => adv (s.setFld (qBase c.qid + 4) 3 3 1)

/-- The command has completed: its record follows unless QUIET applies (R382 step 6, R387). -/
def State.complete (s : State) (tok : Nat) : State :=
  match s.cmd tok with
  | none => s
  | some c =>
    let s := (s.bump64 (qBase c.qid + 0x28) 1).clientActive c.client
    if c.quiet && c.status / 256 == 0 then s.dropCmd tok
    else
      let s := s.updCmd tok fun c => { c with phase := .recordWait, doneSeq := s.sch.nextDone }
      let s := { s with sch := { s.sch with nextDone := s.sch.nextDone + 1 } }
      s.settle.tryRecord tok

/-! ## Fetch (R376, R381, R387, R588) -/

/-- The slot has been fetched: the head passes it, a token is taken. -/
def State.takeSlot (s : State) (q : Nat) (c : Cmd) : State :=
  let x := s.queue q
  let s := s.setQueue q { x with sqHead := (x.sqHead + 1) % s.sqSize q }
  { s with cmds := s.cmds ++ [c], nextTok := s.nextTok + 1 }.clientActive c.client

/-- A command that stands for a slot whose packet was refused or could not be read: its record is written at once. -/
def State.refuseSlot (s : State) (q : Nat) (c : Cmd) (st detail : Nat) : State :=
  (s.takeSlot q { c with phase := .ended, status := st, detail := detail, itDone := s.itNow, flags := 0 }).complete c.tok

/-- Fetch the packet at the head of queue `q`; none where it cannot be read yet. -/
def State.fetch (s : State) (q : Nat) : Option State :=
  let x := s.queue q
  let l := (locH (s.reg64 (qBase q + 8))).plus (128 * x.sqHead)
  let none_ : Cmd := { Cmd.ofWords s.nextTok q [] with op := 0xFFFF, stream := 0xFFFF, recStream := 0xFFFF }
  match s.rd l 128 with
  | .ok (s, bs) =>
    let ws := wordsOf 32 bs
    let c := Cmd.ofWords s.nextTok q ws
    match fetchCheck q ws with
    | some o => some ((s.bump 0x1A010 1).refuseSlot q { c with recStream := c.stream } 0x1005 o)
    | none => some (s.takeSlot q c).settle
  | .error (.err st d) =>
    let s := if st = 0x4002 ∧ d ≠ 0 then s.noteEcc (srcHub 0) (q / 8) 0xFFFF 0 d else s
    some (s.refuseSlot q none_ st x.sqHead)
  | .error _ => none

/-- A queue's fetch is deferred at a bound (R387, R388). -/
def State.deferred (s : State) : Bool := (List.range 512).any fun q => s.hasPacket q && s.bounded (q / 8)

/-- PACKET_FETCH (R376, R381, R387, R388, R420, R588): the next packet in the order of R420. A row at which a bound defers the fetch of some
queue counts once in TOKEN_STALLS, whether or not another queue is served (DESIGN CHOICE, log entry 82). A queue whose packet cannot be read
yet keeps its turn. -/
def execPacketFetch (h : Hazard) (s : State) : Host.Outcome State Fault Refusal :=
  .next (if !s.live || s.switching then s
  else
    let s := if s.deferred then s.bump64 0x1A008 1 else s
    match s.pickQueue with
    | some (s', q) =>
      let x := s'.queue q
      let none_ : Cmd := { Cmd.ofWords s'.nextTok q [] with op := 0xFFFF, stream := 0xFFFF, recStream := 0xFFFF }
      s'.meet none (srcHub 0) h (fun s => s.refuseSlot q none_ 0x4002 x.sqHead) fun s'' => (s''.fetch q).getD { s'' with sch := s.sch }
    | none => s)

/-! ## Dispatch (R382, R383, R389, R390) -/

/-- A block list: descriptor addresses (R312). -/
def State.blockList (s : State) (c : Cmd) : E (State × Cmd) := do
  let n := c.f 0x44 12 0
  let r ← s.rd (locH (c.q 0x50)) (16 * n)
  return (r.1, { c with items := (List.range n).map fun i => [leNat ((r.2.drop (16 * i)).take 8)] })

/-- The stamps of an INGEST_VIDEO or INGEST_STILL (R281). -/
def State.stampList (s : State) (c : Cmd) : E (State × Cmd) := do
  let n := c.w 0x44
  let r ← s.rd (locH (c.q 0x58)) (8 * n)
  return (r.1, { c with items := (List.range n).map fun i => [leNat ((r.2.drop (8 * i)).take 8)] })

/-- The lists a command reads at dispatch (R389): the command with its list held. -/
def State.readLists (s : State) (c : Cmd) : E (State × Cmd) :=
  match c.op with
  | 0x0203 =>
    if c.f 0x40 12 0 = 0 then .ok (s, { c with items := [[c.stream, 0, 0]] })
    else do
      let n := c.f 0x40 12 0
      let r ← s.rd (locH (c.q 0x48)) (16 * n)
      let items := (List.range n).map fun i =>
        let e := (r.2.drop (16 * i)).take 16
        [leNat (e.take 2), leNat ((e.drop 8).take 4), leNat ((e.drop 12).take 4)]
      return (r.1, { c with items := items })
  | 0x0202 =>
    if c.flag 0 then .ok (s, c)
    else do
      let n := c.f 0x40 8 0
      let r ← s.rd (locH (c.q 0x48)) (2 * n)
      return (r.1, { c with targets := (List.range n).map fun i => leNat ((r.2.drop (2 * i)).take 2) })
  | 0x0800 =>
    if c.f 0x44 14 0 = 0 then .ok (s, c)
    else do
      let n := c.f 0x44 14 0
      let r ← s.rd (locH (c.q 0x48)) (2 * n)
      return (r.1, { c with targets := (List.range n).map fun i => leNat ((r.2.drop (2 * i)).take 2) })
  | 0x0303 => do
    let n := c.f 0x44 10 0
    let r ← s.rd (locH (c.q 0x48)) (32 * n)
    return (r.1, { c with items := (List.range n).map fun i => wordsOf 8 ((r.2.drop (32 * i)).take 32) })
  | 0x0502 => s.stampList c
  | 0x0503 => s.stampList c
  | 0x0400 => s.blockList c
  | 0x0401 => s.blockList c
  | _ => .ok (s, c)

/-- The binding list, bound words and synchronisation object list a command reads at dispatch (R389). -/
def State.readShared (s : State) (c : Cmd) : E (State × Cmd) :=
  match c.op with
  | 0x0100 => do
    let b ← s.pairList (c.q 0x50) (c.f 0x4C 6 0)
    return (b.1, { c with bufs := b.2 })
  | 0x0101 => do
    let b ← s.pairList (c.q 0x48) (c.f 0x44 6 0)
    let w ← b.1.rd (locH (c.q 0x50)) 64
    let y ← w.1.syncList (c.q 0x58) (c.f 0x44 20 16)
    return (y.1, { c with bufs := b.2, words := wordsOf 16 w.2, syncs := y.2 })
  | 0x0203 => do
    let y ← s.syncList (c.q 0x70) (c.f 0x40 20 16)
    return (y.1, { c with syncs := y.2 })
  | 0x0204 => do
    let y ← s.syncList (c.q 0x70) (c.f 0x78 4 0)
    return (y.1, { c with syncs := y.2 })
  | _ => .ok (s, c)

/-- SYNC_COUNT the command's ENTRY entry needs (R390); 0 where no program decides it. -/
def State.syncNeedOf (s : State) (c : Cmd) : Nat :=
  match c.op with
  | 0x0101 => match s.programFor c (c.f 0x40 15 0) with | some p => p.image.syncNeed (c.f 0x40 23 16) | none => 0
  | 0x0203 =>
    match (s.stepLead c).bind s.streamProg with
    | some (_, p) => match p.image.firstEntry 1 with | some e => p.image.syncNeed e | none => 0
    | none => 0
  | 0x0204 =>
    match (if (s.strm c.stream).st = .free then none else s.streamProg c.stream) with
    | some (_, p) => match p.image.firstEntry 2 with | some e => p.image.syncNeed e | none => 0
    | none => 0
  | _ => 0

/-- SYNC_COUNT is out of its range (R390). -/
def State.syncBad (s : State) (c : Cmd) : Option Nat :=
  match c.syncCount with
  | none => none
  | some (n, o) => if 16 < n ∨ n < s.syncNeedOf c then some o else none

/-- Queues a PREEMPT or a RESUME names. -/
def Cmd.maskQueues (c : Cmd) : List Nat :=
  ((List.range 8).filter fun i => c.f 0x44 i i == 1).map fun i => 8 * c.f 0x40 5 0 + i

/-- Waiting time of a queue's commands stops while it is suspended (R435). -/
def State.suspendQueue (s : State) (q : Nat) : State :=
  if (s.queue q).suspended then s
  else
    let s := s.setQueue q { s.queue q with suspended := true }
    { s with cmds := s.cmds.map fun c =>
        if c.qid = q ∧ (c.phase = .saved ∨ c.phase = .ready) then { c with waitedFor := s.itNow - c.readyAt } else c }

/-- The head command of queue `q`, ready to dispatch. -/
def State.readyHead (s : State) (q : Nat) : Option Cmd :=
  (s.cmds.find? fun c => c.qid == q && c.phase.held).filter fun c => c.phase == .ready

/-- Dispatch: the class and the order are taken, the wait is accounted, the counts and the DVA fields are checked (R390, R374), the lists are read, and the queues a PREEMPT
names are suspended (R431). -/
def State.dispatch (s : State) (c : Cmd) : State :=
  let take (s : State) (c : Cmd) : State :=
    let s := s.updCmd c.tok fun _ => { c with phase := .dispatched, lc := s.isLc c.qid, order := s.sch.nextOrder }
    let s := { s with sch := { s.sch with nextOrder := s.sch.nextOrder + 1 } }
    ((s.waited c.client c.readyAt).accountNow c.client fun a => { a with dispatched := a.dispatched + 1 }).settle
  let refuse (s : State) (st d : Nat) : State := (take s c).instant c.tok st d
  match c.countBad with
  | some o => refuse s 0x1001 o
  | none =>
    match (if c.op = 0x0203 ∧ c.f 0x40 12 0 ≠ 0 ∧ c.f 0x40 20 16 ≤ 16 then none else s.syncBad c) with
    | some o => refuse s 0x1001 o
    | none =>
      if c.dvaBad then refuse s 0x1006 0
      else
      match s.readLists c with
      | .error .wait => s
      | .error .pool => s
      | .error (.err st d) => refuse s st d
      | .ok (s', c') =>
        match s.syncBad c' with
        | some o => refuse s 0x1001 o
        | none =>
          match s'.readShared c' with
          | .ok (s', c') =>
            let s := take s' c'
            if c'.op = 0x0600 then c'.maskQueues.foldl (fun s q => s.suspendQueue q) s else s
          | .error (.err st d) =>
            if c'.op = 0x0203 then ((take s' c').begin_ c.tok).endWhole c' (c'.items.map fun _ => st) st d else refuse s' st d
          | .error _ => s

/-- COMMAND_DISPATCH (R382, R383, R389, R390, R416, R435). -/
def execCommandDispatch (q : Fin 512) (h : Hazard) (s : State) : Host.Outcome State Fault Refusal :=
  .next (if !s.live || s.switching || (s.queue q.val).suspended then s
  else
    match s.readyHead q.val with
    | none => s
    | some c => s.meet (some c) (srcHub 0) h (fun s => ((s.dispatch c).begin_ c.tok).endCmd c.tok 0x4002 0) fun s => s.dispatch c)

/-- NOT_BEFORE_REACHED (R382, R384): IT is at or above the command's NOT_BEFORE. -/
def execNotBeforeReached (tok : Nat) (it : Nat) (s : State) : Host.Outcome State Fault Refusal :=
  .next (
    let s := s.advance it
    match s.cmd tok with
    | some c => if c.phase = .time then s.settle else s
    | none => s)

/-! ## Completion (R382, R385, R413) -/

/-- The completion signal of a command that has one to make. -/
def State.endSignal (s : State) (c : Cmd) : State :=
  if c.signalEn && (statusGood c.status || c.signalAlways) then s.signal c.signalObj c.signalValue c.epoch c.client (some c.tok) else s

/-- A failure of a remote operation of the command decides its status (R413, R449). -/
def State.takeFailure (s : State) (tok : Nat) : State :=
  s.updCmd tok fun c =>
    match c.rfail with
    | some (st, d) => { c with status := st, detail := d, rfail := none }
    | none => c

/-- COMMAND_COMPLETION (R382 step 6, R413): the signal, then the record. -/
def execCommandCompletion (tok : Nat) (s : State) : Host.Outcome State Fault Refusal :=
  .next (match s.cmd tok with
  | none => s
  | some c =>
    if !s.live || c.remotes ≠ 0 then s
    else
      match c.phase with
      | .ended =>
        let s := (s.finishCheck tok).takeFailure tok
        match s.cmd tok with
        | none => s
        | some c =>
          if c.check.isSome then s else
          let s := (s.updCmd tok fun c => { c with phase := .signalled }).endSignal c
          match s.cmd tok with
          | none => s
          | some c => if c.remotes = 0 then (s.takeFailure tok).complete tok else s
      | .signalled => (s.takeFailure tok).complete tok
      | _ => s)

/-- COMPLETION_RECORD_WRITE (R377, R378): a record that waited for a free entry. -/
def execCompletionRecordWrite (tok : Nat) (s : State) : Host.Outcome State Fault Refusal :=
  .next (if s.live then s.tryRecord tok else s)

/-- QUEUE_DRAINED (R375): every command the queue fetched has completed and has its record. -/
def execQueueDrained (q : Fin 512) (s : State) : Host.Outcome State Fault Refusal :=
  .next (if s.live && (s.queue q.val).st == .draining && !(s.cmds.any fun c => c.qid == q.val) then
    s.setQueue q.val { s.queue q.val with st := .disabled } else s)

/-! ## Queue-control opcodes (R386) -/

/-- NOP. -/
def execNop (tok : Nat) (s : State) : Host.Outcome State Fault Refusal :=
  .next (match s.mayBegin tok 0 with | some _ => s.instant tok 0 0 | none => s)

/-- FENCE: it passed its fence once every earlier command of its queue had completed. -/
def execFence (tok : Nat) (s : State) : Host.Outcome State Fault Refusal :=
  .next (match s.mayBegin tok 1 with | some _ => s.instant tok 0 0 | none => s)

/-- WAIT: its header wait was the whole of its work. -/
def execWait (tok : Nat) (s : State) : Host.Outcome State Fault Refusal :=
  .next (match s.mayBegin tok 2 with | some _ => s.instant tok 0 0 | none => s)

/-- SIGNAL: it waits for every earlier command of its queue; its completion signals. -/
def execSignal (tok : Nat) (s : State) : Host.Outcome State Fault Refusal :=
  .next (match s.mayBegin tok 3 with | some _ => s.instant tok 0 0 | none => s)

/-! ## Queue registers (R375-R377) -/

/-- Enable a disabled queue. -/
def State.enableQueue (s : State) (q : Nat) : State :=
  let x := s.queue q
  if x.st = .disabled then
    (s.setQueue q { x with st := .enabled, sqHead := 0, sqTail := 0, cqWrite := 0, phase := true, readIdx := 0, unread := 0 }).setReg64
      (qBase q + 0x28) 0
  else s

/-- Disable an enabled queue. -/
def State.disableQueue (s : State) (q : Nat) : State :=
  let x := s.queue q
  if x.st = .enabled then s.setQueue q { x with st := .draining } else s

/-- A doorbell was ignored. -/
def State.dbError (s : State) (q : Nat) : State := s.setFld (qBase q + 4) 2 2 1

/-- A submission doorbell (R376). -/
def State.tailDoorbell (s : State) (q v : Nat) : State :=
  let x := s.queue q
  if x.st ≠ .enabled ∨ s.sqSize q ≤ v then s.dbError q else s.setQueue q { x with sqTail := v }

/-- A completion doorbell (R377). -/
def State.headDoorbell (s : State) (q v : Nat) : State :=
  let x := s.queue q
  let n := s.cqSize q
  if n ≤ v then s.dbError q
  else
    let k := if v = x.readIdx then (if x.unread = n then n else 0) else (v + n - x.readIdx) % n
    if x.unread < k then s.dbError q else s.setQueue q { x with readIdx := v, unread := x.unread - k }

end Sys2Proof.Machine
end

