-- ==== Sys2Proof/Machine/Retouch.lean ====
section
/-! DEFINITION. The retouch engines (10 R292-R322): descriptors, update programs, the general recurrence, the preconditioner, UPDATE and
ROOT_REFRESH. -/

namespace Sys2Proof.Machine

/-! ## Descriptors (R293-R295) -/

/-- A descriptor as its 64 words. -/
abbrev Desc := List Nat

/-- ROWS. -/
def dRows (d : Desc) : Nat := eW d 0x10
/-- COLS. -/
def dCols (d : Desc) : Nat := eW d 0x14
/-- A flag of +0x00. -/
def dFlag (d : Desc) (b : Nat) : Bool := eF d 0 b b == 1
/-- SLOTS. -/
def dSlots (d : Desc) : Nat := eF d 4 14 12
/-- WFMT. -/
def dW (d : Desc) : EFmt := (EFmt.ofCode (eF d 4 3 0)).getD .b32
/-- GFMT. -/
def dG (d : Desc) : EFmt := (EFmt.ofCode (eF d 4 7 4)).getD .b32
/-- SFMT. -/
def dS (d : Desc) : EFmt := (EFmt.ofCode (eF d 4 11 8)).getD .b32
/-- W_CVT. -/
def dWCvt (d : Desc) : Cvt := (Cvt.ofWord (eF d 8 15 0)).getD { fmt := .b32, sat := false, ceil := false, block := 32, rnd := 1 }
/-- S_CVT. -/
def dSCvt (d : Desc) : Cvt := (Cvt.ofWord (eF d 8 31 16)).getD { fmt := .b32, sat := false, ceil := false, block := 32, rnd := 1 }
/-- BLOCK of the working weights. -/
def dBlk (d : Desc) : Nat := if (dW d).scaled then (dWCvt d).block else 1
/-- Sub-blocks of a PRECOND block (R307). -/
def dNb (d : Desc) : Nat := dRows d / 64 * (dCols d / 64)
/-- A field of the line at +0xE0: TORN 0, ROOT_VALID 1, ROOT_SEL 2, DUE 3. -/
def dMark (d : Desc) (b : Nat) : Bool := eF d 0xE0 b b == 1

/-- Bits of each word that are fields (R293); words not listed are reserved whole. -/
def descMask (o : Nat) : Nat :=
  match o with
  | 0x00 => 0x1FFFFF
  | 0x04 => 0x7FFF
  | 0x0C => 0x0FFFFFFF
  | 0x70 => 0xFF
  | 0x88 => 0
  | 0x8C => 0
  | 0xE0 => 0xF
  | o => if o < 0x88 ∨ (0x90 ≤ o ∧ o < 0xA0) ∨ (0xC0 ≤ o ∧ o < 0xE0) then wAll else 0

/-- The arrays of a block that its fields say it has: base and bytes (R294, R305, R307). -/
def dArrays (d : Desc) : List (Nat × Nat) :=
  let n := dRows d * dCols d
  [(eQ d 0x20, dRows d * eW d 0x18), (eQ d 0x38, n * ((dG d).bits / 8))] ++
  (if (dW d).scaled then [(eQ d 0x28, dRows d * eW d 0x1C)] else []) ++
  (if dFlag d 19 then [(eQ d 0x30, 4 * n)] else []) ++
  ((List.range (dSlots d)).map fun i => (eQ d (0x40 + 8 * i), n * ((dS d).bits / 8))) ++
  (if dFlag d 18 then [(eQ d 0x60, 98304 * dNb d)] else []) ++
  (if dFlag d 17 then [(eQ d 0x68, 320 * eF d 0x70 7 0)] else [])

/-- Two arrays overlap. -/
def arraysMeet : List (Nat × Nat) → Bool
  | [] => false
  | a :: as => (as.any fun b => runsOverlap a b) || arraysMeet as

/-- The update program a descriptor names; none where it names none of the image. -/
def updProgram (p : Program) (d : Desc) : Option (List UpdI) :=
  match p.image.engine[eF d 0xC 15 0]? with
  | none => none
  | some w => if eKind w = 4 then (p.image.chain 4 (eF d 0xC 15 0)).map fun is => is.map UpdI.ofWords else none

/-- The program touches a slot at or above SLOTS. -/
def slotsOver (is : List UpdI) (slots : Nat) : Bool :=
  is.any fun i => (i.op == 3 && decide (slots ≤ i.a % 4)) || (i.op == 6 && decide (slots ≤ i.dst % 4))

/-- A coefficient segment: its first word in the table (R305). -/
def segAt (cs : SMap Byte) (i o n : Nat) : Nat := cU cs (320 * i + o) n

/-- The coefficient table is out of order (R305). -/
def segsBad (cs : SMap Byte) (n : Nat) : Bool :=
  (List.range n).any fun i =>
    decide (segAt cs i 8 8 ≤ segAt cs i 0 8) || decide (segAt cs i 0x10 4 = 3) || decide (3 < segAt cs i 0x10 4) ||
    (List.range 3).any (fun j => segAt cs i (0x14 + 4 * j) 4 != 0) || segAt cs i 0x138 8 != 0 ||
    (decide (0 < i) && decide (segAt cs i 0 8 < segAt cs (i - 1) 8 8))

/-- The descriptor's own fields break R295; the coefficient table and the update program apart. -/
def descBad (addr : Nat) (d : Desc) : Bool :=
  let blk := dBlk d
  let f := dW d
  let row := roundUp ((dCols d + blk - 1) / blk * blk * f.bits / 8) 64
  decide (addr % 256 ≠ 0) || ((List.range 64).any fun i => outside (d.getD i 0) (descMask (4 * i))) ||
  (EFmt.ofCode (eF d 4 3 0)).isNone || decide (2 < eF d 4 7 4) || decide (2 < eF d 4 11 8) || decide (4 < dSlots d) ||
  (match Cvt.ofWord (eF d 8 15 0) with | some c => c.fmt != f | none => true) ||
  (match Cvt.ofWord (eF d 8 31 16) with | some c => c.fmt != dS d | none => true) ||
  (dFlag d 19 && f == .b32) ||
  dRows d == 0 || decide (2 ^ 24 < dRows d) || dCols d == 0 || decide (2 ^ 20 < dCols d) || decide (2 ^ 32 < dRows d * dCols d) ||
  decide (eW d 0x18 < row) || (f.scaled && decide (eW d 0x1C < (dCols d + blk - 1) / blk * f.scaleBytes)) ||
  ((dArrays d).any fun a => a.1 % 512 != 0 || decide (dvaEnd < a.1 + a.2)) || arraysMeet (dArrays d) ||
  (dFlag d 18 && (dRows d % 64 != 0 || dCols d % 64 != 0 || (eF d 0xC 27 24 != 2 && eF d 0xC 27 24 != 4) || eF d 0xC 23 16 == 0 ||
    decide (32 < eF d 0xC 23 16) || eW d 0x74 == 0)) ||
  (dFlag d 17 && (eF d 0x70 7 0 == 0 || decide (64 < eF d 0x70 7 0)))

/-- Read a descriptor. -/
def State.readDesc (s : State) (addr : Nat) : E (State × Desc) := do
  let r ← s.rd (.dva addr) 256
  return (r.1, wordsOf 64 r.2)

/-- The coefficient table's cells; empty where the block is not privileged. -/
def State.readCoef (s : State) (d : Desc) : E (State × SMap Byte) :=
  if dFlag d 17 then s.rdCells true (.dva (eQ d 0x68)) (320 * eF d 0x70 7 0) else .ok (s, [])

/-- The descriptor is invalid (R295); `p`: the command's program, none for ROOT_REFRESH, which names none. -/
def State.descInvalid (s : State) (p : Option Program) (addr : Nat) (d : Desc) : E (State × Bool) :=
  if descBad addr d then .ok (s, true)
  else do
    let cs ← s.readCoef d
    if dFlag d 17 then return (cs.1, segsBad cs.2 (eF d 0x70 7 0))
    else
      match p.map fun p => updProgram p d with
      | none => return (cs.1, false)
      | some none => return (cs.1, true)
      | some (some is) => return (cs.1, slotsOver is (dSlots d))

/-- The segment that covers step `n` (R306). -/
def segFor (cs : SMap Byte) (segs n : Nat) : Option Nat :=
  (List.range segs).find? fun i => decide (segAt cs i 0 8 ≤ n) && decide (n < segAt cs i 8 8)

/-! ## Element programs (R297-R303) -/

/-- IEEE minimum with NaN, -0 below +0 (R299). -/
def minR (a b : Val) : Val :=
  if a.isNan || b.isNan then .nan
  else if a.lt b then a
  else if b.lt a then b
  else match a with
    | .fin true _ _ => a
    | _ => b

/-- IEEE maximum with NaN, -0 below +0. -/
def maxR (a b : Val) : Val :=
  if a.isNan || b.isNan then .nan
  else if a.lt b then b
  else if b.lt a then a
  else match a with
    | .fin true _ _ => b
    | _ => a

/-- powu of R300. -/
def powu (beta : Val) (n : Nat) : Val :=
  ((List.range 64).foldl (fun (x : Val × Val) i =>
    (if n / 2 ^ i % 2 = 1 then mul32 x.1 x.2 else x.1, mul32 x.2 x.2)) (Val.ofNat 1, beta)).1

/-- What the loads of one element see. -/
structure ElemIn where
  g : Val
  w : Val
  pg : Val
  slots : List Val
  scalars : List Val
  n : Nat
deriving DecidableEq, Repr

/-- Registers and stores of one element. -/
structure ElemOut where
  regs : List Val := List.replicate 8 Val.zero
  w : Option Val := none
  slots : SMap (Option Val) := []
deriving DecidableEq, Repr

/-- The operand a source code names (R298). -/
def ElemIn.src (x : ElemIn) (o : ElemOut) (v : Nat) : Val :=
  if v ≤ 7 then o.regs.getD v Val.zero
  else if 0x20 ≤ v then x.scalars.getD (v - 0x20) Val.zero
  else match v with
    | 0x11 => Val.ofNat 1
    | 0x12 => .fin false 1 (-1)
    | 0x13 => Val.ofNat 2
    | 0x14 => .fin true 1 0
    | _ => Val.zero

/-- The result of an instruction that writes a register (R299). -/
def ElemIn.result (x : ElemIn) (o : ElemOut) (i : UpdI) : Val :=
  let a := x.src o i.a
  let b := x.src o i.b
  let c := x.src o i.c
  match i.op with
  | 0x01 => x.g
  | 0x02 => x.w
  | 0x03 => x.slots.getD (i.a % 4) Val.zero
  | 0x04 => x.pg
  | 0x10 => add32 a b
  | 0x11 => sub32 a b
  | 0x12 => mul32 a b
  | 0x13 => div32 a b
  | 0x14 => fma32 a b c
  | 0x15 => sqrt32 a
  | 0x16 => rsqrt32 a
  | 0x17 => minR a b
  | 0x18 => maxR a b
  | 0x19 => a.abs
  | 0x1A => a.neg
  | 0x1B => if Val.zero.lt c then a else b
  | 0x1C => sub32 (Val.ofNat 1) (powu a x.n)
  | 0x1D => powu a x.n
  | _ => minR (maxR a b.abs.neg) b.abs

/-- Run the program for one element. -/
def ElemIn.run (x : ElemIn) : List UpdI → ElemOut → ElemOut
  | [], o => o
  | i :: is, o =>
    if i.op = 0 then o
    else if i.op = 5 then x.run is { o with w := some (x.src o i.a) }
    else if i.op = 6 then x.run is { o with slots := SMap.set (fun _ => none) (i.dst % 4) (some (x.src o i.a)) o.slots }
    else x.run is { o with regs := o.regs.set i.dst (x.result o i) }

/-! ## The general recurrence (R304-R306) -/

/-- cos(pi f) of a value in [0, 1], correctly rounded to binary32. -/
def cospi32 (f : Val) : Val :=
  match f with
  | .fin s m e =>
    let x := fpOf s m e
    let half : Int := 2 ^ (fpBits - 1)
    if x ≤ 0 then Val.ofNat 1
    else if x = half then Val.zero
    else
      let y := if x < half then x else 2 ^ fpBits - x
      let r := fpMul fpPi y
      let c := 2 ^ fpBits + trigSum (fpMul r r) 60 1 (2 ^ fpBits)
      let v := if y ≤ 0 then Val.ofNat 1 else r32 (fpVal c 0)
      if x < half then v else v.neg
  | _ => .nan

/-- The 35 coefficients at step `n` of segment `i` (R306). -/
def coefsAt (cs : SMap Byte) (i n : Nat) : List Val :=
  let lo := segAt cs i 0 8
  let hi := segAt cs i 8 8
  let f := div32 (r32 (Val.ofNat (n - lo))) (r32 (Val.ofNat (hi - lo)))
  (List.range 35).map fun k =>
    let c0 := dec32 (segAt cs i (0x20 + 4 * k) 4)
    let c1 := dec32 (segAt cs i (0xAC + 4 * k) 4)
    match segAt cs i 0x10 4 with
    | 0 => c0
    | 1 => add32 c0 (mul32 f (sub32 c1 c0))
    | _ =>
      let h := mul32 (.fin false 1 (-1)) (add32 (Val.ofNat 1) (cospi32 f))
      add32 c1 (mul32 h (sub32 c0 c1))

/-- The recurrence for one element: each sum exact, rounded once. -/
def ElemIn.recur (x : ElemIn) (k : List Val) : ElemOut :=
  let z (j : Nat) : Val := if j = 0 then x.w else x.slots.getD (j - 1) Val.zero
  let out (i : Nat) : Val :=
    let s := (List.range 5).foldl (fun v j => v.add ((k.getD (5 * i + j) Val.zero).mul (z j))) Val.zero
    r32 ((s.add ((k.getD (25 + i) Val.zero).mul x.pg)).add (k.getD (30 + i) Val.zero))
  { w := some (out 0)
    slots := (List.range x.slots.length).foldl (fun m i => SMap.set (fun _ => none) i (some (out (i + 1))) m) [] }

/-! ## Matrices (R307-R309) -/

/-- A 64 by 64 matrix, row-major. -/
abbrev Mat := List Val

/-- Entry of a matrix. -/
def matAt (m : Mat) (i j : Nat) : Val := m.getD (64 * i + j) Val.zero
/-- A matrix from its entries. -/
def matOf (f : Nat → Nat → Val) : Mat := (List.range 4096).map fun k => f (k / 64) (k % 64)
/-- A sum over 64 products, accumulated from +0.0 in increasing order. -/
def macSum (f g : Nat → Val) : Val := (List.range 64).foldl (fun a k => add32 a (mul32 (f k) (g k))) Val.zero
/-- A matrix product. -/
def matMul (a b : Mat) : Mat := matOf fun i j => macSum (fun k => matAt a i k) (fun k => matAt b k j)

/-- Read a matrix. -/
def State.readMat (s : State) (a : Nat) : E (State × Mat) := do
  let r ← s.rd (.dva a) 16384
  return (r.1, (wordsOf 4096 r.2).map dec32)

/-- Write a matrix. -/
def State.writeMat (s : State) (a : Nat) (m : Mat) : E State := s.wr (.dva a) (m.flatMap fun v => leBytes 4 (enc32 v))

/-- Matrix `k` (0 L, 1 Rf, 2 and 3 buffer 0, 4 and 5 buffer 1) of sub-block `b`. -/
def factorAt (d : Desc) (b k : Nat) : Nat := eQ d 0x60 + 98304 * b + 16384 * k

/-- One Newton iteration (R309). -/
def newton (p : Nat) (x m : Mat) : Mat × Mat :=
  let pv := Val.ofNat p
  let t := matOf fun i j => div32 (sub32 (if i = j then Val.ofNat (p + 1) else Val.zero) (matAt m i j)) pv
  let t2 := matMul t t
  (matMul x t, if p = 2 then matMul t2 m else matMul (matMul t2 t2) m)

/-- X and M at the start of an inverse root (R309): `a` the factor, `eps` ROOT_EPS. -/
def newtonStart (p : Nat) (eps : Val) (f : Mat) : Mat × Mat :=
  let a := matOf fun i j => if i = j then add32 (matAt f i j) eps else matAt f i j
  let fro := sqrt32 (a.foldl (fun s v => add32 s (mul32 v v)) Val.zero)
  let z := div32 (Val.ofNat (p + 1)) (mul32 (Val.ofNat 2) fro)
  let r := if p = 2 then sqrt32 z else sqrt32 (sqrt32 z)
  (matOf fun i j => if i = j then r else Val.zero, matOf fun i j => mul32 z (matAt a i j))

/-- A root is accepted (R309). -/
def rootOk (x m : Mat) : Bool :=
  (x.all fun v => !v.nonFinite) && (m.all fun v => !v.nonFinite) &&
  (List.range 4096).all fun k =>
    let want := if k / 64 = k % 64 then Val.ofNat 1 else Val.zero
    ((matAt m (k / 64) (k % 64)).sub want).abs.le (.fin false 1 (-10))

/-! ## The work of a command -/

/-- Change a retouch command's work. -/
def State.updRtc (s : State) (tok : Nat) (f : RtcWork → RtcWork) : State := s.updCmd tok fun c => { c with rtc := c.rtc.map f }

/-- Change one block of it. -/
def State.updBlock (s : State) (tok idx : Nat) (f : BlockRun → BlockRun) : State :=
  s.updRtc tok fun w => { w with blocks := w.blocks.map fun b => if b.idx = idx then f b else b }

/-- A running retouch command with its work. -/
def State.rtcWork (s : State) (tok op : Nat) : Option (Cmd × RtcWork) :=
  ((s.running tok).filter fun c => c.phase == .running && c.op == op).bind fun c => c.rtc.map fun w => (c, w)

/-- The instance of the command's first held unit; none where it holds none. -/
def State.rtcInst (s : State) (tok : Nat) : Option Nat :=
  (s.sch.units.find? fun u => u.tok == tok && u.kind == 5 && u.held).map (·.inst)

/-- A counter of a retouch engine. -/
def rtcReg (inst o : Nat) : Nat := 0x158000 + 0x1000 * inst + o

/-- Another command claims the descriptor (R313). -/
def State.claimedElse (s : State) (tok addr : Nat) : Bool := s.claims.any fun e => e.1 == addr && e.2 != tok

/-- Release a claim. -/
def State.unclaim (s : State) (tok addr : Nat) : State := { s with claims := s.claims.filter fun e => !(e.1 == addr && e.2 == tok) }

/-- Release every claim of a command. -/
def State.unclaimAll (s : State) (tok : Nat) : State := { s with claims := s.claims.filter fun e => e.2 != tok }

/-- A retouch command is refused or ends, its record as given. -/
def State.endRetouch (s : State) (tok st detail : Nat) : State :=
  ((s.unclaimAll tok).dropUnits tok).updCmd tok fun c => { c with phase := .ended, status := st, detail := detail, itDone := s.itNow, rtc := none }

/-- A list entry takes its status, which is written to the list (R317, R318). -/
def State.setEntry (s : State) (tok idx st : Nat) : State :=
  match s.cmd tok with
  | none => s
  | some c =>
    let s := s.updBlock tok idx fun b => { b with status := some st }
    (s.storeBytes ((locH (c.q 0x50)).plus (16 * idx + 8)) (leBytes 2 st)).orElse s

/-- A command whose every entry has its status ends (R36, R318). -/
def State.tryEndRetouch (s : State) (tok : Nat) : State :=
  match (s.cmd tok).bind (·.rtc) with
  | none => s
  | some w =>
    if w.blocks.all fun b => b.status.isSome then
      let bad := w.blocks.filterMap fun b => b.status.filter (· != 0)
      s.endRetouch tok (bad.headD 0) bad.length
    else s

/-- The 64 bytes at +0xC0. -/
def descLine (step root it frozen marks : Nat) : List Byte :=
  leBytes 8 step ++ leBytes 8 root ++ leBytes 8 it ++ leBytes 8 frozen ++ leBytes 4 marks ++ List.replicate 28 0

/-- The marks of a descriptor with TORN, ROOT_VALID, ROOT_SEL and DUE. -/
def marksOf (torn valid sel due : Bool) : Nat :=
  (if torn then 1 else 0) + (if valid then 2 else 0) + (if sel then 4 else 0) + (if due then 8 else 0)

/-- The age of the roots at step `n` is at least `k`; unbounded where ROOT_STEP exceeds `n` (R311). -/
def ageAtLeast (n root k : Nat) : Bool := decide (n < root) || decide (k ≤ n - root)

/-- DUE at step `n` (R311). -/
def dueAt (d : Desc) (valid : Bool) (root n : Nat) : Bool := !valid || ageAtLeast n root (eW d 0x74)

/-! ## UPDATE -/

/-- The first failure of the check pass on one block (R314). -/
def State.checkBlock (s : State) (p : Program) (step : Nat) (adopt : Bool) (seen : List Nat) (b : BlockRun) : E (State × Nat) := do
  let d := b.desc
  let v ← s.descInvalid (some p) b.addr d
  let s := v.1
  if v.2 || seen.contains b.addr then return (s, 0x3003)
  if dMark d 0 then return (s, 0x3004)
  if dFlag d 16 then return (s, 0)
  if eQ d 0xC0 + 1 ≠ step ∧ adopt = false then return (s, 0x3002)
  if dFlag d 17 then
    let cs ← s.readCoef d
    return (cs.1, if (segFor cs.2 (eF d 0x70 7 0) step).isNone then 0x3005 else 0)
  return (s, 0)

/-- Check blocks in list order: what the reads leave, and the first failure with its block. -/
def State.checkBlocks (p : Program) (step : Nat) (adopt : Bool) :
    State → List Nat → List BlockRun → State × Option (Except Stop Nat × BlockRun)
  | s, _, [] => (s, none)
  | s, seen, b :: bs =>
    match s.checkBlock p step adopt seen b with
    | .ok (s, 0) => State.checkBlocks p step adopt s (b.addr :: seen) bs
    | .ok (s, st) => (s, some (.ok st, b))
    | .error e => (s, some (.error e, b))

/-- The check pass of an UPDATE with all its claims (R314, R315). A table or a descriptor that cannot be read, for whatever reason, ends it with
ECC_UNCORRECTED. -/
def State.checkPass (s : State) (c : Cmd) (w : RtcWork) (inst : Nat) : State :=
  let step := c.q 0x48
  let src := srcUnit 5 inst
  let fail (s : State) (e : Stop) (idx : Nat) : State :=
    match e with
    | .err st d => (s.noteRead c src st d).endRetouch c.tok 0x4002 idx
    | .wait => s
    | .pool => s.enterSafe 6
  if step = 0 then s.endRetouch c.tok 0x1001 0
  else
    match s.programFor c (c.f 0x40 15 0) with
    | none => s.endRetouch c.tok 0x1003 0
    | some p =>
      match s.rd (locH (c.q 0x58)) 112 with
      | .error e => fail s e 0
      | .ok r =>
        let reads := w.blocks.foldl (fun (a : State × List BlockRun × Option (Stop × Nat)) b =>
          match a.2.2 with
          | some _ => a
          | none =>
            match a.1.readDesc b.addr with
            | .ok q => (q.1, a.2.1 ++ [{ b with desc := q.2 }], none)
            | .error e => (a.1, a.2.1, some (e, b.idx))) (r.1, [], none)
        match reads.2.2 with
        | some (e, i) => fail reads.1 e i
        | none =>
          let k := State.checkBlocks p step (c.flag 0) reads.1 [] reads.2.1
          let s := k.1
          match k.2 with
          | none =>
            s.updRtc c.tok fun w => { w with blocks := reads.2.1, scalars := wordsOf 28 r.2, checked := true }
          | some (.error e, b) => fail s e b.idx
          | some (.ok st, b) =>
            let s := if st = 0x3002 then
                (s.bump (rtcReg inst 0x1C) 1).record 0x30 1 src (leBytes 2 (eF b.desc 0 15 0) ++ leBytes 1 c.client ++ [0] ++
                  leBytes 8 (eQ b.desc 0xC0) ++ leBytes 8 step ++ leBytes 8 b.addr ++ leBytes 8 c.tag)
              else s
            s.endRetouch c.tok st b.idx

/-- The blocks of a list. -/
def blocksOf (items : List (List Nat)) : List BlockRun :=
  ((List.range items.length).zip items).map fun x => { idx := x.1, addr := x.2.headD 0 }

/-- UPDATE (R312, R314, R315): the command begins, and, once it holds its claims, its check pass runs. -/
def execUpdate (tok : Nat) (s : State) : Host.Outcome State Fault Refusal :=
  .next (match s.mayBegin tok 0x0400 with
  | some c => ((s.begin_ tok).updCmd tok fun c => { c with rtc := some { blocks := blocksOf c.items } }).addUnits tok 5 4 c.items.length
  | none =>
    match s.rtcWork tok 0x0400, s.rtcInst tok with
    | some (c, w), some i => if w.claimed && !w.checked then s.checkPass c w i else s
    | _, _ => s)

/-- Another refresh stands between its snapshot and its flip of the block (R310). -/
def State.refreshing (s : State) (tok addr : Nat) : Bool :=
  s.cmds.any fun c => c.tok != tok && (match c.rtc with
    | some w => c.op == 0x0401 && (w.stage == .compute || w.stage == .claimFlip || w.stage == .flip) &&
        (match w.blocks[w.cur]? with | some b => b.addr == addr | none => false)
    | none => false)

/-- The claims of a command, one after another, up to one that another command holds or that finds the table of 16,384 full: those taken are
held while it waits (R313). -/
def State.takeClaims (tok : Nat) : State → List Nat → State
  | s, [] => s
  | s, a :: as =>
    if s.claims.contains (a, tok) then State.takeClaims tok s as
    else if s.claimedElse tok a || decide (16384 ≤ s.claims.length) then s
    else State.takeClaims tok { s with claims := s.claims ++ [(a, tok)] } as

/-- RETOUCH_CLAIM (R313, R310): an UPDATE's descriptors in increasing address order, or a refresh's one. -/
def execRetouchClaim (tok : Nat) (s : State) : Host.Outcome State Fault Refusal :=
  .next (
    let take (s : State) (addrs : List Nat) (f : RtcWork → RtcWork) : State :=
      let s := State.takeClaims tok s (sortBy (· ≤ ·) addrs)
      if addrs.all fun a => s.claims.contains (a, tok) then s.updRtc tok f else s
    if (s.rtcInst tok).isNone then s
    else
      match s.rtcWork tok 0x0400, s.rtcWork tok 0x0401 with
      | some (_, w), _ =>
        if w.claimed then s else take s (w.blocks.map (·.addr)) fun w => { w with claimed := true }
      | none, some (_, w) =>
        (match w.blocks[w.cur]? with
         | none => s
         | some b =>
           match w.stage with
           | .claimSnap => if s.refreshing tok b.addr then s else take s [b.addr] fun w => { w with stage := .snap }
           | .claimFlip => take s [b.addr] fun w => { w with stage := .flip }
           | _ => s)
      | _, _ => s)

/-! ### One chunk (R308, R317) -/

/-- Read element `(i, j)` of the working weights (R147, R294). -/
def State.readWork (s : State) (d : Desc) (i j : Nat) : E (State × Val) := do
  let f := dW d
  let a := eQ d 0x20 + i * eW d 0x18
  let r ← s.rdNat (.dva (a + j * f.bits / 8)) (max 1 (f.bits / 8))
  let code := if f = .s4 then r.2 / (if j % 2 = 0 then 1 else 16) % 16 else r.2
  if f.scaled then
    let k ← r.1.rdNat (.dva (eQ d 0x28 + i * eW d 0x1C + j / dBlk d * f.scaleBytes)) f.scaleBytes
    return (k.1, f.value code k.2)
  else return (r.1, f.dec code)

/-- Read element `e` of a dense array. -/
def State.readDense (s : State) (f : EFmt) (base e : Nat) : E (State × Val) := do
  let r ← s.rdNat (.dva (base + e * (f.bits / 8))) (f.bits / 8)
  return (r.1, f.dec r.2)

/-- What the loads of element `(i, j)` see; `pg`: its preconditioned gradient where it has one. -/
def State.elemIn (s : State) (d : Desc) (scalars : List Nat) (step i j : Nat) (pg : Option Val) : E (State × ElemIn) := do
  let e := i * dCols d + j
  let g ← s.readDense (dG d) (eQ d 0x38) e
  let w ← (if dFlag d 19 then g.1.readDense .b32 (eQ d 0x30) e else g.1.readWork d i j)
  let sl ← foldE (fun (a : State × List Val) k => do
    let v ← a.1.readDense (dS d) (eQ d (0x40 + 8 * k)) e
    return (v.1, a.2 ++ [v.2])) (w.1, []) (List.range (dSlots d))
  let ks := (scalars ++ (List.range 4).map fun k => eW d (0x90 + 4 * k)).map dec32
  return (sl.1, { g := g.2, w := w.2, pg := pg.getD g.2, slots := sl.2, scalars := ks, n := step })

/-- Elements of one chunk from element `e0` on, and where the next begins: at most 2,048, ending at the end of a scale block (R317). -/
def chunkEnd (d : Desc) (e0 : Nat) : Nat :=
  let n := dRows d * dCols d
  let lim := min (e0 + 2048) n
  ((List.range 64).map fun k => lim - k).find? (fun e => decide (e0 < e) && (e == n || e % dCols d % dBlk d == 0)) |>.getD lim

/-- The elements of a chunk or sub-block. -/
def elemsOf (d : Desc) (next : Nat) : List (Nat × Nat) :=
  if dFlag d 18 then
    let bi := next / (dCols d / 64)
    let bj := next % (dCols d / 64)
    (List.range 4096).map fun k => (64 * bi + k / 64, 64 * bj + k % 64)
  else (List.range (chunkEnd d next - next)).map fun k => ((next + k) / dCols d, (next + k) % dCols d)

/-- The counters a store raises: elements made non-finite, and saturated. -/
structure StoreCount where
  bad : Nat := 0
  sat : Nat := 0
deriving DecidableEq, Repr

/-- Store slot values (R303). -/
def State.storeSlot (s : State) (c : Cmd) (d : Desc) (step k i j : Nat) (v : Val) : E (State × StoreCount) := do
  let e := i * dCols d + j
  let cv := dSCvt d
  let r := rndWord c.seed 0xFFFF step 3 (eF d 0 15 0 * 8 + 1 + k) e
  let x := if cv.fmt = .b32 then ({ code := enc32 v, satd := false } : ConvElem) else convPlain cv.fmt cv.sat (cv.mode .retouch (s.profile == 0) r) v
  let s ← s.wr (.dva (eQ d (0x40 + 8 * k) + e * (cv.fmt.bits / 8))) (leBytes (cv.fmt.bits / 8) x.code)
  return (s, { bad := if (cv.fmt.dec x.code).nonFinite then 1 else 0, sat := if x.satd then 1 else 0 })

/-- Store one scale block of weights: row `i`, elements `j0, j0 + 1, ...` (R303, R79, R88). -/
def State.storeWeights (s : State) (c : Cmd) (d : Desc) (step i j0 : Nat) (vs : List Val) : E (State × StoreCount) := do
  let cv := dWCvt d
  let f := dW d
  let e0 := i * dCols d + j0
  let s ← (if dFlag d 19 then s.wr (.dva (eQ d 0x30 + 4 * e0)) (vs.flatMap fun v => leBytes 4 (enc32 v)) else .ok s)
  let modes := (List.range vs.length).map fun k =>
    cv.mode .retouch (s.profile == 0) (rndWord c.seed 0xFFFF step 3 (eF d 0 15 0 * 8) (e0 + k))
  let r := convRow cv vs modes
  let full := r.1 ++ List.replicate (dBlk d - r.1.length) 0
  let s ← s.wr (.dva (eQ d 0x20 + i * eW d 0x18 + j0 * f.bits / 8)) (pack f full)
  let s ← (if f.scaled then
      s.wr (.dva (eQ d 0x28 + i * eW d 0x1C + j0 / dBlk d * f.scaleBytes)) (r.2.1.flatMap fun k => leBytes f.scaleBytes k)
    else .ok s)
  let dec (k : Nat) : Val := if f.scaled then f.value (r.1.getD k 0) (r.2.1.headD 0) else f.dec (r.1.getD k 0)
  let bad := (List.range vs.length).filter fun k => (dec k).nonFinite || (dFlag d 19 && (vs.getD k Val.zero).nonFinite)
  return (s, { bad := bad.length, sat := r.2.2 })

/-- Store what the elements of a chunk produced. -/
def State.storeChunk (s : State) (c : Cmd) (d : Desc) (step : Nat) (es : List (Nat × Nat)) (os : List ElemOut) :
    E (State × StoreCount) := do
  let xs := es.zip os
  let blk := dBlk d
  let r ← foldE (fun (a : State × StoreCount) x =>
    if x.1.2 % blk ≠ 0 then .ok a
    else
      let vs := (xs.filter fun y => y.1.1 == x.1.1 && y.1.2 / blk == x.1.2 / blk).filterMap fun y => y.2.w
      if vs.isEmpty then .ok a
      else do
        let r ← a.1.storeWeights c d step x.1.1 x.1.2 vs
        return (r.1, { bad := a.2.bad + r.2.bad, sat := a.2.sat + r.2.sat })) (s, {}) xs
  foldE (fun (a : State × StoreCount) x =>
    foldE (fun (a : State × StoreCount) k =>
      match SMap.get (fun _ => none) x.2.slots k with
      | none => .ok a
      | some v => do
        let r ← a.1.storeSlot c d step k x.1.1 x.1.2 v
        return (r.1, { bad := a.2.bad + r.2.bad, sat := a.2.sat + r.2.sat })) a (List.range (dSlots d))) r xs

/-- The root-array steps of a sub-block (R308): PG, and the two factors to write. -/
def State.precond (s : State) (d : Desc) (b : Nat) (es : List (Nat × Nat)) : E (State × Mat × Mat × Mat) := do
  let g ← foldE (fun (a : State × List Val) x => do
    let v ← a.1.readDense (dG d) (eQ d 0x38) (x.1 * dCols d + x.2)
    return (v.1, a.2 ++ [mul32 v.2 (dec32 (eW d 0x84))])) (s, []) es
  let gs := g.2
  let beta := dec32 (eW d 0x80)
  let l ← g.1.readMat (factorAt d b 0)
  let r ← l.1.readMat (factorAt d b 1)
  let l' := matOf fun i j => add32 (mul32 beta (matAt l.2 i j)) (macSum (fun k => matAt gs i k) (fun k => matAt gs j k))
  let r' := matOf fun k q => add32 (mul32 beta (matAt r.2 k q)) (macSum (fun i => matAt gs i k) (fun i => matAt gs i q))
  if dMark d 1 then
    let o := if dMark d 2 then 4 else 2
    let lr ← r.1.readMat (factorAt d b o)
    let rr ← lr.1.readMat (factorAt d b (o + 1))
    return (rr.1, matMul (matMul lr.2 gs) rr.2, l', r')
  else return (r.1, gs, l', r')

/-- The coefficients of a privileged block, evaluated before its first chunk (R306). -/
def State.evalCoef (s : State) (d : Desc) (step : Nat) (b : BlockRun) : E (State × BlockRun) :=
  if dFlag d 17 && b.coef.isEmpty then do
    let cs ← s.readCoef d
    return (cs.1, { b with coef := match segFor cs.2 (eF d 0x70 7 0) step with | some i => (coefsAt cs.2 i step).map enc32 | none => [] })
  else .ok (s, b)

/-- One chunk or sub-block of a non-frozen block (R302-R308, R317): its reads, then its writes; answers what its stores counted. -/
def State.runChunk (s : State) (c : Cmd) (w : RtcWork) (p : Program) (b : BlockRun) : E (State × StoreCount) := do
  let d := b.desc
  let step := c.q 0x48
  let es := elemsOf d b.next
  let pre ← (if dFlag d 18 then do
      let r ← s.precond d b.next es
      return (r.1, some (r.2.1, r.2.2))
    else return (s, none))
  let coef := b.coef.map dec32
  let is := (updProgram p d).getD []
  let r ← foldE (fun (a : State × List ElemOut) x => do
    let k := a.2.length
    let v ← a.1.elemIn d w.scalars step x.1 x.2 (pre.2.map fun q => matAt q.1 (k / 64) (k % 64))
    return (v.1, a.2 ++ [if dFlag d 17 then v.2.recur coef else v.2.run is {}])) (pre.1, []) es
  let s ← (match pre.2 with
    | some (_, l, rf) => do
      let s ← r.1.writeMat (factorAt d b.next 0) l
      s.writeMat (factorAt d b.next 1) rf
    | none => .ok r.1)
  let o ← s.storeChunk c d step es r.2
  let gb := (dG d).bits / 8
  let s ← (if dFlag d 20 then foldE (fun (s : State) x => s.wr (.dva (eQ d 0x38 + (x.1 * dCols d + x.2) * gb)) (List.replicate gb 0)) o.1 es
    else .ok o.1)
  return (s, o.2)

/-- A block's commit (R311, R317). -/
def State.commitBlock (s : State) (c : Cmd) (b : BlockRun) (inst : Nat) : E State := do
  let d := b.desc
  let step := c.q 0x48
  let valid := dMark d 1
  let root := eQ d 0xC8
  let due := if dFlag d 18 then dueAt d valid root step else dMark d 3
  let stale := dFlag d 18 && (!valid || ageAtLeast step root (eW d 0x74 + eW d 0x78 + 1))
  let s ← s.wr (.dva (b.addr + 0xC0)) (descLine step root s.itNow (eQ d 0xD8) (marksOf false valid (dMark d 2) due))
  let s := s.bump64 (rtcReg inst 0x10) 1
  let s := if stale then s.bump (rtcReg inst 0x20) 1 else s
  return (s.setEntry c.tok b.idx (if stale then 0x0102 else 0)).unclaim c.tok b.addr

/-- A frozen block's gradient is consumed (R316). -/
def State.consumeFrozen (s : State) (c : Cmd) (b : BlockRun) (inst : Nat) : E State := do
  let d := b.desc
  let s ← (if dFlag d 20 then (s.store (.dva (eQ d 0x38)) (dRows d * dCols d * ((dG d).bits / 8)) []).e else .ok s)
  let s ← s.wr (.dva (b.addr + 0xC0)) (descLine (eQ d 0xC0) (eQ d 0xC8) (eQ d 0xD0) (min (eQ d 0xD8 + 1) (2 ^ 64 - 1))
    (marksOf (dMark d 0) (dMark d 1) (dMark d 2) (dMark d 3)))
  return ((s.bump (rtcReg inst 0x18) 1).setEntry c.tok b.idx 0x3001).unclaim c.tok b.addr

/-- Blocks not yet started are released unchanged (R319). -/
def State.abandonRest (s : State) (tok : Nat) : State :=
  match (s.cmd tok).bind (·.rtc) with
  | none => s
  | some w => (w.blocks.filter fun b => !b.started && b.status.isNone).foldl (fun s b => (s.setEntry tok b.idx 0x3006).unclaim tok b.addr) s

/-- A block in progress fails or is discarded (R319, R432): TORN where something of it was written. -/
def State.failBlock (s : State) (c : Cmd) (b : BlockRun) (inst st : Nat) : State :=
  let d := b.desc
  let s := if b.wrote then
      ((s.storeBytes (.dva (b.addr + 0xC0)) (descLine (eQ d 0xC0) (eQ d 0xC8) (eQ d 0xD0) (eQ d 0xD8)
        (marksOf true (dMark d 1) (dMark d 2) (dMark d 3)))).orElse s).bump (rtcReg inst 0x40) 1
    else s
  (s.setEntry c.tok b.idx st).unclaim c.tok b.addr

/-- A read error of the apply pass. -/
def State.failApply (s : State) (c : Cmd) (b : BlockRun) (inst st d : Nat) : State :=
  let s := s.noteRead c (srcUnit 5 inst) st d
  ((s.failBlock c b inst st).abandonRest c.tok).tryEndRetouch c.tok

/-- The command's unit a block runs on: its own, or for the next block to start one no other block uses. -/
def State.blockUnit (s : State) (tok : Nat) (w : RtcWork) (b : BlockRun) : Option SUnit :=
  let us := s.sch.units.filter fun u => u.tok == tok && u.kind == 5 && u.held
  if b.started then us.find? fun u => u.entry == b.unit
  else if w.blocks.any fun a => !a.started && a.status.isNone && decide (a.idx < b.idx) then none
  else us.find? fun u => !(w.blocks.any fun a => a.started && a.status.isNone && a.unit == u.entry)

/-- RETOUCH_CHUNK (R316, R317, R319): the next chunk or sub-block of list entry `b`; the last one commits the block. -/
def execRetouchChunk (tok : Nat) (b : Nat) (h : Hazard) (s : State) : Host.Outcome State Fault Refusal :=
  .next (match s.rtcWork tok 0x0400 with
  | none => s
  | some (c, w) =>
    match (w.blocks.find? fun x => x.idx == b).filter fun x => x.status.isNone with
    | none => s
    | some x =>
      match (if w.checked then s.blockUnit tok w x else none), s.program (c.f 0x40 15 0) with
      | some u, some p =>
        let x := { x with started := true, unit := u.entry }
        let s := s.updBlock tok b fun _ => x
        s.meet (some c) (srcUnit 5 u.inst) h (fun s => s.failApply c x u.inst 0x4002 0) fun s =>
          s.after (do
            if dFlag x.desc 16 then
              let s ← s.consumeFrozen c x u.inst
              return s.tryEndRetouch tok
            else
              let k ← s.evalCoef x.desc (c.q 0x48) x
              let x := k.2
              let r ← k.1.runChunk c w p x
              let n := (elemsOf x.desc x.next).length
              let next := if dFlag x.desc 18 then x.next + 1 else x.next + n
              let s := ((r.1.bump64 (rtcReg u.inst 8) n).bump (rtcReg u.inst 0x28) r.2.bad).bump (rtcReg u.inst 0x2C) r.2.sat
              let s := s.updBlock tok b fun y => { y with next := next, wrote := true, coef := x.coef }
              if (if dFlag x.desc 18 then decide (dNb x.desc ≤ next) else decide (dRows x.desc * dCols x.desc ≤ next)) then
                let s ← s.commitBlock c x u.inst
                return s.tryEndRetouch tok
              else return s) fun st d => s.failApply c x u.inst st d
      | _, _ => s)

/-! ## ROOT_REFRESH (R309-R311) -/

/-- The current entry takes its status and the next one is begun. -/
def State.nextEntry (s : State) (tok idx st : Nat) : State :=
  ((s.setEntry tok idx st).updRtc tok fun w => { w with cur := w.cur + 1, stage := .check, x := [], m := [], rejected := false }).tryEndRetouch tok

/-- An error of a refresh's entry (R310). -/
def State.failEntry (s : State) (c : Cmd) (b : BlockRun) (inst st d : Nat) : State :=
  let s := s.noteRead c (srcUnit 5 inst) st d
  (s.unclaim c.tok b.addr).nextEntry c.tok b.idx st

/-- Step 1 of an entry. -/
def State.refreshCheck (s : State) (c : Cmd) (b : BlockRun) : E State := do
  let r ← s.readDesc b.addr
  let d := r.2
  let s := r.1
  if !dFlag d 18 || (c.flag 0 && !dMark d 3) then return s.nextEntry c.tok b.idx 0x0101
  let v ← s.descInvalid none b.addr d
  let s := v.1
  if v.2 then return s.nextEntry c.tok b.idx 0x3003
  else if dMark d 0 then return s.nextEntry c.tok b.idx 0x3004
  else if dFlag d 16 then return s.nextEntry c.tok b.idx 0x3001
  else if c.q 0x60 < 32768 * dNb d then return s.nextEntry c.tok b.idx 0x1001
  else return s.updRtc c.tok fun w => { w with stage := .claimSnap }

/-- Step 2: the factors are copied to the scratch range and the claim is released. -/
def State.refreshSnap (s : State) (c : Cmd) (b : BlockRun) : E State := do
  let r ← s.readDesc b.addr
  let d := r.2
  let s ← foldE (fun (s : State) k => do
    let x ← s.rd (.dva (factorAt d k 0)) 32768
    x.1.wr (.dva (c.q 0x58 + 32768 * k)) x.2) r.1 (List.range (dNb d))
  let s := (s.unclaim c.tok b.addr).updBlock c.tok b.idx fun b => { b with desc := d }
  return s.updRtc c.tok fun w => { w with stage := .compute, snap := eQ d 0xC0, sub := 0, mat := 0, it := 0, x := [], m := [], rejected := false }

/-- ROOT_REFRESH (R310): the command begins; then steps 1 and 2 of its current entry. -/
def execRootRefresh (tok : Nat) (s : State) : Host.Outcome State Fault Refusal :=
  .next (match s.mayBegin tok 0x0401 with
  | some _ => ((s.begin_ tok).updCmd tok fun c => { c with rtc := some { blocks := blocksOf c.items } }).addUnit tok 5 0 []
  | none =>
    match s.rtcWork tok 0x0401, s.rtcInst tok with
    | some (c, w), some i =>
      (match w.blocks[w.cur]? with
       | none => s
       | some b =>
         match w.stage with
         | .check => s.after (s.refreshCheck c b) fun st d => s.failEntry c b i st d
         | .snap => s.after (s.refreshSnap c b) fun st d => s.failEntry c b i st d
         | _ => s)
    | _, _ => s)

/-- The end of one root (R309, R310 step 3): it goes into the buffer ROOT_SEL does not select. -/
def State.endRoot (s : State) (c : Cmd) (w : RtcWork) (b : BlockRun) (inst : Nat) (x m : Mat) : E State := do
  let d := b.desc
  let o := if dMark d 2 then 2 else 4
  let s ← s.writeMat (factorAt d w.sub (o + w.mat)) x
  let rej := w.rejected || !rootOk x m
  let next := 2 * w.sub + w.mat + 1
  if next < 2 * dNb d then
    return s.updRtc c.tok fun w => { w with sub := next / 2, mat := next % 2, it := 0, x := [], m := [], rejected := rej }
  else if rej then return (s.bump (rtcReg inst 0x24) 1).nextEntry c.tok b.idx 0x0102
  else return s.updRtc c.tok fun w => { w with stage := .claimFlip, x := [], m := [] }

/-- NEWTON_ITERATION (R309): one iteration on the current matrix. -/
def execNewtonIteration (tok : Nat) (s : State) : Host.Outcome State Fault Refusal :=
  .next (match s.rtcWork tok 0x0401, s.rtcInst tok with
  | some (c, w), some i =>
    (match w.blocks[w.cur]? with
     | none => s
     | some b =>
       if w.stage ≠ .compute then s
       else
         let p := eF b.desc 0xC 27 24
         s.after (do
           let st ← (if w.x.isEmpty then do
               let f ← s.readMat (c.q 0x58 + 32768 * w.sub + 16384 * w.mat)
               return (f.1, newtonStart p (dec32 (eW b.desc 0x7C)) f.2)
             else return (s, (w.x.map dec32, w.m.map dec32)))
           let xm := newton p st.2.1 st.2.2
           if w.it + 1 < eF b.desc 0xC 23 16 then
             return st.1.updRtc tok fun w => { w with it := w.it + 1, x := xm.1.map enc32, m := xm.2.map enc32 }
           else st.1.endRoot c w b i xm.1 xm.2) fun e d => s.failEntry c b i e d)
  | _, _ => s)

/-- Step 4: the block is checked again and its roots are flipped (R310, R311). -/
def State.refreshFlip (s : State) (c : Cmd) (w : RtcWork) (b : BlockRun) (inst : Nat) : E State := do
  let r ← s.readDesc b.addr
  let d := r.2
  let s := r.1
  let out (s : State) (st : Nat) : State := (s.unclaim c.tok b.addr).nextEntry c.tok b.idx st
  if dMark d 0 then return out s 0x3004
  else if dFlag d 16 then return out s 0x3001
  else
    let n := eQ d 0xC0
    let s ← s.wr (.dva (b.addr + 0xC0)) (descLine n w.snap (eQ d 0xD0) (eQ d 0xD8) (marksOf false true (!dMark d 2) (dueAt d true w.snap n)))
    return out (s.bump64 (rtcReg inst 0x38) (dNb d)) 0

/-- ROOT_FLIP (R310). -/
def execRootFlip (tok : Nat) (s : State) : Host.Outcome State Fault Refusal :=
  .next (match s.rtcWork tok 0x0401, s.rtcInst tok with
  | some (c, w), some i =>
    (match w.blocks[w.cur]? with
     | none => s
     | some b => if w.stage = .flip then s.after (s.refreshFlip c w b i) fun st d => s.failEntry c b i st d else s)
  | _, _ => s)

/-- The instance a block runs on, or ran on before its command was saved (R323). -/
def State.blockInst (s : State) (tok : Nat) (b : BlockRun) : Nat :=
  ((s.sch.units.find? fun u => u.tok == tok && u.kind == 5 && u.entry == b.unit).map (·.inst)).getD 0

/-- An UPDATE is discarded (R432): committed blocks stay; a block in progress of which something is written is TORN, with R319's status; the rest
are abandoned. A ROOT_REFRESH gives up its claims and writes no more entry statuses (DESIGN CHOICE, log entry 86). -/
def State.discardRetouch (s : State) (c : Cmd) (w : RtcWork) : State :=
  if c.op = 0x0401 then s.unclaimAll c.tok
  else
    let s := (w.blocks.filter fun b => b.started && b.status.isNone).foldl (fun s b =>
      s.failBlock c b (s.blockInst c.tok b) (if b.wrote then 0x4002 else 0x3006)) s
    s.abandonRest c.tok

/-- An UPDATE is discarded before it began: every entry is abandoned (R432). -/
def State.discardUnbegun (s : State) (c : Cmd) : State :=
  if c.op = 0x0400 then (List.range c.items.length).foldl (fun s i => s.setEntry c.tok i 0x3006) s else s

end Sys2Proof.Machine
end

