-- ==== Sys2Proof/Machine/Sched.lean ====
section
/-! DEFINITION. The scheduler (13 R415-R435): grants, the latency-critical cap, quanta, pre-emption, and the commands PREEMPT and
RESUME. -/

namespace Sys2Proof.Machine

/-! ## Resources -/

/-- Instances of an engine kind (R415). -/
def kindCount (k : Nat) : Nat := [64, 8, 8, 4, 4, 4, 16, 8, 2, 24].getD k 0

/-- Instances a unit may be granted: any of its kind; for a check-value unit those that serve its copy (15 R485). -/
def SUnit.choices (u : SUnit) : List Nat :=
  if u.kind = 9 then (if u.entry < 4 then [2 * u.entry, 2 * u.entry + 1] else if u.entry = 4 then List.range 8 else [20, 21, 22, 23])
  else List.range (kindCount u.kind)

/-- Units of a kind that hold their resource. -/
def State.holders (s : State) (k : Nat) : List SUnit := s.sch.units.filter fun u => u.kind == k && u.held

/-- Change a scheduler unit. -/
def State.updUnit (s : State) (id : Nat) (f : SUnit → SUnit) : State :=
  { s with sch := { s.sch with units := s.sch.units.map fun v => if v.id = id then f v else v } }

/-- The holders in the way of a tile unit. -/
def State.inTheWay (s : State) (u : SUnit) : List SUnit := (s.holders 0).filter fun v => v.tiles.any u.tiles.contains

/-- The panels whose tiles run the unit's command. -/
def State.panelsOf (s : State) (u : SUnit) : List Nat :=
  ((s.holders 0).filter fun v => v.tok == u.tok).flatMap fun v => v.tiles.map (· / 16)

/-- The free instance a unit takes: the lowest on a panel whose tiles run the same command (R58, R61), else the lowest; 0 for a tile unit
whose tiles are free. -/
def State.freeInst (s : State) (u : SUnit) : Option Nat :=
  if u.kind = 0 then (if (s.inTheWay u).isEmpty then some 0 else none)
  else
    let free := u.choices.filter fun i => !((s.holders u.kind).any fun v => v.inst == i)
    let ps := s.panelsOf u
    (if 1 ≤ u.kind ∧ u.kind ≤ 6 then free.find? fun i => ps.contains (i / (kindCount u.kind / 4)) else none) <|> free.head?

/-- Queue of a unit's command. -/
def State.unitQid (s : State) (u : SUnit) : Nat := match s.cmd u.tok with | some c => c.qid | none => 0

/-- Resource-waiting units of a kind, in the order they became ready, and in increasing queue on a tie (R415, R417). -/
def State.waitingUnits (s : State) (k : Nat) : List SUnit :=
  sortBy (fun a b => decide (a.readySeq < b.readySeq) || (a.readySeq == b.readySeq && decide (s.unitQid a ≤ s.unitQid b))) (s.sch.units.filter fun u => u.kind == k && !u.held && s.mayHold u)

/-- One best-effort unit goes before another: smaller virtual time, then lower client, then first ready (R419). -/
def State.beBefore (s : State) (a b : SUnit) : Bool :=
  let va := s.vt (s.unitClient a) a.kind
  let vb := s.vt (s.unitClient b) b.kind
  decide (va < vb) || (va == vb &&
    (decide (s.unitClient a < s.unitClient b) || (s.unitClient a == s.unitClient b && decide (a.readySeq ≤ b.readySeq))))

/-- Waiting best-effort units of a kind, first to be served first. -/
def State.waitingBe (s : State) (k : Nat) : List SUnit :=
  sortBy (fun a b => s.beBefore a b) ((s.waitingUnits k).filter fun u => s.beUnit u)

/-! ## Pre-emption -/

/-- A command's context is in the save area or on its way there. -/
def Phase.out : Phase → Bool
  | .stopping => true
  | .draining => true
  | .saving => true
  | .saved => true
  | .restoring => true
  | _ => false

/-- The instance whose slot of the save area the unit's context is in, or will be. -/
def SUnit.place (u : SUnit) : Nat := if u.saved then u.slot else u.inst

/-- Two units' contexts use one slot of the save area (R427). -/
def SUnit.meets (a b : SUnit) : Bool :=
  a.kind == b.kind && (if a.kind = 0 then a.tiles.any b.tiles.contains else a.place == b.place)

/-- Units of a command whose context is on a resource or saved from one. -/
def State.ctxUnits (s : State) (tok : Nat) : List SUnit := s.sch.units.filter fun u => u.tok == tok && (u.held || u.saved)

/-- A slot of the save area the command needs holds another command's context (R427). -/
def State.saveTaken (s : State) (tok : Nat) : Bool :=
  s.cmds.any fun d => d.tok != tok && d.phase.out &&
    (s.ctxUnits d.tok).any fun v => (s.ctxUnits tok).any fun u => u.meets v

/-- The command has a pre-emption point still ahead (R422, R431): it runs, is not past its last one, is no FORK whose copies are done, uses no
check-value unit, and is neither a PREEMPT, a RESUME nor a self-test. -/
def State.hasPoint (s : State) (c : Cmd) : Bool :=
  c.phase == .running && !c.pastLast && !(c.fork.isSome && c.pieces.isEmpty) && c.op != 0x0100 && c.op != 0x0600 && c.op != 0x0601 && c.op != 0x0700 && c.op != 0x0701 &&
  !(s.sch.units.any fun u => u.tok == c.tok && u.kind == 9)

/-- The command can be pre-empted and saved. -/
def State.canPreempt (s : State) (tok : Nat) : Bool :=
  match s.cmd tok with
  | some c => s.hasPoint c && !s.saveTaken tok
  | none => false

/-- Pre-empt a command (R423, R429): its units stop at their next points, its waits park, and the waiting time of units not granted
yet ends. -/
def State.preempt (s : State) (tok by_ : Nat) : State :=
  let s := (s.sch.units.filter fun u => u.tok == tok && !u.held).foldl (fun s u => s.waited (s.unitClient u) u.readyAt) s
  s.updCmd tok fun c => { c with phase := .stopping, preBy := by_ + 1 }

/-- Every tile of a command has stopped at a boundary, with no link transfer in progress (R423). -/
def State.quiescent (s : State) (c : Cmd) : Bool :=
  match c.run with
  | none => true
  | some r =>
    match s.runProg r with
    | none => true
    | some p => r.tiles.all fun t =>
        t.ended || t.stopped || (t.mma.isNone && (t.waitObj.isSome ||
          (match p.image.instr t.pc with
           | some i => !({ c := c, r := r, p := p, t := t : OnTile }.stillStarts s i)
           | none => true)))

/-- A command of client `c` is pre-empted or discarded: PREEMPTIONS and the client's account (R435, R437). -/
def State.countPreempt (s : State) (c : Nat) : State := (s.bump64 0x20028 1).accountNow c fun a => { a with preempts := a.preempts + 1 }

/-- QUIESCENT_POINT (R423, R435, R438). -/
def execQuiescentPoint (tok : Nat) (s : State) : Host.Outcome State Fault Refusal :=
  .next (match (s.cmd tok).filter fun c => c.phase == .stopping && c.stop.isNone with
  | none => s
  | some c =>
    if !s.live || !s.quiescent c then s
    else
      (s.countPreempt c.client).updCmd tok fun c => { c with phase := .draining, readyAt := s.itNow, waitedFor := 0 })

/-- A saved command's tiles belong to others: it keeps none. -/
def State.forgetTiles (s : State) (tok : Nat) : State := s.updRun tok fun r => { r with tiles := [] }

/-- A write-back a discarded command made is given up. -/
def State.stopMove (s : State) (g : Nat) : State := s.setGranule g { s.granule g with move := 0 }

/-- A discarded command ends with PREEMPTED (R432): its streams as for a failure before commit, its blocks torn or abandoned, its
fork without children. -/
def State.discardCmd (s : State) (c : Cmd) : State :=
  let s := if c.phase = .saved then s.forgetTiles c.tok else s
  if !c.begun then (s.discardUnbegun c).instant c.tok 0x6001 0
  else if c.run.isSome then s.failRun c.tok 0x6001 0 false
  else
    match c.rtc with
    | some w => ((s.discardRetouch c w).dropUnits c.tok).endCmd c.tok 0x6001 0
    | none =>
      if c.fork.isSome then s.failFork c.tok 0x6001 false
      else
        let s := if c.movesGranules then c.items.foldl (fun s i => s.stopMove (i.headD 0)) s else s
        ((s.dropUnits c.tok).updCmd c.tok fun c => { c with pieces := [], check := none, ck := none }).endCmd c.tok 0x6001 0

/-- A PREEMPT counts one more of its targets saved or discarded. -/
def State.countTarget (s : State) (c : Cmd) : State :=
  if c.preBy = 0 then s
  else s.updCmd (c.preBy - 1) fun d => if d.op = 0x0600 then { d with total := d.total + 1 } else d

/-- DRAIN_END (R424): every remote operation the command issued has completed or timed out; one that timed out while it drained stops the
command. -/
def execDrainEnd (tok : Nat) (s : State) : Host.Outcome State Fault Refusal :=
  .next (match (s.cmd tok).filter fun c => c.phase == .draining && c.remotes == 0 with
  | none => s
  | some c =>
    if !s.live then s
    else
      match c.rfail.filter fun _ => c.drainFail with
      | some (st, d) =>
        let s := s.updCmd tok fun c => { c with rfail := none, drainFail := false }
        if c.run.isSome then s.failRun tok st d false
        else if c.fork.isSome then s.failFork tok st false
        else ((s.dropUnits tok).updCmd tok fun c => { c with pieces := [], check := none, ck := none }).endCmd tok st d
      | none =>
        if c.discard then (s.countTarget c).discardCmd c
        else
          let s := (s.sch.units.filter fun u => u.tok == tok && u.held).foldl (fun s u => s.charge u) s
          s.updCmd tok fun c => { c with phase := .saving })

/-- Palette and shared-memory reservations of a program that command `c` uses: key in a table, length, and whether the table is shared
memory. -/
def State.reservations (s : State) (c : Cmd) : List (Nat × Nat × Bool × Nat) :=
  match c.run with
  | none => []
  | some r =>
    match s.runProg r with
    | none => []
    | some p =>
      let mine (l : Nat) : Bool := r.tiles.any fun t => t.logical == l
      let ls := (List.range p.image.ltiles.length).zip p.image.ltiles
      let gs := (List.range p.image.groups.length).zip p.image.groups
      ((ls.filter fun x => mine x.1).map fun x => (palBytes * p.phys x.1 + p.palStart x.1, x.2.palBytes, false, p.phys x.1)) ++
      ((gs.filter fun x => ls.any fun y => y.2.group == x.1 && mine y.1).map fun x =>
        (shrBytes * p.groupPanel.getD x.1 0 + p.shrBase.getD x.1 0, x.2.sharedBytes, true, p.groupPanel.getD x.1 0))

/-- Key of a saved reservation in `Cmd.savedPal`: palettes below 2^60, shared memory above. -/
def saveKey (shared : Bool) (k : Nat) : Nat := if shared then 2 ^ 60 + k else k

/-- Save the reservations of `c` on the tiles and panels that `d` uses, where both run one program handle and they are not saved yet
(R425). -/
def State.saveReservations (s : State) (c d : Cmd) : State :=
  match c.run, d.run with
  | some r, some q =>
    if r.handle ≠ q.handle then s
    else
      let theirs := s.reservations d
      (s.reservations c).foldl (fun s x =>
        let k := saveKey x.2.2.1 x.1
        let have_ := match s.cmd c.tok with | some c => c.savedPal.any fun e => e.1 == k | none => true
        if have_ || !(theirs.any fun y => y.1 == x.1 && y.2.2.1 == x.2.2.1) then s
        else
          let cs := SMap.slice x.1 x.2.1 x.1 (if x.2.2.1 then s.shr else s.pal)
          s.updCmd c.tok fun c => { c with savedPal := c.savedPal ++ [(k, x.2.1, cs)] }) s
  | _, _ => s

/-- Restore the reservations a command saved (R426). -/
def State.restoreReservations (s : State) (c : Cmd) : State :=
  let s := c.savedPal.foldl (fun s e =>
    if 2 ^ 60 ≤ e.1 then { s with shr := SMap.setAll (fun _ => 0) e.2.2 (SMap.erase (e.1 - 2 ^ 60) e.2.1 s.shr) }
    else { s with pal := SMap.setAll (fun _ => 0) e.2.2 (SMap.erase e.1 e.2.1 s.pal) }) s
  s.updCmd c.tok fun c => { c with savedPal := [] }

/-- Tiles a command's runs need. -/
def Cmd.physTiles (c : Cmd) : List Nat := match c.run with | some r => r.tiles.map (·.phys) | none => []

/-- A command's units give up their resources to the save area and become ready again (R426). -/
def State.saveUnits (s : State) (tok : Nat) : State :=
  (s.sch.units.filter fun u => u.tok == tok).foldl (fun s u =>
    let s := s.updUnit u.id fun v => { v with
      saved := v.saved || v.held, slot := if v.held && !v.saved then v.inst else v.slot, held := false, readySeq := s.sch.nextReady, readyAt := s.itNow }
    { s with sch := { s.sch with nextReady := s.sch.nextReady + 1 } }) s

/-- CONTEXT_SAVE_DONE (R425, R427): the tiles and instances are free; a context that a DISCARD came for is freed, too (R432). -/
def execContextSaveDone (tok : Nat) (s : State) : Host.Outcome State Fault Refusal :=
  .next (match (s.cmd tok).filter fun c => c.phase == .saving with
  | none => s
  | some c =>
    if !s.live then s
    else if c.discard then (s.countTarget c).discardCmd c
    else
      let ts := c.physTiles
      let s := match (if c.preBy = 0 then none else s.cmd (c.preBy - 1)) with
        | some d => s.saveReservations c d
        | none => s
      let lk := ts.foldl (fun m t => SMap.setAll (fun _ => []) (SMap.slice (linkKey t 0) 4 (linkKey t 0) s.links) m) []
      let s := s.updCmd tok fun c => { c with phase := .saved, savedLinks := lk }
      (((s.saveUnits tok).idleTiles ts).clearLinks ts).countTarget c)

/-- A wait is judged again against its object as it stands (R430). -/
def State.judgeAgain (s : State) (w : Option (Nat × Nat)) (met : Bool) : Bool :=
  met || (match w with | some (o, v) => decide (v ≤ (s.obj o).value) | none => false)

/-- The parked waits of a command are judged (R430). -/
def State.unpark (s : State) (c : Cmd) : Cmd :=
  match c.run with
  | none => c
  | some r => { c with run := some { r with
      tiles := r.tiles.map fun t => { t with waitMet := s.judgeAgain t.waitObj t.waitMet }
      entries := r.entries.map fun e => { e with waitMet := s.judgeAgain e.waitOn e.waitMet } } }

/-! ## Grants (R415-R419) -/

/-- Tiles leave burn work (16 R513) and run. -/
def State.occupyTiles (s : State) (ts : List Nat) : State :=
  let s := ts.foldl (fun s t => (s.setTile t { s.tile t with st := .running }).setFld (0x100804 + 0x1000 * t) 1 1 0) s
  s.setFld 0x280000 8 8 (if (List.range 64).any fun t => s.fld (0x100804 + 0x1000 * t) 1 1 == 1 then 1 else 0)

/-- A unit takes its resource: a fresh one's waiting time ends; a saved command whose units are all granted is restored. -/
def State.grant (s : State) (u : SUnit) (inst : Nat) : State :=
  match s.cmd u.tok with
  | none => s
  | some c =>
    match (if u.kind = 0 then s.blockedTile u.tiles else none) with
    | some t =>
      let s := if c.phase = .saved then s.forgetTiles u.tok else s
      s.stopCmd u.tok (srcUnit 0 t) 0x4003 t
    | none =>
      let s := if c.phase = .running then s.waited c.client u.readyAt else s
      let s := if u.kind = 0 then
          ((s.cmds.filter fun d => d.phase == .saved && d.tok != u.tok).foldl (fun s d => s.saveReservations d c) s).occupyTiles u.tiles
        else s
      let s := s.updUnit u.id fun v => { v with held := true, inst := inst, since := s.itNow, asLc := !s.beUnit u }
      if c.phase = .saved && s.sch.units.all (fun v => v.tok != u.tok || v.held) then
        s.updCmd u.tok fun c => { c with phase := .restoring }
      else s

/-- A command of some holders is on its way out already. -/
def State.leaving (s : State) (us : List SUnit) : Bool :=
  us.any fun u => match s.cmd u.tok with | some c => c.phase.out | none => false

/-- A waiting latency-critical unit pre-empts the best-effort holders in its way (R417): every one holding a tile of its set, or
the one with the largest virtual time of an engine kind. -/
def State.lcPreempt (s : State) (u : SUnit) : State :=
  let out (vs : List SUnit) : List SUnit := vs.filter fun v => s.beUnit v && s.canPreempt v.tok
  if u.kind = 0 then ((out (s.inTheWay u)).map (·.tok)).eraseDups.foldl (fun s t => s.preempt t u.tok) s
  else
    let hs := (s.holders u.kind).filter fun v => u.choices.contains v.inst
    if s.leaving hs then s
    else
      match sortBy (fun a b => s.beBefore b a) (out hs) with
      | [] => s
      | v :: _ => s.preempt v.tok u.tok

/-- UNIT_GRANT (R415-R419): the next waiting unit of the kind is granted: the first ready latency-critical one, else the best-effort
one whose client is owed most. -/
def execUnitGrant (kind : Fin 10) (s : State) : Host.Outcome State Fault Refusal :=
  .next (if !s.live then s
  else
    match (s.waitingUnits kind.val).filter fun u => !s.beUnit u with
    | u :: _ =>
      (match s.freeInst u with
       | some i => s.grant u i
       | none => s.lcPreempt u)
    | [] =>
      match (s.waitingBe kind.val).filterMap fun u => (s.freeInst u).map fun i => (u, i) with
      | (u, i) :: _ => s.grant u i
      | [] => s)

/-- Time of the units that hold a kind is charged up to now; saving and restoring are charged to nobody (R419, R435). -/
def State.chargeKind (s : State) (k : Nat) : State :=
  ((s.holders k).filter fun u => match s.cmd u.tok with
    | some c => !(c.phase == .saving || c.phase == .restoring || c.phase == .saved)
    | none => false).foldl (fun s u => s.charge u) s

/-- Capacity of a kind in the window that contains IT, in ns (R415, R418): for tiles by the healthy tiles at the window's start. -/
def State.capacity (s : State) (k : Nat) : Nat :=
  (if k = 0 then (if s.sch.tilesWin = some (s.winOf s.itNow) then s.sch.winTiles else s.healthyTiles) else kindCount k) * s.time.winNs

/-- LC_CAP_REACHED (R418): latency-critical use of the kind has reached its cap for the rest of the window. -/
def execLcCapReached (kind : Fin 10) (it : Nat) (s : State) : Host.Outcome State Fault Refusal :=
  .next (
    let s := (s.advance it).chargeKind kind.val
    let k := kind.val
    if s.lcCap = 100 ∨ s.cappedNow k ∨ SMap.get (fun _ => 0) s.sch.lcUse ((s.winOf s.itNow).toNat % 4 * 16 + k) * 100 < s.lcCap * s.capacity k then s
    else
      let lcs := s.sch.units.filter fun u => u.kind == k && !s.beUnit u
      let before := s.sch.units.filter fun u => u.kind == k && s.beUnit u
      let s := lcs.foldl (fun s u => s.liftVt before (s.unitClient u) k) s
      let w := s.winOf s.itNow
      let old := if s.sch.lcWin = w then s.sch.capped else []
      { s with sch := { s.sch with capped := old ++ [k], lcWin := w, wasCapped := w.toNat % 4 :: s.sch.wasCapped.filter (· != w.toNat % 4) } })

/-- The running best-effort unit of kind `k` that a waiting one of smaller virtual time displaces at a quantum boundary (R421). -/
def State.quantumVictim (s : State) (k : Nat) : Option (SUnit × SUnit) :=
  match s.waitingBe k with
  | [] => none
  | u :: _ =>
    let lim := s.vt (s.unitClient u) k
    (sortBy (fun a b => decide (s.vt (s.unitClient b) k ≤ s.vt (s.unitClient a) k))
      ((s.holders k).filter fun v => s.beUnit v && decide (lim < s.vt (s.unitClient v) k) && s.canPreempt v.tok)).head?.map fun v => (v, u)

/-- What one quantum boundary does: at most one pre-emption of each kind (R421). -/
def State.atQuantum (s : State) : State :=
  (List.range 10).foldl (fun s k =>
    match s.quantumVictim k with
    | some (v, u) => s.preempt v.tok u.tok
    | none => s) s

/-- QUANTUM_BOUNDARY (R419, R421, R466): every boundary IT has passed since the last one acted on takes effect once, in order. A boundary that
pre-empts nothing leaves nothing for the next, so more boundaries than there are units act as that many. -/
def execQuantumBoundary (it : Nat) (s : State) : Host.Outcome State Fault Refusal :=
  .next (
    let s := s.advance it
    let q := max 1 (s.reg 0x20004).toNat
    let passed := it % 2 ^ 64 / q - s.sch.lastQuantum / q
    if !s.live || passed == 0 then s
    else
      let s := { s with sch := { s.sch with lastQuantum := it % 2 ^ 64 } }
      let s := (List.range 10).foldl (fun s k => s.chargeKind k) s
      if s.fld 0x20000 0 0 = 0 then s
      else (List.range (min passed (s.sch.units.length + 1))).foldl (fun s _ => s.atQuantum) s)

/-! ## PREEMPT and RESUME (R431-R434) -/

/-- Dispatched commands of some queues that a PREEMPT acts on or waits for (R431). -/
def State.preTargets (s : State) (qs : List Nat) (discard : Bool) : List Nat :=
  (s.cmds.filter fun d => qs.contains d.qid && !d.phase.held && !d.phase.completed && d.op != 0x0600 && d.op != 0x0601 &&
    (discard || d.phase != .saved)).map (·.tok)

/-- A PREEMPT acts on one target: one that has not begun is saved as it stands, one with a point ahead is pre-empted, one already
stopping is left to be saved or, under DISCARD, discarded; any other runs on to its completion. -/
def State.preTarget (s : State) (me tok : Nat) (discard : Bool) : State :=
  match s.cmd tok with
  | none => s
  | some d =>
    let d := { d with preBy := me + 1, discard := discard }
    if d.phase = .saved then (if discard then ((s.countTarget d).countPreempt d.client).discardCmd d else s)
    else if d.phase = .dispatched then
      let s := (s.countTarget d).countPreempt d.client
      if discard then s.discardCmd d
      else s.updCmd tok fun _ => { d with phase := .saved }
    else if d.phase = .running then
      if s.hasPoint d && (discard || !s.saveTaken tok) then
        (s.preempt tok me).updCmd tok fun c => { c with preBy := me + 1, discard := discard }
      else s
    else if d.phase = .restoring then s.updCmd tok fun _ => { d with preNext := true }
    else if d.phase.out then s.updCmd tok fun _ => d
    else s

/-- CONTEXT_RESTORE_DONE (R426, R430, R435): every unit is granted again and its context is back; parked waits are judged. A PREEMPT that came
meanwhile acts on it now (R431). -/
def execContextRestoreDone (tok : Nat) (s : State) : Host.Outcome State Fault Refusal :=
  .next (match s.cmd tok with
  | none => s
  | some c =>
    let idle := c.phase == .saved && c.begun && !(s.queue c.qid).suspended && !(s.sch.units.any fun u => u.tok == tok)
    if !s.live || !(c.phase == .restoring || idle) then s
    else
      let s := s.restoreReservations c
      let s := { s with links := SMap.setAll (fun _ => []) c.savedLinks s.links }
      let s := (s.sch.units.filter fun u => u.tok == tok).foldl (fun s u =>
        s.updUnit u.id fun v => { v with since := s.itNow, saved := false }) s
      let s := s.waited c.client c.readyAt
      let s := s.updCmd tok fun c => s.unpark { c with phase := .running, preBy := 0, preNext := false, savedLinks := [] }
      if c.preNext then s.preTarget (c.preBy - 1) tok c.discard else s)

/-- The units of a queue's saved commands become ready, together (R415, R419, R433). -/
def State.readyUnits (s : State) (q : Nat) : State :=
  let mine := s.sch.units.filter fun u => !u.held && (match s.cmd u.tok with | some c => c.qid == q && c.phase == .saved && c.begun | none => false)
  let before := s.sch.units.filter fun u => !(mine.any fun v => v.id == u.id)
  let s := mine.foldl (fun s u =>
    let s := if s.beUnit u then s.liftVt before (s.unitClient u) u.kind else s
    s.updUnit u.id fun v => { v with readySeq := s.sch.nextReady }) s
  s

/-- A queue's suspension ends: its saved commands that had not begun are dispatched again. -/
def State.resumeQueue (s : State) (q : Nat) : State :=
  let s := (s.setQueue q { s.queue q with suspended := false }).readyUnits q
  { s with cmds := s.cmds.map fun c =>
      if c.qid = q ∧ (c.phase = .saved ∨ c.phase = .ready) then
        { c with readyAt := s.itNow - c.waitedFor, waitedFor := 0
                 phase := if c.phase = .saved ∧ !c.begun then .dispatched else c.phase }
      else c }

/-- Every target of a PREEMPT has been saved, discarded or completed. -/
def State.preDone (s : State) (c : Cmd) : Bool :=
  c.targets.all fun t =>
    match s.cmd t with
    | none => true
    | some d => d.phase == .saved || d.phase == .ended || d.phase == .signalled || d.phase.completed

/-- PREEMPT with or without DISCARD (R431, R432, R434): the queues are suspended since its dispatch; the first application
acts on their commands, a later one ends it once every target is saved, discarded or completed. -/
def State.preemptRow (s : State) (tok : Nat) (discard : Bool) : State :=
  match (s.mayBegin tok 0x0600).filter fun c => c.flag 0 == discard with
  | some c =>
    if c.f 0x44 7 0 = 0 then s.instant tok 0x0101 0
    else
      let qs := c.maskQueues
      let s := s.begin_ tok
      let ts := s.preTargets qs discard
      let s := ts.foldl (fun s t => s.preTarget tok t discard) s
      s.updCmd tok fun c => { c with targets := ts }
  | none =>
    match (s.running tok).filter fun c => c.op == 0x0600 && c.flag 0 == discard with
    | some c => if s.preDone c then s.endCmd tok 0 c.total else s
    | none => s

/-- PREEMPT. -/
def execPreempt (tok : Nat) (s : State) : Host.Outcome State Fault Refusal := .next (s.preemptRow tok false)
/-- PREEMPT with DISCARD. -/
def execPreemptDiscard (tok : Nat) (s : State) : Host.Outcome State Fault Refusal := .next (s.preemptRow tok true)

/-- RESUME (R433). -/
def execResume (tok : Nat) (s : State) : Host.Outcome State Fault Refusal :=
  .next (match s.mayBegin tok 0x0601 with
  | none => s
  | some c =>
    let qs := c.maskQueues.filter fun q => (s.queue q).suspended
    if qs.isEmpty then s.instant tok 0x0101 0
    else
      let s := qs.foldl (fun s q => s.resumeQueue q) s
      { s with sch := { s.sch with nextReady := s.sch.nextReady + 1 } }.instant tok 0 0)

end Sys2Proof.Machine
end

