-- ==== Sys2Proof/Machine/Power.lean ====
section
/-! DEFINITION. Supply, adaptive loops and the wash (16 R501-R518), and the close of a cadence window (11 R339, 13 R435-R436, 14 R469). -/

namespace Sys2Proof.Machine

/-! ## Clocks -/

/-- Tile clock of the profile in force, in MHz (R474). -/
def State.profileClock (s : State) : Nat := if s.profile = 0 then 1500 else 1800

/-- The panel clock: the lowest of the profile's clock, the thermal limit and the clamp limit (R511). -/
def State.panelClock (s : State) (p : Nat) : Nat :=
  let lim (m : SMap Nat) : Nat := let v := SMap.get (fun _ => 0) m p; if v = 0 then s.profileClock else v
  min s.profileClock (min (lim s.power.thermal) (lim s.power.clamp))

/-- CLOCK_MHZ of every panel shows its clock. -/
def State.showClocks (s : State) : State :=
  (List.range 4).foldl (fun s p => s.setFld (0x280100 + 0x10 * p) 11 0 (s.panelClock p)) s

/-! ## Input supply (R502-R505) -/

/-- A SUPPLY record (R587): input voltage, PWR_WARN_N, event. -/
def State.supplyRecord (s : State) (event : Nat) : State :=
  s.record 0x60 2 (srcHub 6) (leBytes 2 (s.fld 0x280004 15 0) ++ leBytes 1 (s.fld 0x280000 12 12) ++ leBytes 1 event)

/-- VIN_MV follows the input. -/
def State.setVin (s : State) (mv : Nat) : State := s.setFld 0x280004 15 0 (min mv 65535)

/-- Every burning tile stops burning. -/
def State.stopBurn (s : State) : State :=
  ((List.range 64).foldl (fun s t => s.setFld (0x100804 + 0x1000 * t) 1 1 0) s).setFld 0x280000 8 8 0

/-- LOW_INPUT (R502): below 40 V; a dip below 38 V of at most 50 µs counts here too. -/
def execLowInput (mv : Nat) (s : State) : Host.Outcome State Fault Refusal :=
  .next (if !s.ready || decide (40000 ≤ mv) then s
  else
    let s := ((s.setVin mv).setFld 0x280000 11 11 1).stopBurn.bump 0x280040 1
    let w := s.winOf s.itNow
    if s.power.supplyWin = some w then s
    else { s.supplyRecord 0 with power := { s.power with supplyWin := some w } })

/-- LOW_INPUT_END (R502): 40 V or more. -/
def execLowInputEnd (mv : Nat) (s : State) : Host.Outcome State Fault Refusal :=
  .next (if s.ready && decide (40000 ≤ mv) then (s.setVin mv).setFld 0x280000 11 11 0 else s)

/-- Write-backs that have not finished are abandoned: their flash homes keep what they held (R360, R504). -/
def State.abandonWritebacks (s : State) : State :=
  { s with gran := SMap.mapEntries (fun _ => {}) (fun _ x => if x.move = 2 then { x with move := 0 } else x) s.gran }

/-- UNDER_VOLTAGE_TRIP (R502, R504): below 38 V for more than 50 µs. -/
def execUnderVoltageTrip (mv : Nat) (s : State) : Host.Outcome State Fault Refusal :=
  .next (if !s.ready || s.safe || decide (38000 ≤ mv) then s
  else ((((s.setVin mv).setFld 0x280000 11 11 1).supplyRecord 1).enterSafe 3).stopBurn.abandonWritebacks)

/-- OVER_VOLTAGE_TRIP (R502): above 62 V for more than 50 µs. -/
def execOverVoltageTrip (mv : Nat) (s : State) : Host.Outcome State Fault Refusal :=
  .next (if !s.ready || s.safe || decide (mv ≤ 62000) then s else (((s.setVin mv).supplyRecord 2).enterSafe 3).stopBurn)

/-- PWR_WARN_N is asserted and ACTION is CAP (R505). -/
def State.capped (s : State) : Bool := s.fld 0x280000 12 12 == 1 && s.fld 0x280014 17 16 == 1

/-- PWR_WARN_ASSERT (R505). -/
def execPwrWarnAssert (s : State) : Host.Outcome State Fault Refusal :=
  .next (if !s.ready || s.fld 0x280000 12 12 == 1 then s
  else
    let s := ((s.setFld 0x280000 12 12 1).bump 0x280044 1).supplyRecord 3
    match s.fld 0x280014 17 16 with
    | 1 => s.stopBurn
    | 2 => s.stopBurn.enterSafe 3
    | _ => s)

/-- PWR_WARN_CLEAR (R505): deasserted for 1 ms. -/
def execPwrWarnClear (s : State) : Host.Outcome State Fault Refusal :=
  .next (if s.ready then s.setFld 0x280000 12 12 0 else s)

/-! ## Droop, voltage, temperature (R506-R511) -/

/-- DROOP_STRETCH (R506): the tile's clock is stretched. -/
def execDroopStretch (t : Fin 64) (_n : Nat) (s : State) : Host.Outcome State Fault Refusal :=
  .next (
    let o := 0x100804 + 0x1000 * t.val
    if !s.upkeep || s.fld o 0 0 == 1 then s
    else
      let s := (s.setFld o 0 0 1).bump (0x100808 + 0x1000 * t.val) 1
      { s with power := { s.power with droops := SMap.modify (fun _ => 0) t.val (· + 1) s.power.droops } })

/-- STRETCH_END (R506): `n` tile-clock cycles were removed. -/
def execStretchEnd (t : Fin 64) (n : Nat) (s : State) : Host.Outcome State Fault Refusal :=
  .next (
    let o := 0x100804 + 0x1000 * t.val
    if s.upkeep && s.fld o 0 0 == 1 then (s.setFld o 0 0 0).bump64 (0x100810 + 0x1000 * t.val) n else s)

/-- ALLOW_MV of a panel. -/
def State.allow (s : State) (p : Nat) : Nat := s.fld (0x280104 + 0x10 * p) 5 0

/-- The droop allowance after an update interval (R508): up by 5 mV where a tile of the panel counted 16 stretches. -/
def State.droopUpdate (s : State) (p : Nat) : State :=
  let noisy := (List.range 16).any fun i => decide (16 ≤ SMap.get (fun _ => 0) s.power.droops (16 * p + i))
  let s := { s with power := { s.power with
    droops := SMap.erase (16 * p) 16 s.power.droops
    noisy := if noisy then SMap.set (fun _ => false) p true s.power.noisy else s.power.noisy } }
  if noisy then s.setFld (0x280104 + 0x10 * p) 5 0 (min 30 (s.allow p + 5)) else s

/-- The rail target of R507, in steps of 2.5 mV, for a monitor need in microvolts. -/
def State.railWant (s : State) (p need : Nat) : Nat :=
  let guard := if s.profile = 0 then 15 else 20
  (min 850000 (max 600000 (need + 1000 * (guard + s.allow p))) + 2499) / 2500

/-- The move of a rail target: at most 10 mV an update, free at the first (R507). -/
def railMove (old want : Nat) : Nat := if old = 0 then want else if old < want then min want (old + 4) else max want (old - 4)

/-- AVS_UPDATE (R507-R509): `need` is the lowest voltage, in microvolts, at which the panel's slowest monitor meets its clock. -/
def execAvsUpdate (panel : Fin 4) (need : Nat) (s : State) : Host.Outcome State Fault Refusal :=
  .next (if !s.upkeep then s
  else
    let p := panel.val
    let s := s.droopUpdate p
    let v := railMove (SMap.get (fun _ => 0) s.power.target p) (s.railWant p need)
    let s := { s with power := { s.power with target := SMap.set (fun _ => 0) p v s.power.target } }
    let s := s.setFld (0x280100 + 0x10 * p) 25 16 (v * 5 / 2)
    if v = 340 ∧ 850000 < need then
      let old := SMap.get (fun _ => 0) s.power.clamp p
      let s := if old = 0 then s.bump (0x280108 + 0x10 * p) 1 else s
      let c := max 50 ((if old = 0 then s.panelClock p else old) - 50)
      { s with power := { s.power with clamp := SMap.set (fun _ => 0) p c s.power.clamp } }.showClocks
    else s.showClocks)

/-- ALLOW_DECAY (R508): 10 ms have passed; the allowance falls by 1 mV where no tile of the panel reached 16 stretches. -/
def execAllowDecay (panel : Fin 4) (s : State) : Host.Outcome State Fault Refusal :=
  .next (
    let p := panel.val
    if !s.upkeep then s
    else if SMap.get (fun _ => false) s.power.noisy p then { s with power := { s.power with noisy := SMap.set (fun _ => false) p false s.power.noisy } }
    else s.setFld (0x280104 + 0x10 * p) 5 0 (s.allow p - 1))

/-- CLAMP_RECOVER_STEP (R509): the monitors pass at the clamped clock with GUARD to spare. -/
def execClampRecoverStep (panel : Fin 4) (s : State) : Host.Outcome State Fault Refusal :=
  .next (
    let p := panel.val
    let c := SMap.get (fun _ => 0) s.power.clamp p
    if !s.upkeep || c == 0 then s
    else { s with power := { s.power with clamp := SMap.set (fun _ => 0) p (if s.profileClock ≤ c + 50 then 0 else c + 50) s.power.clamp } }.showClocks)

/-- The hottest value given for some keys. -/
def State.hottest (s : State) (lo n : Nat) : Nat := (SMap.slice lo n 0 s.power.temps).foldl (fun m e => max m e.2) 0

/-- A temperature is read: the maxima of R517 follow; every sensor R511 lists is a junction sensor (log entry 87). -/
def State.setTemp (s : State) (k v : Nat) : State :=
  let s := { s with power := { s.power with temps := SMap.set (fun _ => 0) k (min v 255) s.power.temps } }
  (s.setFld 0x280034 7 0 (s.hottest 0 32)).setFld 0x280034 15 8 (s.hottest 16 16)

/-- Where a sensor's value is held: a panel's hottest in its number, the hub die's at 4, a stack's from 16 on. -/
def junctionKey : Junction → Nat
  | .tile t => t.val / 16
  | .ring p => p.val
  | .hub => 4
  | .hbm k => 16 + k.val

/-- The sensor as a THERMAL record names it (R494). -/
def junctionCode : Junction → Nat
  | .tile t => t.val
  | .ring p => 0x100 + p.val
  | .hub => 0x200
  | .hbm k => 0x300 + k.val

/-- A junction at 105 °C or above: a THERMAL record, then safe state (R6, R511). -/
def State.tooHot (s : State) (j : Junction) (temp : Nat) : State :=
  if temp < 105 then s
  else ((s.record 0x61 2 (srcHub 6) (leBytes 2 (junctionCode j) ++ leBytes 1 (min temp 255))).enterSafe 4).stopBurn

/-- THROTTLE and THROTTLE_NS follow the throttled panels (R511). -/
def State.showThrottle (s : State) : State :=
  match s.power.thermal, s.power.throttleAt with
  | [], some t => ({ s with power := { s.power with throttleAt := none } }.bump64 0x280050 (s.itNow - t)).setFld 0x280000 10 10 0
  | _ :: _, none => { s with power := { s.power with throttleAt := some s.itNow } }.setFld 0x280000 10 10 1
  | _, _ => s

/-- THERMAL_THROTTLE_STEP (R511): a sensor of the panel is at T_THROTTLE or above; at 105 °C the module enters safe state, and the record
names the panel's engine ring (log entry 87). -/
def execThermalThrottleStep (panel : Fin 4) (temp : Nat) (s : State) : Host.Outcome State Fault Refusal :=
  .next (
    let p := panel.val
    if !s.upkeep then s
    else
      let s := s.setTemp p temp
      if temp < s.fld 0x280030 23 16 then s
      else
        let old := SMap.get (fun _ => 0) s.power.thermal p
        let c := max 900 ((if old = 0 then s.panelClock p else old) - 100)
        { s with power := { s.power with thermal := SMap.set (fun _ => 0) p c s.power.thermal } }.showThrottle.showClocks.tooHot (.ring panel) temp)

/-- THERMAL_RECOVER_STEP (R511): every sensor of the panel is below T_THROTTLE - HYST. -/
def execThermalRecoverStep (panel : Fin 4) (temp : Nat) (s : State) : Host.Outcome State Fault Refusal :=
  .next (
    let p := panel.val
    let old := SMap.get (fun _ => 0) s.power.thermal p
    if !s.upkeep then s
    else
      let s := s.setTemp p temp
      if old = 0 ∨ s.fld 0x280030 23 16 ≤ temp + s.fld 0x280030 3 0 then s
      else { s with power := { s.power with
        thermal := SMap.set (fun _ => 0) p (if s.profileClock ≤ old + 100 then 0 else old + 100) s.power.thermal } }.showThrottle.showClocks)

/-- HBM_STACK_HOT (R511): the stack's controller takes half its request rate; at 105 °C the module enters safe state. -/
def execHbmStackHot (stack : Fin 12) (temp : Nat) (s : State) : Host.Outcome State Fault Refusal :=
  .next (if !s.upkeep then s
  else
    let s := s.setTemp (16 + stack.val) temp
    if temp < 90 then s
    else { s with power := { s.power with hot := SMap.set (fun _ => false) stack.val true s.power.hot } }.tooHot (.hbm stack) temp)

/-- HBM_STACK_COOL (R511): below 87 °C. -/
def execHbmStackCool (stack : Fin 12) (temp : Nat) (s : State) : Host.Outcome State Fault Refusal :=
  .next (if !s.upkeep then s
  else
    let s := s.setTemp (16 + stack.val) temp
    if 87 ≤ temp then s else { s with power := { s.power with hot := SMap.set (fun _ => false) stack.val false s.power.hot } })

/-- TEMP_C of a tile follows its own sensor (R519). -/
def State.showTemp (s : State) (j : Junction) (temp : Nat) : State :=
  match j with
  | .tile t => s.setFld (0x100804 + 0x1000 * t.val) 15 8 (min temp 255)
  | _ => s

/-- JUNCTION_LIMIT (R6, R511, R519). -/
def execJunctionLimit (sensor : Junction) (temp : Nat) (s : State) : Host.Outcome State Fault Refusal :=
  .next (if !s.upkeep then s else ((s.setTemp (junctionKey sensor) temp).showTemp sensor temp).tooHot sensor temp)

/-! ## The governor and the wash (R512-R515) -/

/-- LIMIT (R505, R514). -/
def State.powerLimit (s : State) : Nat :=
  let l := s.fld 0x280010 11 0
  if s.capped then min l (s.fld 0x280014 11 0) else l

/-- The wash is on. -/
def State.washOn (s : State) : Bool := s.fld 0x280018 0 0 == 1

/-- What the governor holds the input power to (R514). -/
def State.powerBound (s : State) : Nat := if s.washOn then min (s.fld 0x28002C 15 0) s.powerLimit else s.powerLimit

/-- DUTY, PACING and PACED_NS (R514). -/
def State.setDuty (s : State) (d : Nat) : State :=
  let s := (s.setFld 0x280000 6 0 d).setFld 0x280000 9 9 (if d < 64 then 1 else 0)
  match s.power.pacedAt with
  | none => if d < 64 then { s with power := { s.power with pacedAt := some s.itNow } } else s
  | some t => if d < 64 then s else { s with power := { s.power with pacedAt := none } }.bump64 0x280058 (s.itNow - t)

/-- A tile burns now. -/
def State.burning (s : State) : Bool := s.fld 0x280000 8 8 == 1

/-- GOVERNOR_ADJUST (R514): the input power over the last 10 µs is `watts`; burn stops before d falls. What burn work spent meanwhile
is a measured energy, left free (log entry 39). -/
def execGovernorAdjust (watts : Nat) (s : State) : Host.Outcome State Fault Refusal :=
  .next (if !s.upkeep then s
  else
    let s := if s.burning then { s.bump64 0x280060 ((Config.freeWord s.freeCtr).toNat % 65536) with freeCtr := s.freeCtr + 1 } else s
    let s := s.setFld 0x280008 15 0 (min watts 65535)
    let s := { s with power := { s.power with pinSum := s.power.pinSum + watts, pinCnt := s.power.pinCnt + 1 } }
    let s := if s.power.wStart then { s.setFld 0x28002C 15 0 (min watts 65535) with power := { s.power with wStart := false } } else s
    let d := s.fld 0x280000 6 0
    let b := s.powerBound
    if b < watts then (if s.burning then s.stopBurn else s.setDuty (max 16 (d - 1)))
    else if watts < b then s.setDuty (min 64 (d + 1))
    else s)

/-- The floor of R512: 0 until a window that opened after ENABLE rose has closed, and while PWR_WARN suspends it. -/
def State.washFloor (s : State) : Nat :=
  if s.capped || decide (s.openWin ≤ s.power.washFrom + 1) then 0 else s.fld 0x280020 6 0 * s.fld 0x28000C 15 0 / 100

/-- W after a tick (R512). -/
def washLevel (limit w step d floor : Nat) : Nat := min limit (min (w + step) (max d (max floor (w - step))))

/-- Tiles that may burn (R513, R515): no granted unit, and not stopped in this window. -/
def State.mayBurn (s : State) (t : Nat) : Bool :=
  (s.tile t).st == .idle && !((s.holders 0).any fun u => u.tiles.contains t) &&
  !(s.power.burnWin == s.winOf s.itNow && SMap.get (fun _ => 0) s.power.burnBad t != 0)

/-- Tiles whose burn work, about 25 W each, brings a demand up to a level (R513). -/
def burnTiles (level d : Nat) : Nat := (level - d + 24) / 25

/-- Burn work for a level W and a demand D (R513), the lowest idle tiles first; FLOOR_SHORT counts a floor they cannot meet. -/
def State.setBurn (s : State) (w floor d : Nat) : State :=
  let s := s.stopBurn
  let off := s.capped || s.fld 0x280000 11 11 == 1 || decide (s.fld 0x280000 6 0 < 64)
  let can := (List.range 64).filter s.mayBurn
  let n := burnTiles w d
  let s := if can.length < burnTiles (min w floor) d then s.bump 0x280048 1 else s
  if off ∨ n = 0 then s
  else ((can.take n).foldl (fun s t => s.setFld (0x100804 + 0x1000 * t) 1 1 1) s).setFld 0x280000 8 8 (if can.isEmpty then 0 else 1)

/-- What one wash tick does with a demand D (R512, R513). -/
def State.atWashTick (s : State) (demand : Nat) : State :=
  let step := s.fld 0x28001C 15 0 * max 1 (s.reg 0x280024).toNat / 1000000
  let w := washLevel s.powerLimit (if s.power.wStart then demand else s.fld 0x28002C 15 0) step demand s.washFloor
  ({ s.setFld 0x28002C 15 0 (min w 65535) with power := { s.power with wStart := false } }).setBurn w s.washFloor demand

/-- Wash ticks at or before an IT (R512). -/
def State.ticksTo (s : State) (it : Nat) : Nat :=
  let off := (s.reg 0x280028).toNat
  if it < off then 0 else (it - off) / max 1 (s.reg 0x280024).toNat + 1

/-- WASH_TICK (R466, R512, R513): every tick IT has passed since the last one acted on takes effect once; `demand` is D. -/
def execWashTick (it : Nat) (demand : Nat) (s : State) : Host.Outcome State Fault Refusal :=
  .next (
    let s := s.advance it
    let at_ := it % 2 ^ 64
    let passed := match s.power.lastTick with
      | some l => s.ticksTo at_ - s.ticksTo l
      | none => min 1 (s.ticksTo at_)
    if !s.upkeep || !s.washOn || passed == 0 then s
    else Nat.repeat (fun s => s.atWashTick demand) passed { s with power := { s.power with lastTick := some at_ } })

/-- ENABLE rises: W starts at the measured input power, the floor waits for the next window, and only later ticks act (R512). -/
def State.washStarts (s : State) : State :=
  { s.setFld 0x28002C 15 0 (s.fld 0x280008 15 0) with power := { s.power with washFrom := s.winOf s.itNow, lastTick := some (max s.itNow (s.power.lastTick.getD 0)) } }

/-- The physical columns of a mismatch event whose row names none (R114, R116): at least one, each serving a logical column. Which is a free
value (log entry 102). -/
def State.freeCols (s : State) (t : Nat) : State × List Nat :=
  let live := (List.range 264).filter fun p => ((s.tile t).serves p).isSome
  let one := live[(Config.freeWord s.freeCtr).toNat % live.length]?
  ({ s with freeCtr := s.freeCtr + 265 },
    live.filter fun p => some p == one || (Config.freeWord (s.freeCtr + 1 + p)).toNat % 2 == 1)

/-- BURN_MISMATCH (R116, R121, R515): counted, its columns suspected, and recorded; burn stops on the tile until the window's end, and a second
one within it quarantines the tile. -/
def execBurnMismatch (t : Fin 64) (s : State) : Host.Outcome State Fault Refusal :=
  .next (
    let o := 0x100804 + 0x1000 * t.val
    if !s.upkeep || s.profile != 2 || s.fld o 1 1 == 0 then s
    else
      let w := s.winOf s.itNow
      let bad := if s.power.burnWin = w then s.power.burnBad else []
      let n := SMap.get (fun _ => 0) bad t.val + 1
      let r := s.freeCols t.val
      let s := (((r.1.bump (0x100100 + 0x1000 * t.val) 1).suspects t.val r.2).residueRecord t.val 3 r.2).setFld o 1 1 0
      let s := s.setFld 0x280000 8 8 (if (List.range 64).any fun u => s.fld (0x100804 + 0x1000 * u) 1 1 == 1 then 1 else 0)
      let s := { s with power := { s.power with burnWin := w, burnBad := SMap.set (fun _ => 0) t.val n bad } }
      if n < 2 then s else s.setTile t.val { s.tile t.val with st := .quarantined })

/-! ## The end of a cadence window (R339, R436, R469) -/

/-- An accounting record of 128 bytes (R436). -/
def acctRecord (s : State) (n : Int) (c : Nat) (a : Acct) : List Byte :=
  let capped := if s.sch.wasCapped.contains (n.toNat % 4) then 256 else 0
  padTo 128 (leBytes 8 (s.winEnd (n - 1)).toNat ++ leBytes 8 (s.winEnd n).toNat ++ leBytes 4 (c + capped) ++ leBytes 4 (min a.preempts (2 ^ 32 - 1)) ++
    leBytes 8 a.waitSum ++ leBytes 8 a.waitMax ++ leBytes 4 a.dispatched ++ leBytes 4 a.late ++
    ((List.range 10).flatMap fun k => leBytes 8 (a.engine.getD k 0)))

/-- Write one client's record into the ring. -/
def State.writeAcct (s : State) (n : Int) (c : Nat) : State :=
  let a := SMap.get (fun _ => {}) s.sch.acct (n.toNat % 4 * 64 + c)
  if !a.active then s
  else
    let w := s.reg64 0x20020
    let l := (locH (s.reg64 0x20010)).plus (128 * (w % 2 ^ s.fld 0x20018 4 0))
    ((s.storeBytes l (acctRecord s n c a)).orElse s).bump64 0x20020 1

/-- CADENCE_WINDOW_CLOSE (R339, R418, R435, R436, R466, R469): the lowest open window closes once IT reaches its end and the guard. -/
def execCadenceWindowClose (it : Nat) (s : State) : Host.Outcome State Fault Refusal :=
  .next (
    let s := s.advance it
    let n := s.openWin
    if !s.live || decide ((s.itNow : Int) < s.winEnd n + ((s.reg 0x220028).toNat : Int)) then s
    else
      let s := (List.range 10).foldl (fun s k => s.chargeKind k) s
      let avg := if s.power.pinCnt = 0 then s.fld 0x280008 15 0 else s.power.pinSum / s.power.pinCnt
      let s := s.setFld 0x28000C 15 0 (min avg 65535)
      let s := if s.fld 0x20018 31 31 = 1 then (List.range 64).foldl (fun s c => s.writeAcct n c) s else s
      let i := n.toNat % 4
      let s := { s with
        time := { s.time with closedTo := some (n + 1) }
        sch := { s.sch with acct := SMap.erase (i * 64) 64 s.sch.acct, lcUse := SMap.erase (i * 16) 16 s.sch.lcUse
                            wasCapped := s.sch.wasCapped.filter (· != i) }
        gran := SMap.mapEntries (fun _ => {}) (fun _ x => { x with access := x.access / 2 }) s.gran
        power := { s.power with pinSum := 0, pinCnt := 0 } }
      s.cmds.foldl (fun s c => s.clientActive c.client) s)

end Sys2Proof.Machine
end

