-- ==== Sys2Proof/Machine/Depend.lean ====
section
/-! DEFINITION. CHECKPOINT and RESTORE (15 R487-R492), the switch of profiles (R474-R477) and the sketchbook's drain (R495). -/

namespace Sys2Proof.Machine

/-! ## The stream table entry (01 R20) -/

/-- LIVE_CHILDREN of a stream. -/
def State.liveChildren (s : State) (i : Nat) : Nat := (s.streams.filter fun e => e.2.hasParent && e.2.parent == i).length

/-- The code of a stream state (R19). -/
def StreamSt.code : StreamSt → Nat
  | .free => 0
  | .ready => 1
  | .ingesting => 2
  | .stepping => 3
  | .forking => 4
  | .parked => 5
  | .closing => 6

/-- The 256 bits of a summary entry. -/
def State.streamEntry (s : State) (i : Nat) : Nat :=
  let x := s.strm i
  x.pos % 2 ^ 64 + x.forkPos % 2 ^ 64 * 2 ^ 64 + x.st.code * 2 ^ 128 + x.commitSeq % 256 * 2 ^ 132 + x.parkReason % 16 * 2 ^ 140 +
    x.bucket % 16 * 2 ^ 144 + x.scene % 32 * 2 ^ 148 + (if x.hasParent then 2 ^ 153 else 0) + x.parent % 16384 * 2 ^ 154 +
    x.rootPage % 2 ^ 24 * 2 ^ 168 + s.liveChildren i % 16384 * 2 ^ 192 + x.pagesOwn % 2 ^ 24 * 2 ^ 208 + x.quota % 2 ^ 24 * 2 ^ 232

/-! ## CHECKPOINT -/

/-- Where an image's sections start and end (R489): header, RECORDS, PAGE_INDEX, DIRS, STATES, PAGES, SCALES, end. -/
def imageOffsets (c : PoolCfg) (sBytes streams pages : Nat) : List Nat :=
  let up (n : Nat) : Nat := roundUp n 4096
  let a := 4096
  let b := a + up (64 * streams)
  let d := b + up (8 * pages)
  let e := d + up (streams * 2 ^ c.dirLog2)
  let f := e + up (streams * sBytes)
  let g := f + up (pages * c.pageSize)
  [a, b, d, e, f, g, g + up (pages * c.slotSize)]

/-- IMAGE_BYTES. -/
def imageSize (c : PoolCfg) (sBytes streams pages : Nat) : Nat := (imageOffsets c sBytes streams pages).getD 6 0

/-- Pages a directory lists, read as data: each once, in slot order. -/
def State.listedPages (s : State) (strm : Nat) : E (State × List Nat) := do
  let r ← s.dirPages strm
  return (r.1, (r.2.map (·.2)).eraseDups)

/-- Pages of several streams, each once, in capture order. -/
def State.allPages (s : State) (ss : List Nat) : E (State × List Nat) :=
  foldE (fun (a : State × List Nat) i => do
    let r ← a.1.listedPages i
    return (r.1, (a.2 ++ r.2).eraseDups)) (s, []) ss

/-- A list names a stream twice. -/
def repeats : List Nat → Bool
  | [] => false
  | x :: xs => xs.contains x || repeats xs

/-- Streams of a scene that are not FREE, in increasing identifier order. -/
def State.sceneStreams (s : State) (sc : Nat) : List Nat := (s.streams.filter fun e => e.2.st != .free && e.2.scene == sc).map (·.1)

/-- A capture has to wait for a stream (R24, R488): it is busy, or an earlier command that has not begun names it. -/
def State.captureWaits (s : State) (c : Cmd) (i : Nat) : Bool :=
  (s.strm i).st.busy || s.claimed i || s.unbegun.any fun d => decide (d.order < c.order) && d.streamsNamed.contains i

/-- Change a CHECKPOINT's work. -/
def State.updCk (s : State) (tok : Nat) (f : CkWork → CkWork) : State := s.updCmd tok fun c => { c with ck := c.ck.map f }

/-- A CHECKPOINT ends: CHECKPOINTS counts the good ones. -/
def State.endCk (s : State) (tok st detail : Nat) : State :=
  ((if st = 0 then s.bump 0x260044 1 else s).updCmd tok fun c => { c with ck := none }).endCmd tok st detail

/-- Capture one page (R488): its table entry and the bytes its layer uses of it and of its scale slot; the rest is never read (R217). -/
def State.capturePage (s : State) (a : Option AttE) (g : Nat) : E (State × CkPage × SMap Byte × SMap Byte) := do
  let e ← s.page g
  let d ← e.1.rdCells true (.dva (s.pool.pageLoc g).1) (match a with | some a => a.pageBytes | none => 0)
  let c ← d.1.rdCells true (.dva (s.pool.pageLoc g).2) (match a with | some a => a.scaleBytes | none => 0)
  return (c.1, { page := g, owned := e.2.owned, owner := e.2.owner }, d.2, c.2)

/-- Capture one stream (R488): its summary entry, directory and committed glaze half, and each page no earlier stream listed. -/
def State.capture (s : State) (c : Cmd) (w : CkWork) (sc : Scene) (p : Program) (i : Nat) : E State := do
  let x := s.strm i
  let entry := s.streamEntry i
  let dir ← s.poolCells (s.pool.dir i) (2 ^ s.pool.dirLog2)
  let n := p.image.sBytes
  let half ← dir.1.rdCells true (.dva (stateLoc sc p x.stateSlot x.half)) n
  let l ← half.1.dirPages i
  let ls := p.layers sc.f
  let r ← foldE (fun (a : State × List CkPage × List (SMap Byte × SMap Byte)) (e : Nat × Nat) => do
    if a.2.1.any fun y => y.page == e.2 then return a
    let x ← a.1.capturePage ((layerOfSlot ls e.1).map (·.a)) e.2
    return (x.1, a.2.1 ++ [x.2.1], a.2.2 ++ [x.2.2])) (l.1, w.pages, w.data) l.2
  let cap : CkStream := { stream := i, summary := leBytes 32 entry, dir := dir.2, state := half.2 }
  return r.1.updCk c.tok fun w =>
    { w with todo := w.todo.tail, caps := w.caps ++ [cap], pages := r.2.1, data := r.2.2, lastIt := s.itNow }

/-- Cells of a section at an offset. -/
def cellsAt (o : Nat) (cs : SMap Byte) : List (Nat × Byte) := cs.map fun e => (o + e.1, e.2)

/-- The image as captured (R489), as cells from its start. -/
def ckImage (s : State) (c : Cmd) (w : CkWork) (sc : Scene) (p : Program) : SMap Byte :=
  let cfg := s.pool
  let n := w.caps.length
  let m := w.pages.length
  let sb := p.image.sBytes
  let os := imageOffsets cfg sb n m
  let at_ (k : Nat) : Nat := os.getD k 0
  let idx := sortBy (fun a b => decide (a.1.page ≤ b.1.page)) (w.pages.zip w.data)
  let num {α : Type} (xs : List α) : List (Nat × α) := (List.range xs.length).zip xs
  let header := leBytes 4 0x54504B43 ++ leBytes 2 1 ++ leBytes 2 0 ++ leBytes 8 (at_ 6) ++ leBytes 8 (c.q 0x70) ++ leBytes 8 w.lastIt ++
    leBytes 2 s.moduleId ++ leBytes 1 (c.f 0x40 4 0) ++ leBytes 1 cfg.pageLog2 ++ leBytes 1 cfg.dirLog2 ++ leBytes 1 (if cfg.scale16 then 1 else 0) ++
    leBytes 1 (p.flags % 4 / 2 * 2) ++ leBytes 1 0 ++ leBytes 2 sc.rows ++ leBytes 2 sc.cols ++ leBytes 4 n ++ leBytes 4 m ++ leBytes 4 p.crc ++
    leBytes 8 sb ++ ((os.take 6).flatMap fun o => leBytes 8 o)
  let es : List (Nat × Byte) := cellsAt 0 (cellsOf header) ++
    ((num w.caps).flatMap fun x => cellsAt (at_ 0 + 64 * x.1) (cellsOf x.2.summary)) ++
    ((num idx).flatMap fun x => cellsAt (at_ 1 + 8 * x.1)
      (cellsOf (leBytes 8 (x.2.1.page + (if x.2.1.owned then 2 ^ 30 else 0) + 2 ^ 32 * (x.2.1.owner % 16384))))) ++
    ((num w.caps).flatMap fun x => cellsAt (at_ 2 + 2 ^ cfg.dirLog2 * x.1) x.2.dir) ++
    ((num w.caps).flatMap fun x => cellsAt (at_ 3 + sb * x.1) x.2.state) ++
    ((num idx).flatMap fun x => cellsAt (at_ 4 + cfg.pageSize * x.1) x.2.2.1) ++
    ((num idx).flatMap fun x => cellsAt (at_ 5 + cfg.slotSize * x.1) x.2.2.2)
  let body := SMap.setAll (fun _ => 0) es []
  SMap.setAll (fun _ => 0) (cellsAt 0xF8 (cellsOf (leBytes 8 (crc64 (bytesOf (at_ 6) body))))) body

/-- After the last capture: the image is written, its header last, IMAGE_BYTES goes to RESULT_ADDR, and the buddy's transactions and
the flush begin (R490). -/
def State.writeImage (s : State) (c : Cmd) (w : CkWork) (sc : Scene) (p : Program) : E State := do
  let n := imageSize s.pool p.image.sBytes w.caps.length w.pages.length
  let s ← (s.hubCheck n false).wrCells (.dva (c.q 0x50)) n (ckImage s c w sc p)
  let s ← s.wr (locH (c.q 0x78)) (leBytes 8 n)
  let s := s.updCk c.tok fun w => { w with bytes := n, written := true, send := if c.flag 0 then [(4096, n - 4096)] else []
                                           header := if c.flag 0 then [(0, 4096)] else [] }
  return s.updCmd c.tok fun c => { c with targets := if c.flag 1 then (List.range ((n + gBytes - 1) / gBytes)).map (· + c.q 0x50 / gBytes) else [] }

/-- Send part of the local image to the buddy (R449, R490). -/
def State.sendImage (s : State) (c : Cmd) (o n : Nat) : E State := do
  let m := c.f 0x68 15 0
  let r ← s.rd (.dva (c.q 0x50 + o)) n
  return r.1.sendWrites c m (c.q 0x60 + o) (0x40000 + m) r.2

/-- One more step of a running CHECKPOINT. -/
def State.stepCk (s : State) (c : Cmd) (w : CkWork) : State :=
  let fail (s : State) (st d : Nat) : State :=
    s.endCk c.tok st (if st = 0x4002 then d else 0)
  match s.scene (c.f 0x40 4 0) with
  | none => s.endCk c.tok 0x2007 0
  | some sc =>
    match s.sceneProg sc with
    | none => s
    | some p =>
      match w.todo with
      | i :: _ =>
        if s.captureWaits c i then s
        else
          s.after (do
            let s ← s.capture c w sc p i
            match (s.cmd c.tok).bind (·.ck) with
            | none => return s
            | some w' =>
              if c.q 0x58 < imageSize s.pool p.image.sBytes (w'.caps.length + w'.todo.length) w'.pages.length then throw (.err 0x1001 0)
              else return s) fun st d => fail s st d
      | [] =>
        if !w.written then s.after ((s.writeImage c w sc p).bind fun s => .ok (s.startFlush c.tok 1)) fun st d => fail s st d
        else
          match w.send, w.header with
          | (o, n) :: rest, _ => s.after ((s.sendImage c o n).bind fun s => .ok (s.updCk c.tok fun w => { w with send := rest })) fun st d => fail s st d
          | [], (o, n) :: rest =>
            if c.remotes ≠ 0 then s
            else if c.rfail.isSome then s.updCk c.tok fun w => { w with header := [] }
            else s.after ((s.sendImage c o n).bind fun s => .ok (s.updCk c.tok fun w => { w with header := rest })) fun st d => fail s st d
          | [], [] =>
            if c.remotes ≠ 0 then s
            else if c.targets.isEmpty then (match c.rfail with
              | some (st, d) => (s.updCmd c.tok fun c => { c with rfail := none }).endCk c.tok st d
              | none => s.endCk c.tok c.status c.detail)
            else s.startFlush c.tok 1

/-- CHECKPOINT (R487-R490): the first application checks the command and clears the image's header; each later one captures the next
stream, or goes on with the buddy and the flush. -/
def execCheckpoint (tok : Nat) (s : State) : Host.Outcome State Fault Refusal :=
  .next (match s.mayBegin tok 0x0800 with
  | some c =>
    let i := c.f 0x40 4 0
    (match s.scene i with
     | none => s.instant tok 0x2007 0
     | some sc =>
       match s.sceneProg sc with
       | none => s.instant tok 0x2007 0
       | some p =>
         let ss := if c.f 0x44 14 0 = 0 then s.sceneStreams i else c.targets
         if repeats ss || ss.any (fun j => (s.strm j).st == .free || (s.strm j).scene != i || decide (16384 ≤ j)) then s.instant tok 0x2005 0
         else if c.q 0x50 % mib2 ≠ 0 then s.instant tok 0x1001 0
         else
           s.after (do
             let r ← s.allPages ss
             let s := r.1
             let ps := r.2
             if c.q 0x58 < imageSize s.pool p.image.sBytes ss.length ps.length then return s.instant tok 0x1001 0
             let s ← (s.begin_ tok).wr (.dva (c.q 0x50)) (List.replicate 64 0)
             return s.updCmd tok fun c => { c with targets := [], ck := some { todo := ss } }) fun st d => s.instant tok st d)
  | none =>
    match (s.running tok).filter fun c => c.phase == .running with
    | some c => (match c.ck with | some w => s.stepCk c w | none => s)
    | none => s)

/-! ## RESTORE (R491, R492) -/

/-- An image as RESTORE reads it: its cells and a reader of little-endian numbers. -/
def imgU (cs : SMap Byte) (o n : Nat) : Nat := cU cs o n

/-- The stream identifiers of an image: each summary's ROOT_PAGE names its stream's directory (R208). -/
def imgStreams (cs : SMap Byte) : List Nat :=
  (List.range (imgU cs 0x2C 4)).map fun i =>
    let e := imgU cs (imgU cs 0x40 8 + 64 * i) 32
    (bits e 191 168 + 2 ^ 24 - 0xFF0000) % 2 ^ 24 % 16384

/-- Page index entry `j`: identifier, OWNED, OWNER. -/
def imgPage (cs : SMap Byte) (j : Nat) : CkPage :=
  let v := imgU cs (imgU cs 0x48 8 + 8 * j) 8
  { page := bits v 23 0, owned := bits v 30 30 == 1, owner := bits v 45 32 }

/-- Slots of the `i`-th directory of an image. -/
def imgSlots (c : PoolCfg) (cs : SMap Byte) (i : Nat) : List Nat :=
  (List.range c.slots).map fun k => bits (imgU cs (imgU cs 0x50 8 + 2 ^ c.dirLog2 * i + 0x440 + 4 * k) 4) 23 0

/-- The checks of R491 after the image has been read, in order: a status and DETAIL, or none. -/
def State.restoreBad (s : State) (c : Cmd) (cs : SMap Byte) : Option (Nat × Nat) :=
  match s.scene (c.f 0x40 4 0) with
  | none => some (0x2007, 0)
  | some sc =>
    match s.sceneProg sc with
    | none => some (0x2007, 0)
    | some p =>
      let cfg := s.pool
      let ids := imgStreams cs
      if imgU cs 0x28 2 ≠ sc.rows ∨ imgU cs 0x2A 2 ≠ sc.cols ∨ imgU cs 0x34 4 ≠ p.crc ∨ imgU cs 0x26 1 ≠ p.flags % 4 / 2 * 2 ∨
          imgU cs 0x38 8 ≠ p.image.sBytes ∨ imgU cs 0x23 1 ≠ cfg.pageLog2 ∨ imgU cs 0x24 1 ≠ cfg.dirLog2 ∨
          imgU cs 0x25 1 ≠ (if cfg.scale16 then 1 else 0) ∨ !s.poolActive then some (0x1003, 0x15)
      else if ids.any fun i => !s.idFree i then some (0x2005, 0)
      else if sc.maxStreams < (s.sceneStreams (c.f 0x40 4 0)).length + ids.length then some (0x2004, 0)
      else if s.poolFree < imgU cs 0x30 4 then some (0x2001, 0)
      else none

/-- Take and fill the pages of an image: each new page beside its old identifier. -/
def State.restorePages (s : State) (cs : SMap Byte) (ids : List Nat) (lists : List (List Nat)) : E (State × List (Nat × Nat)) :=
  let cfg := s.pool
  foldE (fun (a : State × List (Nat × Nat)) j => do
    let e := imgPage cs j
    let t ← a.1.takePage e.owner
    let n := (lists.filter fun l => l.contains e.page).length
    let s ← t.1.setPage t.2 { st := 2, owned := e.owned && ids.contains e.owner, owner := e.owner, count := n }
    let cut (o len : Nat) : SMap Byte := SMap.slice o len 0 cs
    let s ← s.wrCells (.dva (cfg.data + t.2 * cfg.pageSize)) cfg.pageSize (cut (imgU cs 0x60 8 + cfg.pageSize * j) cfg.pageSize)
    let s ← s.wrCells (.dva (cfg.scales + t.2 * cfg.slotSize)) cfg.slotSize (cut (imgU cs 0x68 8 + cfg.slotSize * j) cfg.slotSize)
    return (s, a.2 ++ [(e.page, t.2)])) (s, []) (List.range (imgU cs 0x30 4))

/-- One restored stream: its directory with new page identifiers, its glaze state in half 0 of a new slot, its entry PARKED (R492). -/
def State.restoreStream (s : State) (sci : Nat) (sc : Scene) (p : Program) (cs : SMap Byte) (ids : List Nat) (map : List (Nat × Nat))
    (own : Nat) (i : Nat) : E State := do
  let cfg := s.pool
  let id := ids.getD i 0
  let e := imgU cs (imgU cs 0x40 8 + 64 * i) 32
  let slot := (s.freeSlots sci 1).headD 0
  let new (v : Nat) : Nat := if v = nullPage then v else ((map.find? fun m => m.1 == v).map (·.2)).getD nullPage
  let head := SMap.slice (imgU cs 0x50 8 + 2 ^ cfg.dirLog2 * i) 0x440 0 cs
  let slots := (imgSlots cfg cs i).map new
  let dir := SMap.setAll (fun _ => 0) (((List.range slots.length).zip slots).flatMap fun x => cellsAt (0x440 + 4 * x.1) (cellsOf (leBytes 4 x.2))) head
  let s ← (s.store (.dva (cfg.dir id)) (2 ^ cfg.dirLog2) dir).poolE
  let n := p.image.sBytes
  let s ← (if n = 0 then .ok s else
    s.wrCells (.dva (stateLoc sc p slot 0)) n (SMap.slice (imgU cs 0x58 8 + n * i) n 0 cs))
  let par := bits e 167 154
  let hasPar := bits e 153 153 == 1 && ids.contains par
  return s.updStrm id fun x =>
    { x with st := .parked, parkReason := 1, quota := bits e 255 232, pagesOwn := own, rootPage := rootOf id
             parent := if hasPar then par else 0, hasParent := hasPar, scene := sci, bucket := bits e 147 144
             forkPos := bits e 127 64, pos := bits e 63 0, half := 0, stateSlot := slot }

/-- Restore a checked image (R492). -/
def State.restore (s : State) (c : Cmd) (cs : SMap Byte) : E State :=
  let sci := c.f 0x40 4 0
  match (s.scene sci).bind fun sc => (s.sceneProg sc).map fun p => (sc, p) with
  | none => .ok s
  | some (sc, p) => do
    let ids := imgStreams cs
    let lists := (List.range ids.length).map fun i => imgSlots s.pool cs i
    let own (id : Nat) : Nat := ((List.range (imgU cs 0x30 4)).filter fun j => (imgPage cs j).owned && (imgPage cs j).owner == id).length
    let r ← s.restorePages cs ids lists
    foldE (fun (s : State) i => s.restoreStream sci sc p cs ids r.2 (own (ids.getD i 0)) i) r.1 (List.range ids.length)

/-- Read the image a RESTORE names, with the checks of R491 steps 1 to 3: its cells, or a status and DETAIL. -/
def State.readImage (s : State) (c : Cmd) : E (State × Except (Nat × Nat) (SMap Byte)) := do
  let src := c.q 0x48
  let h ← s.rd (.dva src) 0x100
  let n := leNat ((h.2.drop 8).take 8)
  if leNat (h.2.take 4) ≠ 0x54504B43 ∨ leNat ((h.2.drop 4).take 2) ≠ 1 ∨ c.q 0x50 < n then return (h.1, .error (0x1003, 0x15))
  let r ← h.1.rdCells true (.dva src) n
  let zero := SMap.erase 0xF8 8 r.2
  let s := r.1.hubCheck n false
  if crc64 (bytesOf n zero) ≠ imgU r.2 0xF8 8 then return (s, .error (0x7001, 0))
  return (s, .ok r.2)

/-- RESTORE (R491, R492). -/
def execRestore (tok : Nat) (s : State) : Host.Outcome State Fault Refusal :=
  .next (match s.mayBegin tok 0x0801 with
  | none => s
  | some c =>
    s.after (do
      let r ← s.readImage c
      match r.2 with
      | .error (st, d) => return r.1.instant tok st d
      | .ok cs =>
        if c.flag 0 then return r.1.instant tok 0 0
        match r.1.restoreBad c cs with
        | some (st, d) => return r.1.instant tok st d
        | none =>
          let s' ← r.1.restore c cs
          return (s'.bump 0x260048 1).instant tok 0 0) fun st d => s.instant tok st d)

/-! ## Profiles (R474-R477) -/

/-- A write of PROFILE_CTL.REQ starts a switch (R476): ignored while one is in progress and for the reserved code. -/
def State.profileReq (s : State) (v : Nat) : State :=
  if s.switching || decide (3 ≤ v) then s
  else { s with switchTo := some v }.setFld 0x260004 2 2 1

/-- PROFILE_SWITCH_DONE (R475-R477, R510): CURRENT takes the new profile; commands that run straddle the switch. -/
def execProfileSwitchDone (h : Hazard) (s : State) : Host.Outcome State Fault Refusal :=
  .next (match s.switchTo with
  | none => s
  | some v =>
    if !s.upkeep || !s.switching then s
    else
      s.meet none (srcHub 0) h (fun s => s) fun s =>
        let old := s.profile
        let on (c : Cmd) : Bool := c.begun && !c.phase.completed && c.phase != .ended && c.phase != .signalled && !c.straddled
        let n := (s.cmds.filter on).length
        let s := (s.setFld 0x260004 1 0 v).setFld 0x260004 2 2 0
        let s := { s with switchTo := none, cmds := s.cmds.map fun c => if on c then { c with straddled := true } else c }
        ((s.bump 0x260008 n).record 0x04 0 srcModule (leBytes 1 old ++ leBytes 1 v)).showClocks)

/-! ## The sketchbook's drain (R495) -/

/-- Capacity of the ring in records. -/
def ringRecords : Nat := 1044480

/-- The sketchbook with its oldest page of MRAM records drained to flash (R495, R496; log entry 41). -/
def Sketchbook.drainPage (b : Sketchbook) : Sketchbook :=
  let out := b.mram.take 256
  let crit := (out.filter fun r => (r.bytes.getD 0x11 0).toNat == 2).take (4096 - b.head.length)
  let ring := b.ring ++ out
  let ring := ring.drop (ring.length - ringRecords)
  { b with mram := b.mram.drop 256, head := b.head ++ crit, ring := ring
           oldest := match ring with | r :: _ => r.seq | [] => b.oldest }

/-- A DROPPED record for what MRAM had no room for (R495), now that it has. -/
def State.noteDropped (s : State) : State :=
  match s.sb.dropRun with
  | some (n, q) => { s with sb := { s.sb with dropRun := none } }.record 0x7E 1 (srcHub 7) (leBytes 4 n ++ leBytes 8 q)
  | none => s

/-- SB_DRAIN (R495): up to one page of 256 records goes from MRAM to flash, the first 4,096 CRITICAL ones into the protected head too; a
DROPPED record follows what was dropped. -/
def execSbDrain (s : State) : Host.Outcome State Fault Refusal :=
  .next (if !s.upkeep then s
  else if s.sb.drainPage.mram.length < 64512 then { s with sb := s.sb.drainPage }.noteDropped
  else { s with sb := s.sb.drainPage })

end Sys2Proof.Machine
end

