-- ==== Sys2Proof/Machine/Glaze.lean ====
section
/-! DEFINITION. The glaze engine (06 R173-R203): the commands SCAN, MASK and CARRY, each one chunk of one unit. -/

namespace Sys2Proof.Machine

/-- A glaze unit's chunk: the entry's fields, the unit's stream, its number and its scene, Q, and the chunk's place. -/
structure GlazeAt where
  g : GlazeE
  st : StepStream
  n : Nat
  sc : Scene
  q : Nat
  k : Nat
deriving DecidableEq, Repr

/-- The chunk an entry of operation `op` runs next. -/
def OnEntry.glaze (o : OnEntry) (s : State) (op : Nat) : Option GlazeAt :=
  if o.e.conv || o.e.kind != 1 then none
  else
    let g := GlazeE.ofWords o.ws
    match o.r.nth o.u.n, s.scene o.r.scene with
    | some x, some sc =>
      if g.op = op then some { g := g, st := x, n := o.u.n, sc := sc, q := o.r.q o.c, k := o.u.chunk } else none
    | _, _ => none

/-- Command row of position `i` of the chunk (R182). -/
def GlazeAt.row (a : GlazeAt) (i : Nat) : Nat := a.n * a.q + a.k * a.g.l + i

/-- Global chunk index (R182). -/
def GlazeAt.chunk (a : GlazeAt) : Nat := a.n * a.q / a.g.l + a.k

/-- It is the unit's last chunk. -/
def GlazeAt.last (a : GlazeAt) : Bool := decide (a.q ≤ (a.k + 1) * a.g.l)

/-- Channels of a head. -/
def GlazeAt.per (a : GlazeAt) : Nat := max 1 (a.g.d / max 1 a.g.h)

/-- State elements. -/
def GlazeAt.dn (a : GlazeAt) : Nat := a.g.d * a.g.n

/-- Record of the unit in half `h` of its stream's state slot (R178, R179). -/
def GlazeAt.recAt (a : GlazeAt) (s : State) (p : Program) (uncommitted : Bool) : Nat :=
  let x := s.strm a.st.stream
  stateLoc a.sc p x.stateSlot (if uncommitted then 1 - x.half else x.half) + a.g.recOff

/-- The format of x, a or λ, b, c, M, BW and the tail. -/
def GlazeE.inF (g : GlazeE) : EFmt := (EFmt.ofCode g.inFmt).getD .b16

/-- Values of `n` elements of a row of a referenced region. The engine checks nothing of what they hold: GREF, YIREF and UREF are read
as the MMAs of the entry's code left them at the WAIT (R190). -/
def State.refVals (s : State) (x : Ctx) (r : ORef) (row n : Nat) : E (State × List Val) :=
  match x.region r.index with
  | some g => s.readVals x g row 0 n
  | none => .ok (s, [])

/-- The reset mark of a command row (R181, R193). -/
def State.markAt (s : State) (x : Ctx) (g : GlazeE) (row : Nat) : E (State × Bool) :=
  if !g.resetEn then .ok (s, false)
  else
    match x.region g.reset.index with
    | none => .ok (s, false)
    | some r => do
      let v ← s.rdNat ((x.p.planeLoc x.binds r false).plus (row / 8)) 1
      return (v.1, bits v.2 (row % 8) (row % 8) == 1)

/-- What the lanes read at one position: x, the decays, b, c and the mark. -/
structure GlazeIn where
  x : List Val
  a : List Val
  b : List Val
  c : List Val
  mark : Bool
deriving DecidableEq, Repr

/-- The decay of a value as read (R175). -/
def GlazeE.decay (g : GlazeE) (v : Val) : Val := if g.logForm then exp32 v.neg else v

/-- Read the inputs of position `i` of the chunk; `withB`, `withX`: the operands the operation uses. -/
def State.glazeIn (s : State) (x : Ctx) (a : GlazeAt) (i : Nat) : E (State × GlazeIn) := do
  let g := a.g
  let row := a.row i
  let xs ← s.refVals x g.x row g.d
  let as ← xs.1.refVals x g.a row (if g.elementShape then g.d * g.n else g.h)
  let bs ← (if g.op = 3 then .ok (as.1, []) else as.1.refVals x g.b row (g.h * g.n))
  let cs ← (if g.op = 2 then .ok (bs.1, []) else bs.1.refVals x g.c row (g.h * g.n))
  let m ← cs.1.markAt x g row
  return (m.1, { x := xs.2, a := as.2, b := bs.2, c := cs.2, mark := m.2 })

/-! ## The stored state (R176, R178, R195-R197) -/

/-- The state format. -/
def GlazeE.stF (g : GlazeE) : EFmt := (cvtOf g.sCvt).fmt

/-- State elements from their stored codes: hi, or rn32(hi + lo) in compensated mode. -/
def GlazeAt.fromCodes (a : GlazeAt) (codes : List Nat) : List Val :=
  let f := a.g.stF
  let hi := (codes.take a.dn).map f.dec
  if a.g.comp then hi.zipWith (fun h l => add32 h (f.dec l)) (codes.drop a.dn) else hi

/-- One element written back: its codes and whether it was saturated. -/
structure WbElem where
  hi : Nat
  lo : Nat
  satd : Bool
  nonfin : Bool
deriving DecidableEq, Repr

/-- The write-back of one value (R195, R197). -/
def GlazeE.wbOne (g : GlazeE) (mode : RMode) (h : Val) : WbElem :=
  let c := cvtOf g.sCvt
  if g.comp then
    let k := convPlain c.fmt c.sat .rne h
    let hv := c.fmt.dec k.code
    let lo : ConvElem := if hv.nonFinite then ⟨0, false⟩ else convPlain c.fmt c.sat mode (sub32 h hv)
    { hi := k.code, lo := lo.code, satd := k.satd || lo.satd, nonfin := hv.nonFinite }
  else
    let k := convPlain c.fmt c.sat mode h
    { hi := k.code, lo := 0, satd := k.satd, nonfin := (c.fmt.dec k.code).nonFinite }

/-- The write-back of a unit's state after the position at `pos` (R194-R197): its codes. -/
def GlazeAt.writeback (a : GlazeAt) (s : State) (seed pos : Nat) (hs : List Val) : List WbElem :=
  let c := cvtOf a.g.sCvt
  ((List.range hs.length).zip hs).map fun e =>
    a.g.wbOne (c.mode .glaze (s.profile == 0) (rndWord seed a.st.stream pos 2 a.g.site e.1)) e.2

/-- The codes of written-back elements as the state buffer holds them. -/
def GlazeAt.codes (a : GlazeAt) (es : List WbElem) : List Nat :=
  es.map (·.hi) ++ (if a.g.comp then es.map (·.lo) else [])

/-- A write-back counts in the engine's block (R177, R195, R206). -/
def State.countWb (s : State) (inst : Nat) (es : List WbElem) : State :=
  let b := 0x140000 + 0x1000 * inst
  ((s.bump64 (b + 0x10) es.length).bump (b + 0x18) (es.filter (·.nonfin)).length).bump (b + 0x1C) (es.filter (·.satd)).length

/-- 16-bit codes from bytes. -/
def codes16 (n : Nat) (bs : List Byte) : List Nat := unpack .b16 n bs

/-- The stored state at the start of a unit, from the committed record. -/
def State.loadState (s : State) (p : Program) (a : GlazeAt) : E (State × List Nat) := do
  let n := a.dn * (if a.g.comp then 2 else 1)
  let v ← s.rd (.dva (a.recAt s p false + 0x40)) (2 * n)
  return (v.1, codes16 n v.2)

/-- Rows of the committed record's tail, oldest first. -/
def State.loadTail (s : State) (p : Program) (a : GlazeAt) : E (State × List (List Nat)) := do
  let o := 0x40 + 2 * a.dn * (if a.g.comp then 2 else 1)
  foldE (fun (z : State × List (List Nat)) i => do
    let v ← z.1.rd (.dva (a.recAt s p false + o + 2 * a.g.d * i)) (2 * a.g.d)
    return (v.1, z.2 ++ [codes16 a.g.d v.2])) (s, []) (List.range a.g.tail)

/-- The committed record of the unit: its state and its tail. -/
def State.loadRecord (s : State) (p : Program) (a : GlazeAt) : E (State × List Nat × List (List Nat)) := do
  let v ← s.loadState p a
  let t ← v.1.loadTail p a
  return (t.1, v.2, t.2)

/-- Copy the tail into TAILREF rows (R187). -/
def State.copyTail (s : State) (x : Ctx) (a : GlazeAt) (tail : List (List Nat)) : E State :=
  match x.region a.g.tailR.index with
  | none => .ok s
  | some r => foldE (fun (s : State) e => s.writeRow x r (a.n * a.g.tail + e.1) 0 { elems := e.2, scales := [] }) s
      ((List.range tail.length).zip tail)

/-- Write the record of the unit into the uncommitted half (R178, R187). -/
def State.writeRecord (s : State) (x : Ctx) (a : GlazeAt) (codes : List Nat) (old : List (List Nat)) : E State := do
  let g := a.g
  let keep := min g.tail a.q
  let new ← foldE (fun (z : State × List (List Nat)) i =>
    match x.region g.x.index with
    | none => .ok z
    | some r => do
      let v ← z.1.readRow x r (a.n * a.q + (a.q - keep) + i) 0 g.d
      return (v.1, z.2 ++ [v.2.elems])) (s, []) (List.range keep)
  let tail := (old.drop keep).take (g.tail - keep) ++ new.2
  let head := leBytes 8 (a.st.p0 + a.q) ++ leBytes 2 g.layer ++ leBytes 1 (if g.stF = .l16 then 2 else 1) ++
    leBytes 1 ((if g.comp then 1 else 0) + 2 * g.tail) ++ List.replicate 52 0
  let body := (codes ++ tail.flatMap id).flatMap (leBytes 2)
  new.1.wr (.dva (a.recAt s x.p true)) (padTo g.recBytes (head ++ body))

/-- The Y and TAILREF rows of a stream in every glaze entry of the command take free codes (R199, log entry 4). -/
def State.scribbleRows (s : State) (o : OnEntry) (n q : Nat) : State :=
  (o.r.entries.filter fun e => e.kind == 1 && (GlazeE.ofWords (o.p.entryWords e)).keeps).foldl (fun s e =>
    let g := GlazeE.ofWords (o.p.entryWords e)
    let rows (s : State) (i k : Nat) : State := match o.x.region i with
      | none => s
      | some r => (List.range k).foldl (fun s j => s.scribbleRow o.x r (n * k + j) g.d) s
    rows (if g.tailR.kind = 1 then rows s g.tailR.index g.tail else s) g.y.index q) s

/-- A stream whose committed record cannot be read fails alone (R199). -/
def State.loseStream (s : State) (o : OnEntry) (a : GlazeAt) : State :=
  ((s.scribbleRows o a.n a.q).failStream o.c.tok a.st 0x4002 true).skipLost o.c.tok

/-- An error met while the committed record of a stream is read fails that stream alone (R199). -/
def State.recordLost (s : State) (o : OnEntry) (a : GlazeAt) (st d : Nat) : State :=
  if st = 0x4002 then
    (s.noteEcc o.src o.c.client o.c.op o.c.tag d).loseStream o a
  else s.stopCmd o.c.tok o.src st d

/-- The state a chunk starts from: the buffer's, or at the unit's start the committed record's, whose tail is copied. -/
def OnEntry.startState (o : OnEntry) (s : State) (a : GlazeAt) : E (State × List Nat × List (List Nat)) :=
  if a.k = 0 ∨ a.last then s.loadRecord o.p a else .ok (s, o.u.buf, [])

/-! ## SCAN (R187, R193) -/

/-- One channel's state after a position, and its readout (R176). -/
def GlazeAt.lane (a : GlazeAt) (i : GlazeIn) (d : Nat) (hs : List Val) : List Val × Val :=
  let g := a.g
  let e := d / a.per
  let xv := i.x.getD d Val.zero
  let bs := (i.b.drop (e * g.n)).take g.n
  let cs := (i.c.drop (e * g.n)).take g.n
  let as := if g.elementShape then (i.a.drop (d * g.n)).take g.n else List.replicate g.n (i.a.getD e Val.zero)
  let new := if i.mark then bs.map fun b => r32 (b.mul xv)
    else (as.zip (hs.zip bs)).map fun v => r32 (((g.decay v.1).mul v.2.1).add (v.2.2.mul xv))
  (new, (cs.zip new).foldl (fun y v => add32 y (mul32 v.1 v.2)) Val.zero)

/-- Every channel at one position: the new state and the Y row. -/
def GlazeAt.position (a : GlazeAt) (i : GlazeIn) (hs : List Val) : List Val × List Val :=
  let per := ((List.range a.g.d).zip (chunksOf a.g.n (max 1 hs.length) hs)).map fun e => a.lane i e.1 e.2
  (per.flatMap (·.1), per.map (·.2))

/-- Write a Y row (R187). -/
def State.writeY (s : State) (x : Ctx) (g : GlazeE) (row : Nat) (ys : List Val) : E State :=
  match x.region g.y.index with
  | none => .ok s
  | some r => do
    let k ← s.writeVals x r (cvtOf g.yCvt) ((cvtOf g.yCvt).modes ys) row 0 ys
    return k.1

/-- One chunk of SCAN from its inputs: the Y rows, and the state after the last position. -/
def GlazeAt.scanAll (a : GlazeAt) (ins : List GlazeIn) (hs : List Val) : List (List Val) × List Val :=
  ins.foldl (fun z i =>
    let r := a.position i z.2
    (z.1 ++ [r.2], r.1)) ([], hs)

/-- The inputs of a whole chunk (R188: read before any of its Y rows is written). -/
def State.chunkIn (s : State) (x : Ctx) (a : GlazeAt) : E (State × List GlazeIn) :=
  foldE (fun (z : State × List GlazeIn) i => do
    let v ← z.1.glazeIn x a i
    return (v.1, z.2 ++ [v.2])) (s, []) (List.range a.g.l)

/-- The end of a chunk that carries state: write-back, and at the unit's end the record (R187, R194). -/
def OnEntry.endChunk (o : OnEntry) (s : State) (a : GlazeAt) (hs : List Val) (old : List (List Nat)) : E State := do
  let es := a.writeback s o.c.seed (a.st.p0 + a.k * a.g.l + a.g.l - 1) hs
  let s := (s.countWb o.inst es).bump64 (0x140008 + 0x1000 * o.inst) a.g.l
  let s ← (if a.last then s.writeRecord o.x a (a.codes es) old else .ok s)
  return s.advEntry o a.last true (a.codes es)

/-- One chunk of a stateful operation: `f` gives the Y rows and the state after the chunk. -/
def OnEntry.runChunk (o : OnEntry) (s : State) (a : GlazeAt)
    (f : State → List GlazeIn → List Val → E (State × List (List Val) × List Val)) : State :=
  match o.startState s a with
  | .error .wait => s
  | .error (.err st d) => s.recordLost o a st d
  | .error .pool => s.enterSafe 6
  | .ok (s1, codes, tail) =>
    let codes := if a.k = 0 then codes else o.u.buf
    s.runErr o.c.tok o.src (do
      let s ← (if a.k = 0 then s1.copyTail o.x a tail else .ok s1)
      let ins ← s.chunkIn o.x a
      let r ← f ins.1 ins.2 (a.fromCodes codes)
      let s ← foldE (fun (s : State) e => s.writeY o.x a.g (a.row e.1) e.2) r.1 ((List.range r.2.1.length).zip r.2.1)
      o.endChunk s a r.2.2 tail)

/-- A unit's uncorrectable read (R199, R200): one inside the stream's committed record fails the stream alone, any other stops the
command. -/
def OnEntry.glazeMeet (o : OnEntry) (s : State) (a : GlazeAt) (h : Hazard) (k : State → State) : State :=
  let lo := a.recAt s o.p false
  let inRec : Bool := match h with
    | .ue st _ ad => (st == .hbm || st == .flash) && a.g.keeps && (a.k == 0 || a.last) && decide (lo ≤ ad.toNat) &&
        decide (ad.toNat < lo + a.g.recBytes)
    | _ => false
  s.meet (some o.c) o.src h (fun s =>
    if inRec then s.loseStream o a else s.stopCmd o.c.tok o.src 0x4002 0) k

/-- SCAN (R173-R178, R187, R193-R197): one chunk of one unit. -/
def execScan (tok : Nat) (e : EntryUnit) (h : Hazard) (s : State) : Host.Outcome State Fault Refusal :=
  .next (match s.onEntry tok e.entry e.unit with
  | none => s
  | some o =>
    match o.glaze s 1 with
    | none => s
    | some a =>
      o.glazeMeet s a h fun s => o.runChunk s a fun s ins hs =>
        let r := a.scanAll ins hs
        .ok (s, r.1, r.2))

/-! ## Decays over a chunk (R189, R191) -/

/-- Running sums of λ, each rounded (R189). -/
def runSums : Val → List Val → List Val
  | _, [] => []
  | acc, v :: vs => let x := add32 acc v; x :: runSums x vs

/-- The decay from position `j` to position `i ≥ j` of a chunk for one head: `as` its decays or λ values from position `j` on. -/
def runProducts : Val → List Val → List Val
  | _, [] => []
  | acc, v :: vs => let x := mul32 acc v; x :: runProducts x vs

/-- Marks at chunk positions 1 to `i` (R189). -/
def segOf (marks : List Bool) (i : Nat) : Nat := (((marks.take (i + 1)).drop 1).filter id).length

/-- Column `j` of Dm for one head: rows 0 to L - 1. -/
def GlazeE.dmCol (g : GlazeE) (as : List Val) (marks : List Bool) (j : Nat) : List Val :=
  let lm := runSums Val.zero as
  let prods := (.fin false 1 0 : Val) :: runProducts (.fin false 1 0) (as.drop (j + 1))
  (List.range as.length).map fun i =>
    if i < j ∨ segOf marks i ≠ segOf marks j then Val.zero
    else if g.logForm then exp32 ((sub32 (lm.getD i Val.zero) (lm.getD j Val.zero)).neg)
    else prods.getD (i - j) Val.zero

/-- The decay from the chunk's start to each of its positions: none from the first mark on (R191). -/
def GlazeE.starts (g : GlazeE) (as : List Val) (marks : List Bool) : List (Option Val) :=
  let vs := if g.logForm then (runSums Val.zero as).map fun l => exp32 l.neg
    else match as with
      | [] => []
      | a :: r => a :: runProducts a r
  ((List.range vs.length).zip vs).map fun e => if (marks.take (e.1 + 1)).any id then none else some e.2

/-! ## MASK (R189) -/

/-- M and BW of one head of the chunk. -/
def State.maskHead (s : State) (x : Ctx) (a : GlazeAt) (ins : List GlazeIn) (e : Nat) : E State := do
  let g := a.g
  let row0 := (a.chunk * g.h + e) * g.l
  let as := ins.map fun i => i.a.getD e Val.zero
  let marks := ins.map (·.mark)
  let cols := (List.range g.l).map fun j => g.dmCol as marks j
  let out : Cvt := { fmt := g.inF, sat := false, ceil := false, block := 32, rnd := 1 }
  let s ← foldE (fun (s : State) i => do
    let gr ← s.refVals x g.g (row0 + i) g.l
    let m := (cols.zip gr.2).map fun v => mul32 (v.1.getD i Val.zero) v.2
    match x.region g.m.index with
    | none => return gr.1
    | some r => return (← gr.1.writeVals x r out (allRne m) (row0 + i) 0 m).1) s (List.range g.l)
  let w := cols.map fun c => c.getD (g.l - 1) Val.zero
  foldE (fun (s : State) n => do
    let bw := (w.zip ins).map fun v => mul32 v.1 (v.2.b.getD (e * g.n + n) Val.zero)
    match x.region g.bw.index with
    | none => return s
    | some r => return (← s.writeVals x r out (allRne bw) ((a.chunk * g.h + e) * g.n + n) 0 bw).1) s (List.range g.n)

/-- MASK (R189, R190): one chunk of one unit, every head. G is read as the MMAs wrote it, unchecked. -/
def execMask (tok : Nat) (e : EntryUnit) (h : Hazard) (s : State) : Host.Outcome State Fault Refusal :=
  .next (match s.onEntry tok e.entry e.unit with
  | none => s
  | some o =>
    match o.glaze s 2 with
    | none => s
    | some a =>
      o.glazeMeet s a h fun s => s.runErr o.c.tok o.src (do
        let ins ← s.chunkIn o.x a
        let s ← foldE (fun (s : State) e => s.maskHead o.x a ins.2 e) ins.1 (List.range a.g.h)
        let s := s.bump64 (0x140008 + 0x1000 * o.inst) a.g.l
        return s.advEntry o a.last true []))

/-! ## CARRY (R191) -/

/-- The Y row of position `i`: YI alone where the decay from the chunk's start is zero. -/
def GlazeAt.carryRow (a : GlazeAt) (i : GlazeIn) (ss : List (Option Val)) (yi : List Val) (chans : List (List Val)) : List Val :=
  let g := a.g
  ((List.range g.d).zip (yi.zip chans)).map fun v =>
    let e := v.1 / a.per
    match ss.getD e none with
    | none => v.2.1
    | some sv =>
      if sv.isZero then v.2.1
      else
        let cs := (i.c.drop (e * g.n)).take g.n
        let r := (cs.zip v.2.2).foldl (fun r z => add32 r (mul32 z.1 z.2)) Val.zero
        add32 v.2.1 (mul32 sv r)

/-- One chunk of CARRY: Y rows and the state after it. YI and U are read as the MMAs wrote them, unchecked (R190). -/
def State.carryChunk (s : State) (x : Ctx) (a : GlazeAt) (ins : List GlazeIn) (hs : List Val) :
    E (State × List (List Val) × List Val) := do
  let g := a.g
  let marks := ins.map (·.mark)
  let perHead := (List.range g.h).map fun e => g.starts (ins.map fun i => i.a.getD e Val.zero) marks
  let chans := chunksOf g.n (max 1 hs.length) hs
  let ys ← foldE (fun (z : State × List (List Val)) e => do
    let yi ← z.1.refVals x g.yi (a.row e.1) g.d
    return (yi.1, z.2 ++ [a.carryRow e.2 (perHead.map fun h => h.getD e.1 none) yi.2 chans])) (s, [])
    ((List.range ins.length).zip ins)
  let out ← foldE (fun (z : State × List Val) d => do
    let u ← z.1.refVals x g.u (a.chunk * g.d + d.1) g.n
    let row := match (perHead.getD (d.1 / a.per) []).getD (g.l - 1) none with
      | none => u.2
      | some sl => if sl.isZero then u.2 else (d.2.zip u.2).map fun v => r32 ((sl.mul v.1).add v.2)
    return (u.1, z.2 ++ row)) (ys.1, []) ((List.range chans.length).zip chans)
  return (out.1, ys.2, out.2)

/-- CARRY (R191, R193-R197): one chunk of one unit. -/
def execCarry (tok : Nat) (e : EntryUnit) (h : Hazard) (s : State) : Host.Outcome State Fault Refusal :=
  .next (match s.onEntry tok e.entry e.unit with
  | none => s
  | some o =>
    match o.glaze s 3 with
    | none => s
    | some a => o.glazeMeet s a h fun s => o.runChunk s a fun s ins hs => s.carryChunk o.x a ins hs)

end Sys2Proof.Machine
end

