-- ==== Sys2Proof/Machine/ImageOps.lean ====
section
/-! DEFINITION. The image-transform and crop-and-resize engines (08 R259-R271): the commands S2D, D2S, RELAYOUT, TX_IN and TX_OUT, each
one row of one image, and CROP_BOX, one box. -/

namespace Sys2Proof.Machine

/-! ## Pixels in any layout -/

/-- A pixel's channels: codes and values. -/
structure Pixel where
  codes : List Nat
  vals : List Val
deriving DecidableEq, Repr

/-- Read a pixel of an image region, or of a ROWS region whose row is the pixel (R262). -/
def State.getPixel (s : State) (x : Ctx) (i : Img) (b y px : Nat) : E (State × Pixel) := do
  if i.r.layout < 2 then
    let v ← s.readRow x i.r (b * i.h * i.w + y * i.w + px) 0 i.c
    return (v.1, { codes := v.2.elems, vals := rowValues i.r.ef i.r.blk v.2 })
  else
    let r ← foldE (fun (a : State × Pixel) g => do
      let v ← a.1.readGroup x i b g y px
      return (v.1, { codes := a.2.codes ++ v.2.elems, vals := a.2.vals ++ rowValues i.r.ef i.r.blk v.2 })) (s, ⟨[], []⟩)
      (List.range i.groups)
    return (r.1, { codes := r.2.codes.take i.c, vals := r.2.vals.take i.c })

/-- Non-finite elements of converted codes. -/
def nonFinCodes (c : Cvt) (codes scales : List Nat) : Nat :=
  ((rowValues c.fmt (if c.fmt.scaled then c.block else 1) { elems := codes, scales := scales }).filter Val.nonFinite).length

/-- Write a pixel under a CVT word; the same unscaled format is copied bit for bit (R263). Answers the non-finite elements too. -/
def State.putPixel (s : State) (x : Ctx) (i : Img) (c : Cvt) (src : EFmt) (b y px : Nat) (v : Pixel) : E (State × Nat) := do
  let copy := src == c.fmt && !src.scaled
  let conv (vs : List Val) (codes : List Nat) : List Nat × List Nat :=
    if copy then (codes, [])
    else
      let k := convRow c vs (c.modes vs)
      (k.1, k.2.1)
  if i.r.layout < 2 then
    let k := conv v.vals v.codes
    let s ← s.writeRow x i.r (b * i.h * i.w + y * i.w + px) 0 { elems := k.1, scales := k.2 }
    return (s, nonFinCodes c k.1 k.2)
  else
    foldE (fun (a : State × Nat) g => do
      let k := conv ((v.vals.drop (g * i.cb)).take i.cb) ((v.codes.drop (g * i.cb)).take i.cb)
      let s ← a.1.writeGroup x i b g y px { elems := k.1, scales := k.2 }
      return (s, a.2 + nonFinCodes c k.1 k.2)) (s, 0) (List.range i.groups)

/-- What one row of an op did: pixels written, padding taps, non-finite elements. -/
structure RowCount where
  pixels : Nat
  pads : Nat
  nonfin : Nat
deriving DecidableEq, Repr

/-- One row of an image op under way. -/
structure ItxAt where
  g : Geo
  inR : Region
  outR : Region
  b : Nat
  k : Nat
deriving DecidableEq, Repr

/-- The row an entry of operation `op` runs next. -/
def OnEntry.itx (o : OnEntry) (op : Nat) : Option ItxAt :=
  if !o.e.conv then none
  else
    let d := ConvD.ofWords o.ws
    match o.x.region d.inReg, o.x.region d.outReg with
    | some i, some r => if d.op = op then some { g := d.geo o.r, inR := i, outR := r, b := o.u.n, k := o.u.chunk } else none
    | _, _ => none

/-- The descriptor's conversion. -/
def ItxAt.cvt (a : ItxAt) : Cvt := cvtOf a.g.c.cvt

/-- The input tensor as its region holds it. -/
def ItxAt.img (a : ItxAt) : Img := a.g.input a.inR

/-- The output tensor as its region holds it (R261, R262, R264). -/
def ItxAt.out (a : ItxAt) : Img := a.g.output a.outR

/-- The row and column of the full output that the unit's row `k` and a column of it are (R264). -/
def ItxAt.full (a : ItxAt) (ox : Nat) : Nat × Nat := (a.g.origin.1 + a.k, a.g.origin.2 + ox)

/-- A pixel of the full input. -/
def State.getFull (s : State) (x : Ctx) (a : ItxAt) (y px : Nat) : E (State × Pixel) :=
  s.getPixel x a.img a.b (a.g.held y px).1 (a.g.held y px).2

/-- A pixel of padding, by its element (R250). -/
def ItxAt.pad (a : ItxAt) : Pixel :=
  let f := a.inR.ef
  let code := if a.g.c.padMode = 1 then a.g.c.padElem % 2 ^ f.bits else 0
  let v := if a.g.c.padMode = 1 then f.value code a.g.c.padScale else Val.zero
  { codes := List.replicate a.g.c.cin code, vals := List.replicate a.g.c.cin v }

/-- A pixel takes free codes (log entry 4). -/
def State.scribblePixel (s : State) (x : Ctx) (i : Img) (b y px : Nat) : State :=
  if i.r.layout < 2 then s.scribbleRow x i.r (b * i.h * i.w + y * i.w + px) i.c
  else (List.range i.groups).foldl (fun s g =>
    let v : RowVals := { elems := freeCodes s.freeCtr i.cb i.r.ef.bits
                         scales := if i.r.ef.scaled then freeCodes (s.freeCtr + i.cb) (i.cb / i.r.blk) (8 * i.r.ef.scaleBytes) else [] }
    match s.writeGroup x i b g y px v with
    | .ok s' => { s' with freeCtr := s.freeCtr + 2 * i.cb }
    | .error _ => s) s

/-- An output image takes free codes: what a failed unit leaves (R271, log entry 4). -/
def State.scribbleImg (s : State) (x : Ctx) (i : Img) (b : Nat) : State :=
  (List.range (i.h * i.w)).foldl (fun s k => s.scribblePixel x i b (k / max 1 i.w) (k % max 1 i.w)) s

/-- A unit's work: an uncorrectable error it meets leaves its output open and stops the command (R271). -/
def OnEntry.unitWork (o : OnEntry) (s : State) (h : Hazard) (lost : State → State) (work : State → E State) : State :=
  s.meet (some o.c) o.src h (fun s => (lost s).stopCmd o.c.tok o.src 0x4002 0) fun s =>
    s.after (work s) fun st d => (lost s).stopCmd o.c.tok o.src st d

/-- Run the row an op's work gives and count it (R274); `total` rows a unit. -/
def OnEntry.runRow (o : OnEntry) (s : State) (a : ItxAt) (total : Nat) (h : Hazard) (lost : State → State)
    (f : State → E (State × RowCount)) : State :=
  o.unitWork s h lost fun s => do
    let r ← (if a.k < total then f s else .ok (s, ⟨0, 0, 0⟩))
    let b := 0x150000 + 0x1000 * o.inst
    let s := ((r.1.bump64 (b + 8) r.2.pixels).bump64 (b + 0x10) r.2.pads).bump (b + 0x18) r.2.nonfin
    return s.advEntry o (decide (total ≤ a.k + 1)) (decide (r.2.pixels ≠ 0)) []

/-! ## Regrouping and layouts (R261-R263) -/

/-- One output row of S2D. -/
def ItxAt.s2dRow (a : ItxAt) (x : Ctx) (s : State) : E (State × RowCount) := do
  let r := max 1 a.g.c.factor
  foldE (fun (z : State × RowCount) ox => do
    let f := a.full ox
    let p ← foldE (fun (q : State × Pixel × Nat) k => do
      let y := f.1 * r + k / r
      let px := f.2 * r + k % r
      if a.g.h ≤ y ∨ a.g.w ≤ px then
        return (q.1, { codes := q.2.1.codes ++ a.pad.codes, vals := q.2.1.vals ++ a.pad.vals }, q.2.2 + a.g.c.cin)
      else
        let v ← q.1.getFull x a y px
        return (v.1, { codes := q.2.1.codes ++ v.2.codes, vals := q.2.1.vals ++ v.2.vals }, q.2.2))
      (z.1, ⟨[], []⟩, 0) (List.range (r * r))
    let w ← p.1.putPixel x a.out a.cvt a.inR.ef a.b a.k ox p.2.1
    return (w.1, { pixels := z.2.pixels + 1, pads := z.2.pads + p.2.2, nonfin := z.2.nonfin + w.2 })) (s, ⟨0, 0, 0⟩)
    (List.range a.g.ow)

/-- One output row of D2S. -/
def ItxAt.d2sRow (a : ItxAt) (x : Ctx) (s : State) : E (State × RowCount) := do
  let r := max 1 a.g.c.factor
  let c := a.g.c.cin / (r * r)
  foldE (fun (z : State × RowCount) ox => do
    let f := a.full ox
    let v ← z.1.getFull x a (f.1 / r) (f.2 / r)
    let o := (f.1 % r * r + f.2 % r) * c
    let w ← v.1.putPixel x a.out a.cvt a.inR.ef a.b a.k ox
      { codes := (v.2.codes.drop o).take c, vals := (v.2.vals.drop o).take c }
    return (w.1, { z.2 with pixels := z.2.pixels + 1, nonfin := z.2.nonfin + w.2 })) (s, ⟨0, 0, 0⟩) (List.range a.g.ow)

/-- One row of RELAYOUT. -/
def ItxAt.relayoutRow (a : ItxAt) (x : Ctx) (s : State) : E (State × RowCount) :=
  foldE (fun (z : State × RowCount) ox => do
    let f := a.full ox
    let v ← z.1.getFull x a f.1 f.2
    let w ← v.1.putPixel x a.out a.cvt a.inR.ef a.b a.k ox v.2
    return (w.1, { z.2 with pixels := z.2.pixels + 1, nonfin := z.2.nonfin + w.2 })) (s, ⟨0, 0, 0⟩) (List.range a.g.ow)

/-- S2D (R261, R263): one output row of one image. -/
def execS2d (tok : Nat) (e : EntryUnit) (h : Hazard) (s : State) : Host.Outcome State Fault Refusal :=
  .next (match s.onEntry tok e.entry e.unit with
  | none => s
  | some o =>
    match o.itx 4 with
    | none => s
    | some a => o.runRow s a a.g.oh h (fun s => s.scribbleImg o.x a.out a.b) (a.s2dRow o.x))

/-- D2S (R261, R263): one output row of one image. -/
def execD2s (tok : Nat) (e : EntryUnit) (h : Hazard) (s : State) : Host.Outcome State Fault Refusal :=
  .next (match s.onEntry tok e.entry e.unit with
  | none => s
  | some o =>
    match o.itx 5 with
    | none => s
    | some a => o.runRow s a a.g.oh h (fun s => s.scribbleImg o.x a.out a.b) (a.d2sRow o.x))

/-- RELAYOUT (R262, R263): one row of one image. -/
def execRelayout (tok : Nat) (e : EntryUnit) (h : Hazard) (s : State) : Host.Outcome State Fault Refusal :=
  .next (match s.onEntry tok e.entry e.unit with
  | none => s
  | some o =>
    match o.itx 6 with
    | none => s
    | some a => o.runRow s a a.g.oh h (fun s => s.scribbleImg o.x a.out a.b) (a.relayoutRow o.x))

/-! ## The 3 x 3 transform (R259, R260) -/

/-- Bᵀ of R259. -/
def txB : List (List Int) := [[1, 0, -1, 0], [0, 1, 1, 0], [0, -1, 1, 0], [0, 1, 0, -1]]
/-- Aᵀ of R259. -/
def txA : List (List Int) := [[1, 1, 1, 0], [0, 1, -1, -1]]

/-- A left-to-right sum of the nonzero terms, rounded after each addition. -/
def signedSum (cs : List Int) (vs : List Val) : Val :=
  let ts := (cs.zip vs).filterMap fun e => if e.1 = 0 then none else some (if e.1 < 0 then e.2.neg else e.2)
  match ts with
  | [] => Val.zero
  | t :: ts => ts.foldl add32 t

/-- `m * d` for coefficient rows `m` and a matrix given by rows. -/
def leftMul (m : List (List Int)) (d : List (List Val)) : List (List Val) :=
  let cols := (List.range ((d.headD []).length)).map fun j => d.map fun r => r.getD j Val.zero
  m.map fun c => cols.map fun v => signedSum c v

/-- `d * mᵀ` for coefficient rows `m`. -/
def rightMul (m : List (List Int)) (d : List (List Val)) : List (List Val) := d.map fun r => m.map fun c => signedSum c r

/-- Output tiles along each axis (R259). -/
def ItxAt.th (a : ItxAt) : Nat := (a.g.oh + 1) / 2
/-- Output tiles along x. -/
def ItxAt.tw (a : ItxAt) : Nat := (a.g.ow + 1) / 2
/-- All output tiles. -/
def ItxAt.tiles (a : ItxAt) : Nat := a.g.n * a.th * a.tw

/-- A tap of TX_IN: a pixel, padding under R250, or zero beyond the pads. -/
inductive TxTap where
  | pix (y x : Nat)
  | pad
  | beyond
deriving DecidableEq, Repr

/-- The tap at coordinates (i, j) of the input (R250, R259). -/
def ItxAt.tapOf (a : ItxAt) (i j : Int) : TxTap :=
  let c := a.g.c
  if ((a.g.h + c.pb : Nat) : Int) ≤ i ∨ ((a.g.w + c.pr : Nat) : Int) ≤ j then .beyond
  else
    match tapAt c.padMode a.g.h i, tapAt c.padMode a.g.w j with
    | some y, some x => .pix y x
    | _, _ => .pad

/-- The coordinates lie outside the image. -/
def ItxAt.outside (a : ItxAt) (i j : Int) : Bool := decide (i < 0) || decide (j < 0) || decide ((a.g.h : Int) ≤ i) || decide ((a.g.w : Int) ≤ j)

/-- The 16 taps of one input tile: one pixel each. -/
def ItxAt.taps (a : ItxAt) (x : Ctx) (s : State) (tx : Nat) : E (State × List (List Val) × Nat) :=
  foldE (fun (z : State × List (List Val) × Nat) k => do
    let i : Int := ((a.g.origin.1 + 2 * a.k + k / 4 : Nat) : Int) - a.g.c.pt
    let j : Int := ((a.g.origin.2 + 2 * tx + k % 4 : Nat) : Int) - a.g.c.pl
    match a.tapOf i j with
    | .pix y px =>
      let v ← z.1.getFull x a y px
      return (v.1, z.2.1 ++ [v.2.vals], z.2.2 + (if a.outside i j then a.g.c.cin else 0))
    | .pad => return (z.1, z.2.1 ++ [a.pad.vals], z.2.2 + a.g.c.cin)
    | .beyond => return (z.1, z.2.1 ++ [List.replicate a.g.c.cin Val.zero], z.2.2)) (s, [], 0) (List.range 16)

/-- One tile row of TX_IN. -/
def ItxAt.txInRow (a : ItxAt) (x : Ctx) (s : State) : E (State × RowCount) :=
  foldE (fun (z : State × RowCount) tx => do
    let t ← a.taps x z.1 tx
    let per := (List.range a.g.c.cin).map fun c =>
      let d := chunksOf 4 4 (t.2.1.map fun p => p.getD c Val.zero)
      ((rightMul txB (leftMul txB d)).flatMap id)
    let tau := (a.b * a.th + a.k) * a.tw + tx
    let r ← foldE (fun (y : State × Nat) xi => do
      let vs := per.map fun v => v.getD xi Val.zero
      let k := convRow a.cvt vs (a.cvt.modes vs)
      let s ← y.1.writeRow x a.outR (xi * a.tiles + tau) 0 { elems := k.1, scales := k.2.1 }
      return (s, y.2 + nonFinCodes a.cvt k.1 k.2.1)) (t.1, 0) (List.range 16)
    return (r.1, { pixels := z.2.pixels + 16, pads := z.2.pads + t.2.2, nonfin := z.2.nonfin + r.2 })) (s, ⟨0, 0, 0⟩) (List.range a.tw)

/-- TX_IN (R259, R263): one tile row of one image. -/
def execTxIn (tok : Nat) (e : EntryUnit) (h : Hazard) (s : State) : Host.Outcome State Fault Refusal :=
  .next (match s.onEntry tok e.entry e.unit with
  | none => s
  | some o =>
    match o.itx 2 with
    | none => s
    | some a =>
      o.runRow s a a.th h (fun s => (List.range (16 * a.th * a.tw)).foldl (fun s k =>
        s.scribbleRow o.x a.outR (k / max 1 (a.th * a.tw) * a.tiles + a.b * a.th * a.tw + k % max 1 (a.th * a.tw)) a.g.c.cin) s)
        (a.txInRow o.x))

/-- The bias of TX_OUT. -/
def ItxAt.bias (a : ItxAt) (x : Ctx) (s : State) : E (State × Option (List Val)) :=
  if a.g.c.biasReg = 0xFFFF then .ok (s, none)
  else
    match x.region a.g.c.biasReg with
    | none => .ok (s, none)
    | some r => do
      let v ← s.readVals x r 0 0 a.g.c.cout
      return (v.1, some v.2)

/-- One tile row of TX_OUT. -/
def ItxAt.txOutRow (a : ItxAt) (x : Ctx) (s : State) : E (State × RowCount) := do
  let bias ← a.bias x s
  foldE (fun (z : State × RowCount) tx => do
    let tau := (a.b * a.th + a.k) * a.tw + tx
    let m ← foldE (fun (y : State × List (List Val)) xi => do
      let v ← y.1.readVals x a.inR (xi * a.tiles + tau) 0 a.g.c.cout
      return (v.1, y.2 ++ [v.2])) (z.1, []) (List.range 16)
    let per := (List.range a.g.c.cout).map fun c =>
      let d := chunksOf 4 4 (m.2.map fun p => p.getD c Val.zero)
      let y := (rightMul txA (leftMul txA d)).flatMap id
      match bias.2 with
      | some bs => y.map fun v => add32 v (bs.getD c Val.zero)
      | none => y
    foldE (fun (w : State × RowCount) q => do
      let oy := 2 * a.k + q / 2
      let ox := 2 * tx + q % 2
      if oy < a.g.oh ∧ ox < a.g.ow then
        let vs := per.map fun v => v.getD q Val.zero
        let k ← w.1.putPixel x a.out a.cvt .s4 a.b oy ox { codes := [], vals := vs }
        return (k.1, { w.2 with pixels := w.2.pixels + 1, nonfin := w.2.nonfin + k.2 })
      else return w) (m.1, z.2) (List.range 4)) (bias.1, ⟨0, 0, 0⟩) (List.range a.tw)

/-- TX_OUT (R259, R263): one tile row of one image. -/
def execTxOut (tok : Nat) (e : EntryUnit) (h : Hazard) (s : State) : Host.Outcome State Fault Refusal :=
  .next (match s.onEntry tok e.entry e.unit with
  | none => s
  | some o =>
    match o.itx 3 with
    | none => s
    | some a => o.runRow s a a.th h (fun s => s.scribbleImg o.x a.out a.b) (a.txOutRow o.x))

/-! ## Crop and resize (R265-R268) -/

/-- The floor of a finite value. -/
def Val.floor? : Val → Option Int
  | .fin s m e => some ((signedAt s m e (min e 0)).fdiv (2 ^ (-(min e 0)).toNat))
  | _ => none

/-- One sample of one axis: y, and after the shift by a half its floor and weight (R267). -/
structure AxisAt where
  y : Val
  p : Option Int
  w : Val
deriving DecidableEq, Repr

/-- A coordinate clamped to an extent. -/
def clampTo (extent : Nat) (t : Val) : Val :=
  if t.isNan then t else if t.lt Val.zero then Val.zero else if (Val.ofNat (extent - 1)).lt t then Val.ofNat (extent - 1) else t

/-- Sample `i` of an axis from `lo` to `hi` with `n` samples over an extent. -/
def cropAxis (clamp : Bool) (extent n : Nat) (lo hi : Val) (i : Nat) : AxisAt :=
  let step := div32 (sub32 hi lo) (Val.ofNat n)
  let y := add32 lo (mul32 (.fin false (2 * i + 1) (-1)) step)
  let t := sub32 y (.fin false 1 (-1))
  let t := if clamp then clampTo extent t else t
  let p := t.floor?
  { y := y, p := p, w := match p with | some k => sub32 t (Val.ofInt k) | none => .nan }

/-- lerp of R267. -/
def lerp (a b w : Val) : Val := add32 a (mul32 w (sub32 b a))

/-- An index inside an extent, or clamped into it. -/
def pixIndex (clamp : Bool) (extent : Nat) (i : Option Int) : Option Nat :=
  match i with
  | none => none
  | some i =>
    if 0 ≤ i ∧ i < extent then some i.toNat
    else if clamp ∧ extent ≠ 0 then some (min (max i 0) ((extent : Int) - 1)).toNat else none

/-- An index lies outside an extent. -/
def pixOut (extent : Nat) (i : Option Int) : Bool :=
  match i with
  | none => true
  | some i => decide (i < 0) || decide ((extent : Int) ≤ i)

/-- A crop entry under way: fields, resolved extents and the box's words. -/
structure CropAt where
  c : CropE
  img : Img
  out : Img
  n : Nat
  k : Nat
  batch : Nat
  y0 : Val
  x0 : Val
  y1 : Val
  x1 : Val
deriving DecidableEq, Repr

/-- Neighbour (y, x) of the box's image: its channels, or EXTRAP_VALUE. -/
def CropAt.at_ (a : CropAt) (x : Ctx) (s : State) (y px : Option Int) : E (State × List Val) :=
  match pixIndex a.c.clamp a.img.h y, pixIndex a.c.clamp a.img.w px with
  | some i, some j => do
    let v ← s.getPixel x a.img a.batch i j
    return (v.1, v.2.vals)
  | _, _ => .ok (s, List.replicate a.c.c (dec32 a.c.extrap))

/-- Next index. -/
def succI (i : Option Int) : Option Int := i.map (· + 1)

/-- One sample: its channels, and whether a neighbour lies outside the image. CLAMP with an empty image has no pixel to clamp to:
the sample's channels are free values. -/
def CropAt.sample (a : CropAt) (x : Ctx) (s : State) (i j : Nat) : E (State × List Val × Bool) := do
  let ya := cropAxis a.c.clamp a.img.h a.c.outH a.y0 a.y1 i
  let xa := cropAxis a.c.clamp a.img.w a.c.outW a.x0 a.x1 j
  if a.c.clamp ∧ (a.img.h = 0 ∨ a.img.w = 0) then
    let vs := (List.range a.c.c).map fun k => dec32 ((Config.freeWord (s.freeCtr + k)).toNat % 2 ^ 32)
    return ({ s with freeCtr := s.freeCtr + a.c.c }, vs, true)
  else if a.c.nearest then
    let at_ (e : Nat) (y : Val) : Option Int := (if a.c.clamp then clampTo e y else y).floor?
    let v ← a.at_ x s (at_ a.img.h ya.y) (at_ a.img.w xa.y)
    return (v.1, v.2, pixOut a.img.h ya.y.floor? || pixOut a.img.w xa.y.floor?)
  else
    let v00 ← a.at_ x s ya.p xa.p
    let v01 ← a.at_ x v00.1 ya.p (succI xa.p)
    let v10 ← a.at_ x v01.1 (succI ya.p) xa.p
    let v11 ← a.at_ x v10.1 (succI ya.p) (succI xa.p)
    let top := (v00.2.zip v01.2).map fun e => lerp e.1 e.2 xa.w
    let bot := (v10.2.zip v11.2).map fun e => lerp e.1 e.2 xa.w
    return (v11.1, (top.zip bot).map fun e => lerp e.1 e.2 ya.w,
      pixOut a.img.h ya.p || pixOut a.img.h (succI ya.p) || pixOut a.img.w xa.p || pixOut a.img.w (succI xa.p))

/-- The box is invalid (R268). -/
def CropAt.invalid (a : CropAt) : Bool :=
  decide (a.n ≤ a.batch) || a.y0.nonFinite || a.x0.nonFinite || a.y1.nonFinite || a.x1.nonFinite

/-- Output pixel row `i` of the box. -/
def CropAt.run (a : CropAt) (x : Ctx) (s : State) (i : Nat) : E (State × Nat × Nat) :=
  foldE (fun (z : State × Nat × Nat) j => do
    let v ← (if a.invalid then .ok (z.1, List.replicate a.c.c (dec32 a.c.extrap), false) else a.sample x z.1 i j)
    let w ← v.1.putPixel x a.out (cvtOf a.c.cvt) .s4 a.k i j { codes := [], vals := v.2.1 }
    return (w.1, z.2.1 + (if v.2.2 then 1 else 0), z.2.2 + w.2)) (s, 0, 0) (List.range a.c.outW)

/-- The box a unit runs; `ws` its eight words, which it reads when it starts the box (R266). -/
def OnEntry.crop (o : OnEntry) (i out : Region) (ws : List Nat) : CropAt :=
  let c := CropE.ofWords o.ws
  let w (k : Nat) : Nat := ws.getD k 0
  { c := c, img := { r := i, c := c.c, h := o.r.ext c.h, w := o.r.ext c.w }, out := { r := out, c := c.c, h := c.outH, w := c.outW }
    n := o.r.ext c.n, k := o.u.n, batch := w 0, y0 := dec32 (w 2), x0 := dec32 (w 3), y1 := dec32 (w 4), x1 := dec32 (w 5) }

/-- CROP_BOX (R265-R268, R270): one output pixel row of one box. -/
def execCropBox (tok : Nat) (e : EntryUnit) (h : Hazard) (s : State) : Host.Outcome State Fault Refusal :=
  .next (match (s.onEntry tok e.entry e.unit).filter fun o => !o.e.conv && o.e.kind == 4 with
  | none => s
  | some o =>
    let c := CropE.ofWords o.ws
    let x := o.x
    match x.region c.inn.index, x.region c.out.index, x.region c.box.index with
    | some i, some out, some b =>
      o.unitWork s h (fun s => s.scribbleImg x (o.crop i out []).out o.u.n) fun s => do
        let v ← (if o.u.chunk = 0 then do
            let v ← s.rd ((x.p.planeLoc x.binds b false).plus (32 * o.u.n)) 32
            return (v.1, wordsOf 8 v.2)
          else .ok (s, o.u.buf))
        let a := o.crop i out v.2
        let r ← a.run x v.1 o.u.chunk
        let base := 0x154000 + 0x1000 * o.inst
        let last := decide (c.outH ≤ o.u.chunk + 1)
        let s := (r.1.bump64 (base + 8) (if last then 1 else 0)).bump64 (base + 0x10) r.2.1
        let s := (s.bump (base + 0x18) (if last && a.invalid then 1 else 0)).bump (base + 0x1C) r.2.2
        return s.advEntry o last true v.2
    | _, _, _ => s)

end Sys2Proof.Machine
end

