-- ==== Sys2Proof/Machine/Ingest.lean ====
section
/-! DEFINITION. Ingest (09 R275-R290): contexts, stamps, decoded frames, range-scan packets, voxel grids, sealing and lateness. What a
codec's bitstream decodes to is the operand of VIDEO_FRAME. -/

namespace Sys2Proof.Machine

/-! ## Sensors and contexts (R275-R278) -/

/-- A signed number of `n` bits. -/
def sgn (n v : Nat) : Int := if v < 2 ^ (n - 1) then (v : Int) else (v : Int) - (2 ^ n : Nat)

/-- Channels of a sensor's tensor (R280, R285). -/
def Sensor.chans (x : Sensor) : Nat := if x.kind = 3 then x.nz + 4 else 3
/-- Channels per group (R244). -/
def Sensor.cb (x : Sensor) : Nat := if x.c32 then 32 else 16
/-- Its element format. -/
def Sensor.ef (x : Sensor) : EFmt := (EFmt.ofCode x.fmt).getD .b16
/-- Groups of channels over all pixels. -/
def Sensor.cells (x : Sensor) : Nat := (x.chans + x.cb - 1) / x.cb * x.h * x.w
/-- Bytes of the element plane. -/
def Sensor.elemBytes (x : Sensor) : Nat := x.cells * x.cb * x.ef.bits / 8
/-- Bytes of the scale plane of an S8 tensor, which follows the element plane (log entry 32). -/
def Sensor.scaleBytes (x : Sensor) : Nat := if x.ef.scaled then x.cells * (x.cb / 16) else 0
/-- Bytes of the tensor. -/
def Sensor.bytes (x : Sensor) : Nat := x.elemBytes + x.scaleBytes

/-- A SENSOR_TABLE entry from its 32 words (R277). -/
def Sensor.ofWords (ws : List Nat) : Sensor :=
  { kind := eF ws 0 7 0, fmt := eF ws 0 11 8, c32 := eF ws 0 12 12 == 1, mat := eF ws 0 14 13, full := eF ws 0 15 15 == 1
    buf := eW ws 4, offset := sgn 64 (eQ ws 8), origin := eQ ws 0x10, drift := sgn 32 (eW ws 0x18), w := eF ws 0x1C 31 16
    h := eF ws 0x1C 15 0, extr := (List.range 7).map fun i => eW ws (0x20 + 4 * i)
    grid := (List.range 5).map fun i => eW ws (0x40 + 4 * i), nz := eF ws 0x54 4 0 }

/-- A positive finite binary32 code. -/
def posCode (c : Nat) : Bool :=
  match dec32 c with
  | .fin s m _ => !s && m != 0
  | _ => false

/-- The entry breaks R277 or R285. -/
def sensorBad (ws : List Nat) : Bool :=
  let x := Sensor.ofWords ws
  let zero (os : List Nat) : Bool := os.all fun o => eW ws o == 0
  x.kind == 0 || decide (3 < x.kind) || eF ws 0 31 16 != 0 || x.fmt == 0 || decide ((if x.kind = 3 then 2 else 3) < x.fmt) || x.mat == 3 ||
  x.buf % 512 != 0 || decide (x.drift < -1000000) || decide (1000000 < x.drift) || x.w == 0 || x.h == 0 ||
  !zero ((List.range 8).map fun i => 0x60 + 4 * i) ||
  (x.kind == 3 && (decide (2048 < x.w) || decide (2048 < x.h) || x.nz == 0 || decide (28 < x.nz) || eF ws 0x54 31 5 != 0 ||
    !zero [0x3C, 0x58, 0x5C] || !posCode (x.grid.getD 3 0) || !posCode (x.grid.getD 4 0)))

/-- Two tensors of the table overlap, or one does not fit after the slot record (R276). -/
def sensorsClash (slotBytes : Nat) : List Sensor → Bool
  | [] => false
  | x :: xs =>
    decide (x.buf < 512) || decide (slotBytes < x.buf + x.bytes) ||
    (xs.any fun y => decide (x.buf < y.buf + y.bytes) && decide (y.buf < x.buf + x.bytes)) || sensorsClash slotBytes xs

/-- A scene's ingest context. -/
def State.ing (s : State) (sc : Nat) : Option Ingest := SMap.get (fun _ => none) s.ingest sc
/-- A scene's ingest context changed. -/
def State.setIng (s : State) (sc : Nat) (x : Option Ingest) : State := { s with ingest := SMap.set (fun _ => none) sc x s.ingest }

/-- INGEST_OPEN (R275, R276). -/
def execIngestOpen (tok : Nat) (s : State) : Host.Outcome State Fault Refusal :=
  .next (match s.mayBegin tok 0x0500 with
  | none => s
  | some c =>
    let sc := c.ingScene
    let n := c.f 0x44 5 0
    let slots := c.f 0x54 12 0
    let bytes := c.w 0x60
    let period := c.w 0x50
    if period < 1000000 ∨ 1000000000 < period ∨ slots < 2 ∨ 4096 < slots ∨ bytes % 4096 ≠ 0 ∨ n = 0 ∨ 32 < n ∨ c.w 0x64 < 2 ∨ 1048576 < c.w 0x64
      then s.instant tok 0x1001 0
    else
      s.after (do
        let r ← s.rd (.dva (c.q 0x68)) (128 * n)
        let es := (List.range n).map fun i => wordsOf 32 ((r.2.drop (128 * i)).take 128)
        let xs := es.map Sensor.ofWords
        let s := r.1
        if es.any sensorBad || sensorsClash bytes xs then return s.instant tok 0x1001 0
        else if (s.ing sc).isSome then return s.instant tok 0x2006 0
        else if (s.scene sc).isNone then return s.instant tok 0x2007 0
        else
          return (s.setIng sc (some { epoch := c.q 0x48, period := period, ringBase := c.q 0x58, ringSlots := slots, slotBytes := bytes
                                      sensors := xs, poseBase := c.q 0x70, poseCount := c.w 0x64, live := c.flag 0
                                      sealSync := c.f 0x44 29 16 })).instant tok 0 0) fun st d => s.instant tok st d)

/-- INGEST_CLOSE (R275). -/
def execIngestClose (tok : Nat) (s : State) : Host.Outcome State Fault Refusal :=
  .next (match s.mayBegin tok 0x0501 with
  | none => s
  | some c => (s.setIng c.ingScene none).instant tok 0 0)

/-- The IT of a sensor stamp (R278). -/
def Sensor.itOf (x : Sensor) (stamp : Nat) : Int :=
  (stamp : Int) + x.offset + (((stamp : Int) - x.origin) * x.drift).fdiv 1000000000

/-! ## Slots (R275, R286-R290) -/

/-- Where slot `k`'s buffer lies. -/
def Ingest.bufOf (x : Ingest) (k : Nat) : Nat := x.ringBase + k % x.ringSlots * x.slotBytes
/-- The slot of an IT; none below EPOCH. -/
def Ingest.slotOf (x : Ingest) (it : Int) : Option Nat :=
  if it < x.epoch then none else some ((it - x.epoch).toNat / x.period)
/-- The slot's ring buffer is free for it: slot `k - RING_SLOTS` is released (R289). -/
def Ingest.canOpen (x : Ingest) (k : Nat) : Bool := decide (k < x.releasedTo + x.ringSlots)
/-- An opened slot. -/
def Ingest.slot (x : Ingest) (k : Nat) : Option IngSlot := x.slots.find? fun y => y.k == k
/-- An opened slot changed. -/
def Ingest.updSlot (x : Ingest) (k : Nat) (f : IngSlot → IngSlot) : Ingest :=
  { x with slots := x.slots.map fun y => if y.k = k then f y else y }

/-- Opening a slot writes its record and its tensors to zero (R289). -/
def State.openSlot (s : State) (x : Ingest) (k : Nat) : E (State × Ingest) :=
  if (x.slot k).isSome then .ok (s, x)
  else do
    let b := x.bufOf k
    let s ← (s.store (.dva b) 512 []).e
    let s ← foldE (fun (s : State) y => (s.store (.dva (b + y.buf)) y.bytes []).e) s x.sensors
    return (s, { x with slots := x.slots ++ [{ k := k }] })

/-- The context a sensor's tensor is reached through. -/
def tensorCtx (base : Nat) : Ctx :=
  { p := { image := {}, map := [], palBase := [], groupPanel := [], shrBase := [], statics := [], flags := 0, crc := 0 }
    binds := [(base, 0)] }

/-- The image a sensor's tensor is (R244). -/
def Sensor.img (x : Sensor) : Img :=
  { r := { rho := 0, bind := 0, layout := if x.c32 then 3 else 2, block := 1, fmt := x.fmt, kind := 0, binding := 0, owner := 0
           elemBase := 0, elemBytes := x.elemBytes, scaleBase := x.elemBytes, scaleBytes := x.scaleBytes, rowPitch := 0
           scalePitch := 0, rows := 0, rowElems := 0 }
    c := x.chans, h := x.h, w := x.w }

/-- Round to nearest even with SAT, BLOCK 16, FLOOR (R280, R285). -/
def Sensor.cvt (x : Sensor) : Cvt := { fmt := x.ef, sat := true, ceil := false, block := 16, rnd := 1 }

/-- Write pixels `(row, column, values)` of a sensor's tensor in slot `k`. -/
def State.writeTensor (s : State) (x : Ingest) (k : Nat) (sn : Sensor) (ps : List (Nat × Nat × List Val)) : E State :=
  foldE (fun (s : State) p => s.writePixel (tensorCtx (x.bufOf k + sn.buf)) sn.img sn.cvt 0 p.1 p.2.1 p.2.2) s ps

/-- The per-scene counters (R291), by offset in the scene's row. -/
def ingCounter (sc o : Nat) : Nat := 0x300100 + 0x20 * sc + o

/-- One event of a command: its counter and the number in DETAIL (R282). -/
def State.ingEvent (s : State) (tok sc o : Nat) : State :=
  (s.bump (ingCounter sc o) 1).updCmd tok fun c => { c with detail := c.detail + 1 }

/-- The bits of a word, one for each sensor. -/
def sensBits (y : IngSlot) (q : SlotSens → Bool) : Nat :=
  (List.range 32).foldl (fun v i => v + if q (SMap.get (fun _ => {}) y.sens i) then 2 ^ i else 0) 0

/-- The slot record (R290). -/
def slotRecord (x : Ingest) (y : IngSlot) : List Byte :=
  leBytes 8 y.k ++ leBytes 8 (x.epoch + y.k * x.period) ++ leBytes 4 (sensBits y (·.present)) ++ leBytes 4 (sensBits y (·.corrupt)) ++
  leBytes 4 (sensBits y (·.late)) ++ leBytes 4 y.points ++ List.replicate 224 0 ++
  ((List.range 32).flatMap fun i => let z := SMap.get (fun _ => {}) y.sens i; leBytes 8 (if z.present then z.it else 0))

/-- The channels of one column of a grid (R285). -/
def GridCol.vals (g : GridCol) (nz : Nat) : List Val :=
  ((List.range nz).map fun b => Val.ofNat (SMap.get (fun _ => 0) g.bins b)) ++
  [div32 (div32 (Val.ofNat g.sum) (Val.ofNat g.count)) (Val.ofNat 255), dec32 g.lo, dec32 g.hi, Val.ofNat g.count]

/-- The key of a grid column. -/
def colKey (sensor row col : Nat) : Nat := sensor * 4194304 + row * 2048 + col

/-- Write the grids of a slot: columns with no point stay zero. -/
def State.writeGrids (s : State) (x : Ingest) (y : IngSlot) : E State :=
  foldE (fun (s : State) e =>
    match x.sensors[e.1 / 4194304]? with
    | none => .ok s
    | some sn => s.writeTensor x y.k sn [(e.1 / 2048 % 2048, e.1 % 2048, e.2.vals sn.nz)]) s y.cols

/-- Seal the lowest open slot (R287, R290): its grids and its record are written, then SEAL_SYNC is signalled. A slot whose ring buffer is
not free is sealed without being written (live mode alone: log entry 32). -/
def State.sealNext (s : State) (sc : Nat) (x : Ingest) : E (State × Ingest) := do
  let k := x.sealedTo
  let done (s : State) (x : Ingest) : State × Ingest :=
    let x := { x with sealedTo := k + 1, slots := x.slots.filter fun y => y.k != k }
    ((s.setIng sc (some x)).freeSignal x.sealSync 1, x)
  if !x.canOpen k then return done s x
  let r ← s.openSlot x k
  match r.2.slot k with
  | none => return done r.1 r.2
  | some y =>
    let s ← r.1.writeGrids r.2 y
    let s ← s.wr (.dva (r.2.bufOf k)) (slotRecord r.2 y)
    return done s r.2

/-- Seal open slots up to `k` while their buffers are free. -/
def State.sealTo (sc k : Nat) : Nat → State → Ingest → E (State × Ingest)
  | 0, s, x => .ok (s, x)
  | fuel + 1, s, x =>
    if k < x.sealedTo || !x.canOpen x.sealedTo then .ok (s, x)
    else (s.sealNext sc x).bind fun r => State.sealTo sc k fuel r.1 r.2

/-- RELEASE_THROUGH: sealed slots up to it are released. -/
def Ingest.release (x : Ingest) (k : Nat) : Ingest := { x with releasedTo := max x.releasedTo (min (k + 1) x.sealedTo) }

/-- The seal and release of an INGEST_SEAL as far as they can go now; it ends once every slot asked for is sealed (R287, R289). -/
def State.ingestSeal (s : State) (c : Cmd) (x : Ingest) : State :=
  let sc := c.ingScene
  let release (s : State) (x : Ingest) : State × Ingest :=
    if c.flag 1 then let y := x.release (c.q 0x50); (s.setIng sc (some y), y) else (s, x)
  let r0 := release s x
  if !c.flag 0 || x.live then r0.1.endCmd c.tok 0 0
  else if r0.1.ingestBefore c then r0.1
  else
    let k := c.q 0x48
    s.after (do
      let r ← State.sealTo sc k (k + 1 - x.sealedTo) r0.1 r0.2
      let r1 := release r.1 r.2
      let r ← State.sealTo sc k (k + 1 - r1.2.sealedTo) r1.1 r1.2
      return (if k < r.2.sealedTo then (release r.1 r.2).1.endCmd c.tok 0 0 else r.1)) fun st d => s.endCmd c.tok st d

/-- An INGEST_SEAL row: the command begins, or goes on. -/
def State.sealRow (s : State) (tok : Nat) (mine : Cmd → Bool) : State :=
  let go (s : State) (c : Cmd) : State :=
    match s.ing c.ingScene with
    | some x => s.ingestSeal c x
    | none => s
  match (s.mayBegin tok 0x0505).filter mine with
  | some c => go (s.begin_ tok) c
  | none =>
    match (s.running tok).filter fun c => c.op == 0x0505 && mine c with
    | some c => go s c
    | none => s

/-- INGEST_SEAL with SEAL, or with neither flag (R287). -/
def execIngestSeal (tok : Nat) (s : State) : Host.Outcome State Fault Refusal :=
  .next (s.sealRow tok fun c => c.flag 0 || !c.flag 1)

/-- INGEST_SEAL with RELEASE alone (R289). -/
def execIngestRelease (tok : Nat) (s : State) : Host.Outcome State Fault Refusal :=
  .next (s.sealRow tok fun c => !c.flag 0 && c.flag 1)

/-- SLOT_SEAL (R287): in live mode IT reaches the lowest open slot's end plus ING_GUARD. -/
def execSlotSeal (scene : Fin 24) (it : Nat) (s : State) : Host.Outcome State Fault Refusal :=
  .next (
    let s := s.advance it
    match s.ing scene.val with
    | none => s
    | some x =>
      if !s.live || !x.live || decide (s.itNow < x.epoch + (x.sealedTo + 1) * x.period + (s.reg 0x300018).toNat) then s
      else
        match s.sealNext scene.val x with
        | .ok r => r.1
        | .error (.err _ _) =>
          let y := { x with sealedTo := x.sealedTo + 1, slots := x.slots.filter fun z => z.k != x.sealedTo }
          (s.setIng scene.val (some y)).freeSignal x.sealSync 1
        | .error _ => s)

/-! ## Video and stills (R279-R282, R286, R288) -/

/-- A frame lies within the limits of its codec (R279) and has its sensor's size. -/
def picOk (p : Picture) (sn : Sensor) : Bool :=
  let size (a b c d : Nat) : Bool := decide (a ≤ p.w) && decide (p.w ≤ b) && decide (c ≤ p.h) && decide (p.h ≤ d)
  let coded (kind profiles level : Nat) : Bool := sn.kind == kind && decide (p.profile < profiles) && decide (p.level ≤ level)
  !p.interlaced && !p.layered && !p.grain && p.w == sn.w && p.h == sn.h &&
  (match p.codec.val with
   | 0 => coded 1 3 52 && p.depth == 8 && p.chroma == 1 && size 64 4096 64 2304
   | 1 => coded 1 3 61 && (p.depth == 8 || p.depth == 10) && (p.chroma == 1 || p.chroma == 2) && size 64 8192 64 4352
   | 2 => coded 1 1 61 && (p.depth == 8 || p.depth == 10) && (p.chroma == 0 || p.chroma == 1) && size 64 8192 64 4352
   | _ => sn.kind == 2 && p.profile == 0 && p.depth == 8 && size 1 16384 1 16384)

/-- Decode waits for a random-access point: at the command's start (R281), and after a corrupt frame (R282). The second number of an ingest
command's place in its bitstream says 0 where a frame has been decoded since. -/
def Cmd.awaitsEntry (c : Cmd) : Bool := c.targets.getD 1 1 == 1

/-- The frame is decoded: it lies within the limits, and where decode waits for a random-access point it is one (R279, R281, R282). A still
is one. -/
def Cmd.decodes (c : Cmd) (p : Picture) (sn : Sensor) : Bool := picOk p sn && (!c.awaitsEntry || p.entry || p.codec == 3)

/-- A luma sample's value (R280 step 1). -/
def lumaVal (full : Bool) (n v : Nat) : Val :=
  if full then div32 (Val.ofNat v) (Val.ofNat (2 ^ n - 1))
  else div32 (Val.ofInt ((v : Int) - (16 * 2 ^ (n - 8) : Nat))) (Val.ofNat (219 * 2 ^ (n - 8)))

/-- A chroma sample's value; in full range about the middle code (log entry 32). -/
def chromaVal (full : Bool) (n v : Nat) : Val :=
  if full then sub32 (div32 (Val.ofNat v) (Val.ofNat (2 ^ n - 1))) (div32 (Val.ofNat (2 ^ (n - 1))) (Val.ofNat (2 ^ n - 1)))
  else div32 (Val.ofInt ((v : Int) - (128 * 2 ^ (n - 8) : Nat))) (Val.ofNat (224 * 2 ^ (n - 8)))

/-- Kr and Kb of an ITU-R matrix in ten-thousandths: BT.709, BT.601, BT.2020 (log entry 32). -/
def matrixK (m : Nat) : Nat × Nat := match m with | 0 => (2126, 722) | 1 => (2990, 1140) | _ => (2627, 593)

/-- A value clamped to [0, 1]. -/
def clamp01 (v : Val) : Val :=
  if v.lt Val.zero then Val.zero else if (Val.ofNat 1).lt v then Val.ofNat 1 else v

/-- R, G and B of one pixel (R280 step 3). -/
def rgbOf (m : Nat) (y cb cr : Val) : List Val :=
  let k := matrixK m
  let g := 10000 - k.1 - k.2
  let co (a b : Nat) : Val := div32 (Val.ofNat a) (Val.ofNat b)
  let r := add32 y (mul32 (co (2 * (10000 - k.1)) 10000) cr)
  let b := add32 y (mul32 (co (2 * (10000 - k.2)) 10000) cb)
  let gr := sub32 (sub32 y (mul32 (co (2 * k.2 * (10000 - k.2)) (10000 * g)) cb)) (mul32 (co (2 * k.1 * (10000 - k.1)) (10000 * g)) cr)
  [clamp01 r, clamp01 gr, clamp01 b]

/-- The values of pixel `(i, j)` of a frame: chroma by replication (R280 steps 1 to 3). -/
def picPixel (p : Picture) (sn : Sensor) (i j : Nat) : List Val :=
  let y := lumaVal sn.full p.depth (p.luma.getD (i * p.w + j) 0)
  if p.chroma.val = 0 then List.replicate 3 (clamp01 y)
  else
    let ci := if p.chroma.val = 1 then i / 2 else i
    let cj := if p.chroma.val = 3 then j else j / 2
    let cw := if p.chroma.val = 3 then p.w else (p.w + 1) / 2
    let at_ (xs : List Nat) : Val := chromaVal sn.full p.depth (xs.getD (ci * cw + cj) 0)
    rgbOf sn.mat y (at_ p.cb) (at_ p.cr)

/-- The pixels of a frame. -/
def picPixels (p : Picture) (sn : Sensor) : List (Nat × Nat × List Val) :=
  (List.range p.h).flatMap fun i => (List.range p.w).map fun j => (i, j, picPixel p sn i j)

/-- A frame goes into slot `k` for sensor `i`; `late`: as a late one (R286, R288). Counts the frame that is discarded. -/
def State.placeFrame (s : State) (c : Cmd) (x : Ingest) (i : Nat) (sn : Sensor) (it : Nat) (k : Nat) (late : Bool) (p : Picture) : E State := do
  let sc := c.ingScene
  let r ← s.openSlot x k
  let z : SlotSens := match r.2.slot k with
    | some y => SMap.get (fun _ => {}) y.sens i
    | none => {}
  let wins := !z.present || (!late && (decide (it < z.it) || (it == z.it && decide (c.order < z.order))))
  let s := r.1.setIng sc (some r.2)
  if !wins then return s.ingEvent c.tok sc 0xC
  else
    let s ← s.writeTensor r.2 k sn (picPixels p sn)
    let y := r.2.updSlot k fun y =>
      { y with sens := SMap.set (fun _ => {}) i { z with present := true, late := late, it := it, order := c.order } y.sens }
    let s := (s.setIng sc (some y)).bump64 0x300008 1
    return (if z.present then s.ingEvent c.tok sc 0xC else s)

/-- A frame that cannot be decoded marks its slot's sensor, where the slot is open (R282). -/
def State.corruptFrame (s : State) (c : Cmd) (x : Ingest) (i k : Nat) : E State := do
  let sc := c.ingScene
  let s := s.ingEvent c.tok sc 0x10
  if k < x.sealedTo ∨ !x.canOpen k then return s
  let r ← s.openSlot x k
  return r.1.setIng sc (some (r.2.updSlot k fun y =>
    { y with sens := SMap.modify (fun _ => {}) i (fun z => { z with corrupt := true }) y.sens }))

/-- One frame of a command: where it goes by R275, R286, R288 and R289; it waits in log replay for a buffer that is not free. -/
def State.takeFrameOf (s : State) (c : Cmd) (x : Ingest) (i : Nat) (sn : Sensor) (stamp : Nat) (p : Option Picture) : E State :=
  let sc := c.ingScene
  let it := sn.itOf stamp
  match x.slotOf it with
  | none => .ok (s.ingEvent c.tok sc (match p with | some _ => 0xC | none => 0x10))
  | some k =>
    let late := decide (k < x.sealedTo)
    let k' := if late then x.sealedTo else k
    match p with
    | none => if !late && !x.canOpen k && !x.live then throw .wait else s.corruptFrame c x i k
    | some p =>
      if !x.canOpen k' then
        (if !x.live then throw .wait
         else .ok ((if late then s.ingEvent c.tok sc 8 else s).ingEvent c.tok sc 0xC))
      else (if late then s.ingEvent c.tok sc 8 else s).placeFrame c x i sn it.toNat k' late p

/-- An ingest command ends: INGEST_NOTED where it counted an event (R282). -/
def State.endIngest (s : State) (tok : Nat) : State :=
  match s.cmd tok with
  | none => s
  | some c => (s.dropUnits tok).endCmd tok (if c.detail = 0 then 0 else 0x0103) c.detail

/-- INGEST_VIDEO, INGEST_STILL and INGEST_SCAN begin on a unit of their kind; a sensor of another KIND is refused. -/
def State.beginIngest (s : State) (tok op kind unit base bytes : Nat) : State :=
  match s.mayBegin tok op with
  | none => s
  | some c =>
    match (s.ing c.ingScene).bind fun x => x.sensors[c.f 0x40 12 8]? with
    | none => s.instant tok 0x1001 0
    | some sn =>
      if sn.kind ≠ kind then s.instant tok 0x1001 0
      else if dvaEnd < c.q base + c.q bytes then s.instant tok 0x1006 0
      else if kind = 3 ∧ c.q bytes = 0 then s.instant tok 0 0
      else ((s.begin_ tok).updCmd tok fun c => { c with targets := [0] }).addUnit tok unit 0 []

/-- INGEST_VIDEO (R281). -/
def execIngestVideo (tok : Nat) (s : State) : Host.Outcome State Fault Refusal := .next (s.beginIngest tok 0x0502 1 7 0x48 0x50)
/-- INGEST_STILL (R281). -/
def execIngestStill (tok : Nat) (s : State) : Host.Outcome State Fault Refusal := .next (s.beginIngest tok 0x0503 2 7 0x48 0x50)
/-- INGEST_SCAN (R283). -/
def execIngestScan (tok : Nat) (s : State) : Host.Outcome State Fault Refusal := .next (s.beginIngest tok 0x0504 3 8 0x48 0x50)

/-- A running ingest command with its unit, its context and its sensor. -/
def State.ingWork (s : State) (tok unit : Nat) : Option (Cmd × SUnit × Ingest × Nat × Sensor) :=
  match (s.running tok).filter fun c => c.phase == .running with
  | none => none
  | some c =>
    match (s.unitOf tok unit 0).filter (·.held), s.ing c.ingScene with
    | some u, some x => (x.sensors[c.f 0x40 12 8]?).map fun sn => (c, u, x, c.f 0x40 12 8, sn)
    | _, _ => none

/-- A read or write of an ingest command's work failed: what was written stays (R282). -/
def State.failIngest (s : State) (c : Cmd) (src st d : Nat) : State :=
  let s := s.noteRead c src st d
  (s.dropUnits c.tok).endCmd c.tok st 0

/-- VIDEO_FRAME (R279-R282, R286, R288, R289): the next frame of the command in display order, `used` bytes of its bitstream further on;
`frame`: what it decodes to, none where it cannot be decoded, a frame it depends on being corrupt among the reasons. -/
def execVideoFrame (tok : Nat) (used : Nat) (frame : Option Picture) (s : State) : Host.Outcome State Fault Refusal :=
  .next (match s.ingWork tok 7 with
  | none => s
  | some (c, u, x, i, sn) =>
    let off := c.targets.headD 0
    let n := min used (c.q 0x50 - off)
    let frame := frame.filter fun p => c.decodes p sn
    s.after (do
      let r ← s.rdCells true (.dva (c.q 0x48 + off)) n
      let s ← r.1.takeFrameOf c x i sn ((c.items.getD c.total []).headD 0) frame
      let s := s.updCmd tok fun c => { c with total := c.total + 1, targets := [off + n, if frame.isNone then 1 else 0] }
      return (if c.items.length ≤ c.total + 1 then s.endIngest tok else s)) fun st d => s.failIngest c (srcUnit 7 u.inst) st d)

/-! ## Range scans (R283-R285, R288, R289) -/

/-- Three values. -/
abbrev V3 := Val × Val × Val

/-- Component-wise operations of binary32 vectors. -/
def v3add (a b : V3) : V3 := (add32 a.1 b.1, add32 a.2.1 b.2.1, add32 a.2.2 b.2.2)
/-- Difference. -/
def v3sub (a b : V3) : V3 := (sub32 a.1 b.1, sub32 a.2.1 b.2.1, sub32 a.2.2 b.2.2)
/-- A vector times a number. -/
def v3scale (k : Val) (a : V3) : V3 := (mul32 k a.1, mul32 k a.2.1, mul32 k a.2.2)
/-- Cross product. -/
def v3cross (a b : V3) : V3 :=
  (sub32 (mul32 a.2.1 b.2.2) (mul32 a.2.2 b.2.1), sub32 (mul32 a.2.2 b.1) (mul32 a.1 b.2.2), sub32 (mul32 a.1 b.2.1) (mul32 a.2.1 b.1))

/-- A pose: quaternion w and x, y, z, and translation. -/
structure Pose where
  w : Val
  u : V3
  t : V3
deriving DecidableEq, Repr

/-- A pose from seven binary32 codes. -/
def Pose.ofCodes (cs : List Nat) : Pose :=
  let v (i : Nat) : Val := dec32 (cs.getD i 0)
  { w := v 0, u := (v 1, v 2, v 3), t := (v 4, v 5, v 6) }

/-- Rotate a vector: `v + w t + u × t` with `t = 2 (u × v)` (the order of operations is log entry 32). -/
def rotate (w : Val) (u v : V3) : V3 :=
  let t := v3scale (Val.ofNat 2) (v3cross u v)
  v3add (v3add v (v3scale w t)) (v3cross u t)

/-- Into the outer frame. -/
def Pose.app (p : Pose) (v : V3) : V3 := v3add (rotate p.w p.u v) p.t
/-- Back from the outer frame. -/
def Pose.inv (p : Pose) (v : V3) : V3 := rotate p.w (p.u.1.neg, p.u.2.1.neg, p.u.2.2.neg) (v3sub v p.t)

/-- Between two poses (R284): lerp of the translation, normalised lerp of the rotation along the shorter arc. -/
def Pose.between (a b : Pose) (k : Val) : Pose :=
  let dot := add32 (add32 (add32 (mul32 a.w b.w) (mul32 a.u.1 b.u.1)) (mul32 a.u.2.1 b.u.2.1)) (mul32 a.u.2.2 b.u.2.2)
  let b' : Pose := if dot.lt Val.zero then { b with w := b.w.neg, u := (b.u.1.neg, b.u.2.1.neg, b.u.2.2.neg) } else b
  let w := lerp a.w b'.w k
  let u : V3 := (lerp a.u.1 b'.u.1 k, lerp a.u.2.1 b'.u.2.1 k, lerp a.u.2.2 b'.u.2.2 k)
  let n := sqrt32 (add32 (add32 (add32 (mul32 w w) (mul32 u.1 u.1)) (mul32 u.2.1 u.2.1)) (mul32 u.2.2 u.2.2))
  { w := div32 w n, u := (div32 u.1 n, div32 u.2.1 n, div32 u.2.2 n)
    t := (lerp a.t.1 b'.t.1 k, lerp a.t.2.1 b'.t.2.1 k, lerp a.t.2.2 b'.t.2.2 k) }

/-- The pose at a time, from the table's cells; none outside [IT_0, IT_last) (R284). -/
def poseAt (cs : SMap Byte) (n : Nat) (t : Int) : Option Pose :=
  let it (i : Nat) : Nat := cU cs (48 * i) 8
  let codes (i : Nat) : List Nat := (List.range 7).map fun j => cW cs (48 * i + 8 + 4 * j)
  ((List.range (n - 1)).find? fun i => decide ((it i : Int) ≤ t) && decide (t < (it (i + 1) : Int))).map fun i =>
    let k := div32 (Val.ofInt (t - it i)) (Val.ofInt ((it (i + 1) : Int) - it i))
    (Pose.ofCodes (codes i)).between (Pose.ofCodes (codes (i + 1))) k

/-- A point record (R283): position, stamp, intensity, invalid flag. -/
structure ScanPt where
  pos : V3
  stamp : Nat
  intensity : Nat
  invalid : Bool
deriving DecidableEq, Repr

/-- A point from its four words. -/
def ScanPt.ofWords (stamp : Nat) (ws : List Nat) : ScanPt :=
  { pos := (dec32 (eW ws 0), dec32 (eW ws 4), dec32 (eW ws 8)), stamp := stamp + 1000 * eF ws 12 15 0, intensity := eF ws 12 23 16
    invalid := eF ws 12 24 24 == 1 }

/-- The grid cell of a position: row, column, bin and z (R285). -/
def Sensor.cellOf (sn : Sensor) (v : V3) : Option (Nat × Nat × Nat) :=
  let g (i : Nat) : Val := dec32 (sn.grid.getD i 0)
  let ix (a o d : Val) (n : Nat) : Option Nat :=
    (div32 (sub32 a o) d).floor?.bind fun k => if 0 ≤ k ∧ k < n then some k.toNat else none
  match ix v.2.1 (g 1) (g 3) sn.h, ix v.1 (g 0) (g 3) sn.w, ix v.2.2 (g 2) (g 4) sn.nz with
  | some r, some c, some b => some (r, c, b)
  | _, _, _ => none

/-- A column after one more point. -/
def GridCol.add (g : GridCol) (b z intensity : Nat) : GridCol :=
  { bins := SMap.modify (fun _ => 0) b (fun n => min (n + 1) 65535) g.bins
    count := min (g.count + 1) 65535
    sum := (g.sum + intensity) % 2 ^ 32
    lo := if g.count = 0 || (dec32 z).lt (dec32 g.lo) then z else g.lo
    hi := if g.count = 0 || (dec32 g.hi).lt (dec32 z) then z else g.hi }

/-- Where one point goes: its cell of its slot, or the counter it is dropped in; it waits for a buffer that is not free in log replay. -/
def ScanPt.place (p : ScanPt) (x : Ingest) (sn : Sensor) (poses : SMap Byte) : E (Nat ⊕ (Nat × Int × Nat × Nat × Nat × Nat)) :=
  if p.invalid || p.pos.1.nonFinite || p.pos.2.1.nonFinite || p.pos.2.2.nonFinite then .ok (.inl 0x14)
  else
    let it := sn.itOf p.stamp
    match x.slotOf it with
    | none => .ok (.inl 0xC)
    | some k =>
      if k < x.sealedTo then .ok (.inl 8)
      else if !x.canOpen k then (if x.live then .ok (.inl 0xC) else throw .wait)
      else
        match poseAt poses x.poseCount it, poseAt poses x.poseCount ((x.epoch + k * x.period : Nat) : Int) with
        | some q, some ref =>
          let v := ref.inv (q.app ((Pose.ofCodes sn.extr).app p.pos))
          (match sn.cellOf v with
           | some (r, c, b) => .ok (.inr (k, it, r, c, b, enc32 v.2.2))
           | none => .ok (.inl 0x14))
        | _, _ => .ok (.inl 0x14)

/-- One point accumulates into its slot's grid, or is counted. -/
def State.takePoint (s : State) (c : Cmd) (i : Nat) (sn : Sensor) (poses : SMap Byte) (p : ScanPt) : E State := do
  let sc := c.ingScene
  match s.ing sc with
  | none => return s
  | some x =>
    match (← p.place x sn poses) with
    | .inl o => return s.ingEvent c.tok sc o
    | .inr (k, it, r, col, b, z) =>
      let o ← s.openSlot x k
      let x := o.2.updSlot k fun y =>
        { y with
          points := min (y.points + 1) (2 ^ 32 - 1)
          cols := SMap.modify (fun _ => {}) (colKey i r col) (fun g => g.add b z p.intensity) y.cols
          sens := SMap.modify (fun _ => {}) i (fun w =>
            { w with present := true, it := if w.present then min w.it it.toNat else it.toNat }) y.sens }
      return (o.1.setIng sc (some x)).bump64 0x300010 1

/-- Where the next packet starts after one that was not taken (R283). -/
def nextPacket (cs : SMap Byte) (bytes off points : Nat) : Nat :=
  if 1 ≤ points ∧ points ≤ 4096 then off + 32 + 16 * points
  else
    let ks := (List.range (bytes / 16 + 1)).map fun j => off + 16 * (j + 1)
    match ks.find? fun o => decide (o + 4 ≤ bytes) && cW cs o == 0x31534356 with
    | some o => o
    | none => bytes

/-- SCAN_PACKET (R283-R285): the packet at the command's place in its range. -/
def execScanPacket (tok : Nat) (s : State) : Host.Outcome State Fault Refusal :=
  .next (match s.ingWork tok 8 with
  | none => s
  | some (c, u, x, i, sn) =>
    let off := c.targets.headD 0
    let bytes := c.q 0x50
    let step (s : State) (o : Nat) : State :=
      let s := s.updCmd tok fun c => { c with targets := [o] }
      if bytes < o + 32 then s.endIngest tok else s
    if bytes < off + 32 then s.endIngest tok
    else
      s.after (do
        let h ← s.rdCells true (.dva (c.q 0x48 + off)) 32
        let points := cU h.2 6 2
        let n := 16 * points
        let fits := decide (1 ≤ points) && decide (points ≤ 4096) && decide (off + 32 + n ≤ bytes)
        let body ← (if fits then h.1.rd (.dva (c.q 0x48 + off + 32)) n else .ok (h.1, []))
        let good := fits && cW h.2 0 == 0x31534356 && cU h.2 4 2 == i && cW h.2 0x14 == crc32c body.2
        if !good then
          let all ← body.1.rdCells true (.dva (c.q 0x48)) bytes
          return step (all.1.ingEvent tok c.ingScene 0x18) (nextPacket all.2 bytes off points)
        else
          let poses ← body.1.rdCells true (.dva x.poseBase) (48 * x.poseCount)
          let stamp := cU h.2 8 8
          let ps := (List.range points).map fun j => ScanPt.ofWords stamp (wordsOf 4 ((body.2.drop (16 * j)).take 16))
          let s ← foldE (fun (s : State) p => s.takePoint c i sn poses.2 p) poses.1 ps
          return step s (off + 32 + n)) fun st d => s.failIngest c (srcUnit 8 u.inst) st d)

end Sys2Proof.Machine
end

