-- ==== Sys2Proof/Machine/Links.lean ====
section
/-! DEFINITION. Links between modules (14 R440-R461, 15 R486): the responder of remote transactions, replies and timeouts, link frames,
port training and failure, and the Ethernet ports. -/

namespace Sys2Proof.Machine

/-! ## The responder (R448-R455, R486) -/

/-- The signed difference of two 32-bit numbers (R455). -/
def sdiff (a b : Nat) : Int :=
  let d : Nat := (a + 2 ^ 32 - b % 2 ^ 32) % 2 ^ 32
  if d < 2 ^ 31 then (d : Int) else (d : Int) - 2 ^ 32

/-- The larger of two SEQ or EPOCH values. -/
def smax (a b : Nat) : Nat := if sdiff a b < 0 then b else a

/-- An incarnation is newer than another (R454). -/
def newerInc (a b : Nat) : Bool :=
  let d := (a + 2 ^ 16 - b % 2 ^ 16) % 2 ^ 16
  decide (1 ≤ d) && decide (d ≤ 32767)

/-- The entry of a source module. -/
def State.source (s : State) (src : Nat) : Option Source := s.sources.find? fun x => x.src == src

/-- Change a source entry. -/
def State.updSource (s : State) (src : Nat) (f : Source → Source) : State :=
  { s with sources := s.sources.map fun x => if x.src = src then f x else x }

/-- SEQ `q` is closed in the source's window (R452). -/
def Source.isClosed (x : Source) (q : Nat) : Bool :=
  x.closed.contains q ||
  (match x.shut with
   | some f => decide (sdiff q f < 0) && !x.applied.contains q && !(x.held.any fun t => t.seq.toNat == q)
   | none => false)

/-- SEQ `q` has been applied or refused. -/
def Source.isDone (x : Source) (q : Nat) : Bool := x.applied.contains q || x.isClosed q

/-- SEQ values at least 4,096 below the highest seen leave the window. -/
def Source.trim (x : Source) : Source :=
  let keep (q : Nat) : Bool := decide (sdiff x.highest q < 4096)
  { x with applied := x.applied.filter keep, closed := x.closed.filter keep }

/-- The highest SEQ seen takes `q` in. -/
def Source.see (x : Source) (q : Nat) : Source :=
  ({ x with highest := if x.seen then smax x.highest q else q, seen := true } : Source).trim

/-- Mark SEQ `q` refused. -/
def Source.refuse (x : Source) (q : Nat) : Source := { x with closed := q :: x.closed.filter (· != q) }

/-- The epoch floor of a client, none before its first transaction. -/
def Source.floor (x : Source) (c : Nat) : Option Nat := SMap.get (fun _ => none) x.floors c

/-- Raise a client's floor to an EPOCH (R455). -/
def Source.raise (x : Source) (c e : Nat) : Source :=
  { x with floors := SMap.set (fun _ => none) c (some (match x.floor c with | some f => smax f e | none => e)) x.floors }

/-- A stale refusal is sent. -/
def State.staleReply (s : State) (t : RxTx) : State := (s.bump 0x200028 1).sendReply t 2

/-- The entry of a transaction's source, a free or idle one taken where it has none; none where the table is full (R453). -/
def State.takeSource (s : State) (t : RxTx) : Option State :=
  let src := t.src.toNat
  let fresh : Source := { src := src, inc := t.incarnation.toNat, lastUse := s.itNow }
  match s.source src with
  | some _ => some s
  | none =>
    if s.sources.length < 4096 then some { s with sources := s.sources ++ [fresh] }
    else
      let idle := s.sources.filter fun x => decide (x.lastUse + 2 * s.txTimeout ≤ s.itNow)
      match (idle.map (·.lastUse)).min? with
      | none => none
      | some m =>
        match idle.find? fun x => x.lastUse == m with
        | some y => some { s with sources := (s.sources.filter fun x => x.src != y.src) ++ [fresh] }
        | none => none

/-- The lower SEQ values a held transaction waits for (R452): inside the window and at or above its FLOOR_SEQ. -/
def Source.below (x : Source) (t : RxTx) : List Nat :=
  let n := (sdiff t.seq.toNat t.floorSeq.toNat).toNat
  ((List.range (min 4095 n)).map fun i => (t.seq.toNat + 2 ^ 32 - 1 - i) % 2 ^ 32).filter fun q => decide (sdiff x.highest q < 4096)

/-- A held transaction that may be applied now. -/
def Source.nextHeld (x : Source) : Option RxTx := x.held.find? fun t => (x.below t).all x.isDone

/-- Apply one transaction: the add or the write takes effect, SEQ is marked, the floor rises, the reply goes out (R411, R455). -/
def State.applyRemote (s : State) (t : RxTx) : State :=
  let src := t.src.toNat
  let out (s : State) : State := s.updSource src fun x => { x with held := x.held.filter fun u => u.seq != t.seq }
  if t.add then
    (((out s).updSource src fun x => ({ x with applied := t.seq.toNat :: x.applied } : Source).raise t.client.val t.epoch.toNat).addObj
      t.obj.val t.amount.toNat).sendReply t 0
  else
    match s.wr (.dva t.addr.toNat) t.payload with
    | .ok s => ((out s).updSource src fun x =>
        ({ x with applied := t.seq.toNat :: x.applied } : Source).raise t.client.val t.epoch.toNat).sendReply t 0
    | .error (.err st d) =>
      let s := if st = 0x4002 ∧ d ≠ 0 then s.noteEcc (srcHub 4) t.client.val 0xFFFF 0 d else s
      (out s).updSource src fun x => x.refuse t.seq.toNat
    | .error _ => s

/-- A held transaction is refused: its DEADLINE has come (R452). -/
def State.refuseHeld (s : State) (t : RxTx) : State :=
  (s.updSource t.src.toNat fun x => ({ x with held := x.held.filter fun u => u.seq != t.seq } : Source).refuse t.seq.toNat).staleReply t

/-- Refuse what is held past its DEADLINE and apply what no longer has to wait, in order; each turn takes one. -/
def State.drainSource (src : Nat) : Nat → State → State
  | 0, s => s
  | n + 1, s =>
    match s.source src with
    | none => s
    | some x =>
      match x.held.find? fun t => decide (t.deadline.toNat ≤ s.itNow) with
      | some t => State.drainSource src n (s.refuseHeld t)
      | none =>
        match x.nextHeld with
        | none => s
        | some t =>
          let s' := s.applyRemote t
          if s' = s then s else State.drainSource src n s'

/-- As many turns as transactions are held. -/
def State.drain (s : State) (src : Nat) : State :=
  match s.source src with
  | some x => State.drainSource src x.held.length s
  | none => s

/-- The checks of R455 on a transaction whose source entry is of its incarnation: it is answered, or held until R452 lets it be applied. -/
def State.judgeRemote (s : State) (t : RxTx) : State :=
  let src := t.src.toNat
  let q := t.seq.toNat
  match s.source src with
  | none => s
  | some x =>
    let refuse (s : State) : State := s.updSource src fun x => (x.refuse q).see q
    if t.deadline.toNat ≤ s.itNow then
      (if x.isDone q then s else refuse s).staleReply t
    else if x.seen && decide (4096 ≤ sdiff x.highest q) then s.staleReply t
    else if x.isClosed q then s.staleReply t
    else if x.applied.contains q then (s.bump 0x20002C 1).sendReply t 1
    else if x.held.any fun u => u.seq == t.seq then s
    else if (match x.floor t.client.val with | some f => decide (sdiff t.epoch.toNat f < 0) | none => false) then (refuse s).staleReply t
    else if !t.add && locUnmapped (.dva t.addr.toNat) t.payload.length then (refuse s).sendReply t 3
    else s.updSource src fun x => { (x.see q) with held := x.held ++ [t] }

/-- A transaction's source entry follows its incarnation and its FLOOR_SEQ (R452, R454), and what no longer has to wait is applied; an older
incarnation is refused. -/
def State.arrive (s : State) (t : RxTx) : State :=
  let src := t.src.toNat
  match s.source src with
  | none => s
  | some x =>
    let inc := t.incarnation.toNat
    if inc ≠ x.inc ∧ !newerInc inc x.inc then s.staleReply t
    else
      let s := if inc = x.inc then s.updSource src fun x => { x with lastUse := s.itNow }
        else (x.held.foldl (fun s u => s.staleReply u) s).updSource src fun _ => { src := src, inc := inc, lastUse := s.itNow }
      let s := s.updSource src fun x => { x with shut := some (match x.shut with | some f => smax f t.floorSeq.toNat | none => t.floorSeq.toNat) }
      (s.judgeRemote t).drain src

/-- A transaction addressed to this module arrives on a port: E2E first (R486), then the source table and the checks. -/
def State.remoteIn (s : State) (port : Nat) (t : RxTx) : State :=
  if !s.live || !s.portUp port || t.dst.toNat != s.moduleId then s
  else
    let bad := t.e2e && !t.e2eOk
    let s := if t.e2e then s.hubCheck (txBytes t.payload.length false) bad else s
    match s.takeSource t with
    | none => if bad then (s.bump 0x260040 1).sendReply t 5 else (s.bump 0x200030 1).sendReply t 4
    | some s =>
      if bad then
        (((s.bump 0x260040 1).updSource t.src.toNat fun x =>
          if x.applied.contains t.seq.toNat then x else x.refuse t.seq.toNat).sendReply t 5).drain t.src.toNat
      else s.arrive t

/-- REMOTE_ADD (R411, R452-R455, R486). -/
def execRemoteAdd (port : Fin 12) (tx : RxTx) (it : Nat) (s : State) : Host.Outcome State Fault Refusal :=
  .next (let s := s.advance it; if tx.add then s.remoteIn port.val tx else s)

/-- REMOTE_WRITE (R449, R452-R455, R486). -/
def execRemoteWrite (port : Fin 12) (tx : RxTx) (it : Nat) (s : State) : Host.Outcome State Fault Refusal :=
  .next (let s := s.advance it; if tx.add then s else s.remoteIn port.val tx)

/-- HELD_TRANSACTION_DEADLINE (R452): the held transaction `tx` = source * 2^32 + SEQ is refused once IT reaches its DEADLINE. -/
def execHeldTransactionDeadline (tx : Nat) (it : Nat) (s : State) : Host.Outcome State Fault Refusal :=
  .next (
    let s := s.advance it
    let src := tx / 2 ^ 32
    let q := tx % 2 ^ 32
    match (s.source src).bind fun x => x.held.find? fun t => t.seq.toNat == q with
    | none => s
    | some t =>
      if !s.live || decide (s.itNow < t.deadline.toNat) then s
      else (s.refuseHeld t).drain src)

/-! ## The requester (R453, R457, R486) -/

/-- A late completion (R457): counted, and recorded once per port and window. -/
def State.lateReply (s : State) (port : Nat) (r : RxReply) : State :=
  let s := s.bump 0x200024 1
  let w := s.winOf s.itNow
  if (s.port port).lateWindow = some w then s
  else
    (s.record 0x50 0 (srcHub 4) ([BitVec.ofNat 8 port, 0] ++ leBytes 2 r.src.toNat ++ leBytes 4 r.epoch.toNat)).setPort port
      { s.port port with lateWindow := some w }

/-- REPLY (R453, R455, R457, R486). -/
def execReply (port : Fin 12) (rep : RxReply) (it : Nat) (s : State) : Host.Outcome State Fault Refusal :=
  .next (
    let s := s.advance it
    if !s.live || !s.portUp port.val then s
    else
      match s.openTx.find? fun t => t.dest == rep.src.toNat && t.seq == rep.seq.toNat && t.epoch == rep.epoch.toNat && t.sentOn.isSome &&
          rep.incarnation.toNat == s.lc.incarnation % 65536 with
      | none => s.lateReply port.val rep
      | some t =>
        match rep.result.toNat with
        | 0 => (s.closeTx t).issueWaiting
        | 1 => (s.closeTx t).issueWaiting
        | 2 => (s.failTx t 0x5002 false).issueWaiting
        | 3 => (s.failTx { t with detail := 0 } 0x1006 false).issueWaiting
        | 4 => s.updTx t.id fun t => { t with resendAt := s.itNow + 10000 }
        | 5 => (s.failTx t 0x7001 true).issueWaiting
        | _ => s)

/-- TRANSPORT_TIMEOUT (R457): IT has reached DEADLINE + DEADLINE_SLACK_NS with no reply. -/
def execTransportTimeout (tx : Nat) (it : Nat) (s : State) : Host.Outcome State Fault Refusal :=
  .next (
    let s := s.advance it
    match s.openTx.find? fun t => t.id == tx && t.sentOn.isSome with
    | none => s
    | some t =>
      if !s.live || decide (s.itNow < t.deadline + (s.reg 0x20000C).toNat) then s
      else
        let s := match t.tok with
          | some k => s.updCmd k fun (c : Cmd) => if c.phase = Phase.stopping ∨ c.phase = Phase.draining then { c with drainFail := true } else c
          | none => s
        ((s.bump 0x200020 1).failTx t 0x5001 true).issueWaiting)

/-- SOURCE_FULL_RESEND (R453). -/
def execSourceFullResend (tx : Nat) (it : Nat) (s : State) : Host.Outcome State Fault Refusal :=
  .next (
    let s := s.advance it
    match s.openTx.find? fun t => t.id == tx && t.resendAt != 0 with
    | none => s
    | some t =>
      if !s.live || decide (s.itNow < t.resendAt) then s
      else (s.updTx t.id fun t => { t with resendAt := s.itNow + 10000 }).resendTx t.id)

/-- TRANSIT_FORWARD (R445): a transaction for another module arrives on a Trestle port. -/
def execTransitForward (port : Fin 12) (tx : RxTx) (s : State) : Host.Outcome State Fault Refusal :=
  .next (if s.live && s.portUp port.val && s.portMode port.val == 1 && tx.dst.toNat != s.moduleId then s.forward port.val tx else s)

/-! ## Link frames (R446, R447, R460) -/

/-- A port carries frames of a mode. -/
def State.carries (s : State) (p mode : Nat) : Bool := s.live && s.portUp p && s.portMode p == mode

/-- LINK_FRAME_RECEIVE (R446): the CRC is checked by check-value unit 8 + p; a bad CRC or a gap is answered NAK, a frame already
received is acknowledged again. -/
def execLinkFrameReceive (port : Fin 12) (seq : Nat) (len : Nat) (crcOk : Bool) (s : State) : Host.Outcome State Fault Refusal :=
  .next (
    let p := port.val
    if !s.carries p 1 then s
    else
      let s := s.bump64 (0x240008 + 0x1000 * (8 + p)) len
      let x := s.port p
      let answer (s : State) (a : Answer) : State := s.setPort p { s.port p with answer := some a }
      if !crcOk then answer (s.bump (0x240010 + 0x1000 * (8 + p)) 1) (.nak x.rxSeq)
      else if seq % 65536 = x.rxSeq then s.setPort p { x with rxSeq := (x.rxSeq + 1) % 65536, answer := some (.ack (seq % 65536)) }
      else if (x.rxSeq + 65536 - seq % 65536) % 65536 < 32768 then answer s (.ack ((x.rxSeq + 65535) % 65536))
      else answer s (.nak x.rxSeq))

/-- Change the frames of a port. -/
def State.updFrames (s : State) (p : Nat) (f : Frame → Frame) : State :=
  s.setPort p { s.port p with frames := (s.port p).frames.map f }

/-- Send some frames of a port again (R446, R447, R460): each at most eight times. -/
def State.replay (s : State) (p : Nat) (sel : Frame → Bool) : State :=
  let go (f : Frame) : Bool := sel f && decide (1 ≤ f.sends) && decide (f.sends < 8)
  let n := ((s.port p).frames.filter go).length
  (s.bump64 (0x200110 + 0x40 * p) n).updFrames p fun f => if go f then { f with sends := f.sends + 1, lastAt := s.itNow } else f

/-- NAK_RECEIVED (R446, R447): the frame is replayed; one answered NAK after its eighth send is spent. -/
def execNakReceived (port : Fin 12) (seq : Nat) (s : State) : Host.Outcome State Fault Refusal :=
  .next (
    let p := port.val
    if !s.carries p 1 then s
    else
      let last (f : Frame) : Bool := f.seq == seq % 65536 && decide (8 ≤ f.sends)
      if (s.port p).frames.any last then s.updFrames p fun f => if last f then { f with spent := true } else f
      else s.replay p fun f => f.seq == seq % 65536)

/-- ACK_RECEIVED (R446): frames up to and including `seq` are acknowledged. -/
def execAckReceived (port : Fin 12) (seq : Nat) (s : State) : Host.Outcome State Fault Refusal :=
  .next (
    let p := port.val
    if !(s.live && s.portUp p) then s
    else
      let open_ (f : Frame) : Bool := f.sends == 0 || decide (32768 ≤ (seq % 65536 + 65536 - f.seq) % 65536)
      s.setPort p { s.port p with frames := (s.port p).frames.filter open_ })

/-- ACK_TIMER (R446): 1 µs has passed since the last send of a frame. -/
def execAckTimer (port : Fin 12) (it : Nat) (s : State) : Host.Outcome State Fault Refusal :=
  .next (
    let s := s.advance it
    if s.carries port.val 1 then s.replay port.val fun f => decide (f.lastAt + 1000 ≤ s.itNow) else s)

/-- ROCE_RETRANSMIT (R460): the acknowledgement timeout of a SEND has passed. -/
def execRoceRetransmit (port : Fin 12) (seq : Nat) (s : State) : Host.Outcome State Fault Refusal :=
  .next (if s.carries port.val 2 then s.replay port.val fun f => f.seq == seq % 65536 else s)

/-- The acknowledgement timeout of a port: 1 µs on Trestle, 4.096 µs × 2^ACK_EXP on Ethernet. -/
def State.ackTimeout (s : State) (p : Nat) : Nat :=
  if s.portMode p = 2 then 4096 * 2 ^ s.fld (0x200100 + 0x40 * p) 11 8 else 1000

/-- A frame has failed its link (R447): eight sends without acknowledgement, or the replay window has passed. -/
def State.frameFailed (s : State) (p : Nat) (f : Frame) : Bool :=
  (decide (8 ≤ f.sends) && (f.spent || decide (f.lastAt + s.ackTimeout p ≤ s.itNow))) ||
  (decide (1 ≤ f.sends) && decide (f.firstAt + s.replayWindow p ≤ s.itNow))

/-- LINK_FAIL (R447, R460). -/
def execLinkFail (port : Fin 12) (s : State) : Host.Outcome State Fault Refusal :=
  .next (
    let p := port.val
    if !(s.live && s.portUp p && (s.port p).frames.any (s.frameFailed p)) then s
    else
      let n := (s.port p).frames.length
      let s := (s.bump (0x20011C + 0x40 * p) 1).record 0x51 1 (srcHub 4) ([BitVec.ofNat 8 p, 0, 0, 0] ++ leBytes 4 n)
      (s.setPort p { s.port p with st := .retrain, tryAt := s.itNow }).abandonEye p |>.failover p)

/-! ## Training (R441, R442, R447) -/

/-- A port comes UP: traffic that waited for it goes on. -/
def State.portUpNow (s : State) (p rate : Nat) : State :=
  let s := if (s.port p).trained then s.bump (0x200118 + 0x40 * p) 1 else s
  (s.setPort p { s.port p with st := .up, rate := rate, trained := true }).forwardWaiting.issueWaiting

/-- TRAINING_DONE (R441): all four lanes trained at a rate the port may use. -/
def execTrainingDone (port : Fin 12) (rate : Nat) (s : State) : Host.Outcome State Fault Refusal :=
  .next (
    let p := port.val
    let want := s.fld (0x200100 + 0x40 * p) 6 4
    if s.live && (s.port p).st == .training && s.portMode p != 0 && decide (1 ≤ rate) && decide (rate ≤ 3) && (want == 0 || want == rate) then
      s.portUpNow p rate
    else s)

/-- RETRAIN_DONE (R447). -/
def execRetrainDone (port : Fin 12) (s : State) : Host.Outcome State Fault Refusal :=
  .next (if s.live && (s.port port.val).st == .retrain then s.portUpNow port.val (s.port port.val).rate else s)

/-- PORT_TRAINING_RETRY (R441): 10 ms after a try that trained at no rate, the next begins. -/
def execPortTrainingRetry (port : Fin 12) (it : Nat) (s : State) : Host.Outcome State Fault Refusal :=
  .next (
    let s := s.advance it
    let x := s.port port.val
    if s.live && x.st == .training && decide (x.tryAt + 10000000 ≤ s.itNow) then s.setPort port.val { x with tryAt := s.itNow } else s)

/-! ## Ethernet (R459, R460) -/

/-- The send rate of a queue pair, in units of 10^-9 of the full rate. -/
def qpFull : Nat := 1000000000

/-- Key of a queue pair: one per port and peer. -/
def qpKey (p dest : Nat) : Nat := p * 65536 + dest

/-- ECN_CNP (R459): the queue pair's rate halves. -/
def execEcnCnp (port : Fin 12) (dest : BitVec 16) (s : State) : Host.Outcome State Fault Refusal :=
  .next (if s.carries port.val 2 then
    { s with qpRate := SMap.modify (fun _ => qpFull) (qpKey port.val dest.toNat) (· / 2) s.qpRate
             qpAt := SMap.set (fun _ => 0) (qpKey port.val dest.toNat) s.itNow s.qpAt } else s)

/-- ECN_RATE_STEP (R459): 50 µs on, the rate rises by 5 % of the full rate. -/
def execEcnRateStep (port : Fin 12) (dest : BitVec 16) (s : State) : Host.Outcome State Fault Refusal :=
  .next (if s.carries port.val 2 then
    { s with qpRate := SMap.modify (fun _ => qpFull) (qpKey port.val dest.toNat) (fun r => min qpFull (r + qpFull / 20)) s.qpRate
             qpAt := SMap.set (fun _ => 0) (qpKey port.val dest.toNat) s.itNow s.qpAt } else s)

/-- ARP_REQUEST (R459, R460): a request for the module's own IPv4 address is answered with ETH_MAC. -/
def execArpRequest (port : Fin 12) (addr : W32) (s : State) : Host.Outcome State Fault Refusal :=
  .next (
    let p := port.val
    let own := s.fld 0x200018 31 16 * 65536 + s.moduleId
    if s.carries p 2 && addr.toNat == own then
      s.setPort p { s.port p with answer := some (.arp own (s.reg64 (0x200130 + 0x40 * p))) }
    else s)

/-- PFC_FRAME (R459): a pause of PFC_PRIO holds what the port sends; its end sends it. -/
def execPfcFrame (port : Fin 12) (prio : Nat) (pause : Bool) (s : State) : Host.Outcome State Fault Refusal :=
  .next (
    let p := port.val
    let cfg := 0x200100 + 0x40 * p
    if s.carries p 2 && s.fld cfg 12 12 == 1 && s.fld cfg 15 13 == prio then
      let s := s.setPort p { s.port p with paused := pause }
      if pause then s
      else s.updFrames p fun f => if f.sends = 0 then { f with sends := 1, firstAt := s.itNow, lastAt := s.itNow } else f
    else s)

end Sys2Proof.Machine
end

