-- ==== Sys2Proof/Machine/Bar0.lean ====
section
/-! DEFINITION. What a write to BAR0 does to the fields of one register (18 R543-R550, R586), and which writes the module takes. -/

namespace Sys2Proof.Machine

/-! ## Field rules -/

/-- The relations of R586, for a field at bit `lo` of the register at `off` when the word written is `v` and the field's part `x`.
WATCH and RELOCATE are judged on the values the write gives both. -/
def State.relOk (s : State) (off lo v x : Nat) : Bool :=
  if off = 0x1C0020 then decide (2 * x ≤ (s.reg 0x1C0024).toNat)
  else if off = 0x1C0024 then decide (2 * (s.reg 0x1C0020).toNat ≤ x)
  else if off = 0x1C0028 then
    let w := bits v 15 8
    let r := bits v 7 0
    let w' := if 3 ≤ w then w else s.fld 0x1C0028 15 8
    let r' := if 4 ≤ r ∧ r ≤ 120 then r else s.fld 0x1C0028 7 0
    decide (w' < r') && (lo == 0 || decide (3 ≤ w))
  else if off = 0x220020 then decide ((s.reg 0x220024).toNat < x)
  else if off = 0x220024 then decide (x < (s.reg 0x220020).toNat)
  else if off = 0x280024 then decide ((s.reg 0x280028).toNat < x)
  else if off = 0x280028 then decide (x < (s.reg 0x280024).toNat)
  else true

/-- Fields that are written only while another field allows it: the queue's rings and sizes while it is DISABLED (R400), ACCT_LOG2 while
ENABLE is 0 (R438), REQ while no switch of profile is in progress (R476). A GO bit of the diagnostics block is its operation's own. -/
def State.openTo (s : State) (a : RegAt) (lo : Nat) : Bool :=
  match a.row.base with
  | 0x10008 => (s.queue a.i).st == .disabled
  | 0x10010 => (s.queue a.i).st == .disabled
  | 0x10018 => (s.queue a.i).st == .disabled
  | 0x20018 => lo == 31 || s.fld 0x20018 31 31 == 0
  | 0x260000 => !s.switching
  | 0x2C0100 => lo != 0
  | 0x2C1000 => lo != 0
  | 0x2C2000 => lo != 0
  | _ => true

/-- A register's stored value. -/
def State.stored (s : State) (a : RegAt) : Nat := if a.row.wide then s.reg64 a.off else (s.reg a.off).toNat

/-- A register's stored value changed. -/
def State.putStored (s : State) (a : RegAt) (v : Nat) : State :=
  if a.row.wide then s.setReg64 a.off v else s.setReg a.off (BitVec.ofNat 32 v)

/-- The block's lock bit is set (R549). -/
def State.locked (s : State) (a : RegAt) : Bool := a.lockOff != 0 && s.fld a.lockOff 0 0 == 1

/-- A field takes the value a write of `v` gives it (R546, R549, R586). -/
def State.takes (s : State) (a : RegAt) (f : RField) (v : Nat) : Bool :=
  (match f.acc with
    | .rw => true
    | .rwl => !s.locked a
    | _ => false) &&
  f.rng.ok (bits v f.hi f.lo) && s.relOk a.off f.lo v (bits v f.hi f.lo) && s.openTo a f.lo

/-- The stored value a write of `v` leaves (R546). -/
def State.written (s : State) (a : RegAt) (v : Nat) : Nat :=
  a.row.fields.foldl (fun w f =>
    let x := bits v f.hi f.lo
    match f.acc with
    | .w1c => putBits w f.hi f.lo (bits w f.hi f.lo &&& (2 ^ (f.hi + 1 - f.lo) - 1 - x))
    | .w1s => putBits w f.hi f.lo (bits w f.hi f.lo ||| x)
    | _ => if s.takes a f v then putBits w f.hi f.lo x else w) (s.stored a)

/-- The name of a pending field (R529). -/
def fieldId (off lo : Nat) : Nat := off * 64 + lo

/-- Pending fields whose software write is accepted are held (R529). -/
def State.markHeld (s : State) (a : RegAt) (v : Nat) : State :=
  let ks := (a.row.fields.filter fun f => f.pendingF && s.takes a f v).map fun f => fieldId a.off f.lo
  { s with heldFields := s.heldFields ++ ks.filter fun k => !s.heldFields.contains k }

/-! ## Which writes are taken (R522, R550) -/

/-- A write at `off` is taken now: while RESET_N is held only SB_READ, since the sketchbook is readable in every state (R497, R580); in safe
state and during a transition only the life-cycle, primer, sketchbook commands, RESET_CTL and the diagnostics block. -/
def State.accepts (s : State) (off : Nat) : Bool :=
  if !s.ready then off == 0x3020 || off == 0x3024
  else if s.safe || s.scraping then
    off == 0x100 || (decide (0x1000 ≤ off) && decide (off < 0x3000)) || off == 0x3020 || off == 0x3024 || off == 0x3040 || off == 0x3044 ||
      (decide (0x2C0000 ≤ off) && decide (off < 0x300000))
  else true

/-- A requester's staged low half (R544). -/
def State.stage (s : State) (r : Requester) : Option Stage :=
  match r with
  | .pcie => s.stagePcie
  | .mgmt => s.stageMgmt

/-- A requester's staged low half changed. -/
def State.setStage (s : State) (r : Requester) (x : Option Stage) : State :=
  match r with
  | .pcie => { s with stagePcie := x }
  | .mgmt => { s with stageMgmt := x }

/-- A write by `r` that reaches an operation at `off`: it discards the requester's staged half (R544), and acts where it is taken. -/
def State.act (s : State) (r : Requester) (off : Nat) (f : State → State) : State :=
  let s := s.setStage r none
  if s.accepts off then f s else s

/-! ## CLEAR bits -/

/-- Counters in a range of offsets are cleared: they read their reset value, 0. -/
def State.clear (s : State) (lo n : Nat) : State := { s with regs := SMap.erase lo n s.regs }

/-- RES_CLEAR (R131). -/
def State.clearRes (s : State) (t : Nat) : State :=
  (s.clear (0x100100 + 0x1000 * t) 16).setTile t { s.tile t with suspects := [] }

/-- GLZ_CLEAR (R206). -/
def State.clearGlz (s : State) (i : Nat) : State := s.clear (0x140008 + 0x1000 * i) 0x1C

/-- ATT_CLEAR (R239). -/
def State.clearAtt (s : State) (i : Nat) : State := s.clear (0x148008 + 0x1000 * i) 0x78

/-- POOL_CLEAR (R242). -/
def State.clearPool (s : State) : State := (s.clear 0x148820 0x18).setFld 0x14881C 23 0 s.poolFree

/-- ITX_CLEAR (R272). -/
def State.clearItx (s : State) (i : Nat) : State := s.clear (0x150008 + 0x1000 * i) 0x14

/-- CRS_CLEAR (R272). -/
def State.clearCrs (s : State) (i : Nat) : State := s.clear (0x154008 + 0x1000 * i) 0x18

/-- RTC_CLEAR (R325). -/
def State.clearRtc (s : State) (i : Nat) : State := s.clear (0x158008 + 0x1000 * i) 0x3C

/-- DMA_CLEAR (R372). -/
def State.clearDma (s : State) (i : Nat) : State := s.clear (0x15C008 + 0x1000 * i) 0xC

/-- HBM_ERR_CLEAR (R368). -/
def State.clearHbmErr (s : State) : State := s.clear 0x180800 0x600

/-- MIG_CLEAR (R370). -/
def State.clearMig (s : State) : State := s.clear 0x182018 0x24

/-- FTL_CLEAR (R371). -/
def State.clearFtl (s : State) : State := s.clear 0x1C0030 0x1C

/-- CP_CLEAR (R402). -/
def State.clearCp (s : State) : State := s.clear 0x1A008 0xC

/-- SCHED_CLEAR (R438). -/
def State.clearSched (s : State) : State := s.clear 0x20028 8

/-- LINK_CLEAR (R471). -/
def State.clearLink (s : State) : State :=
  (List.range 12).foldl (fun s p => s.clear (0x200110 + 0x40 * p) 0x1C) (s.clear 0x200020 0x14)

/-- TIME_CLEAR (R473). -/
def State.clearTime (s : State) : State := s.clear 0x220038 0xC

/-- CV_CLEAR (R499). -/
def State.clearCv (s : State) (i : Nat) : State := s.clear (0x240008 + 0x1000 * i) 0xC

/-- DEP_CLEAR (R498). -/
def State.clearDep (s : State) : State := (s.clear 0x260008 4).clear 0x260020 0x2C

/-- PWR_CLEAR (R517, R518): the counters of the block and AVS_CLAMPED; the running times start again. -/
def State.clearPwr (s : State) : State :=
  let s := (List.range 4).foldl (fun s p => s.clear (0x280108 + 0x10 * p) 4) (s.clear 0x280040 0x28)
  { s with power := { s.power with throttleAt := s.power.throttleAt.map fun _ => s.itNow, pacedAt := s.power.pacedAt.map fun _ => s.itNow } }

/-- ADAPT_CLEAR (R519). -/
def State.clearAdapt (s : State) (t : Nat) : State := s.clear (0x100808 + 0x1000 * t) 0x10

/-- ING_CLEAR (R291). -/
def State.clearIng (s : State) : State :=
  (List.range 24).foldl (fun s i => s.clear (0x300108 + 0x20 * i) 0x14) (s.clear 0x300008 0x10)

/-! ## Sketchbook access (15 R500) -/

/-- The record SB_READ names and RESULT: 0 OK, 1 GONE, 2 NOT_YET. -/
def State.sbFind (s : State) (area key : Nat) : Nat × List Byte :=
  if area = 1 then
    (match s.sb.head[key]? with
     | some r => (0, r.bytes)
     | none => (if 4095 < key then 1 else 2, []))
  else if s.sb.nextSeq ≤ key then (2, [])
  else match (s.sb.ring ++ s.sb.mram).find? fun r => r.seq == key with
    | some r => (0, r.bytes)
    | none => (1, [])

/-- A write to SB_READ latches one record (R500). -/
def State.sbRead (s : State) (v : Nat) : State :=
  let s := s.setReg64 0x3020 v
  let r := s.sbFind (v / 2 ^ 63 % 2) (v % 2 ^ 63)
  let s := s.setFld 0x3028 1 0 r.1
  (List.range 16).foldl (fun s n => s.setReg (0x3100 + 4 * n) (BitVec.ofNat 32 (leNat ((padTo 64 r.2).drop (4 * n) |>.take 4)))) s

/-- A write to SB_NOTE: a HOST_NOTE record with its 8 bytes (R494, R500). -/
def State.sbNote (s : State) (v : Nat) : State := s.record 0x80 0 (srcHub 7) (leBytes 8 v)

/-! ## Granule query (11 R338, R370) -/

/-- A granule table entry as GRANULE_ENTRY shows it (R338), with the given FRAME. -/
def Granule.entry (x : Granule) (frame : Nat) : Nat :=
  let b (c : Bool) (n : Nat) : Nat := if c then 2 ^ n else 0
  frame % 2 ^ 24 * 2 ^ 40 + b x.resident 39 + b x.dirty 38 + b x.ref 37 + b x.pin 36 + b x.noWb 35 + b x.stream 34 + b x.poison 33 +
    x.move % 4 * 2 ^ 31 + x.access % 2 ^ 16

/-- GRANULE_QUERY (R370): the entry of the granule that holds the address is latched; FRAME is open while the granule is not RESIDENT. -/
def State.granuleQuery (s : State) (v : Nat) : State :=
  let s := s.setReg64 0x182040 v
  if dvaEnd ≤ v then s.setReg64 0x182048 (2 ^ 64 - 1)
  else
    let x := s.granule (v / gBytes)
    if x.resident then s.setReg64 0x182048 (x.entry x.frame)
    else { s.setReg64 0x182048 (x.entry (Config.freeWord s.freeCtr).toNat) with freeCtr := s.freeCtr + 1 }

end Sys2Proof.Machine
end

