-- ==== Sys2Proof/Machine/Repair.lean ====
section
/-! DEFINITION. Field repair (04 R123-R135) and the margining and diagnostics block (19 R565-R575). -/

namespace Sys2Proof.Machine

/-! ## Spares (R123, R124) -/

/-- The lowest free spare. -/
def firstSpare (xs : List Spare) : Option Nat := (List.range xs.length).find? fun n => (xs.getD n {}).free

/-! ## Commits (R125-R127) -/

/-- KIND of a REPAIR_STAGE word concerns columns. -/
def stageCol (w : Nat) : Bool := bits w 30 28 == 1 || bits w 30 28 == 3

/-- REPAIR_RESULT of a tile. -/
def State.repairResult (s : State) (t n : Nat) : State := s.setFld (0x100288 + 0x1000 * t) 3 0 n

/-- The spare a commit uses: the named one, or the lowest free one of the kind. -/
def stageSpare (x : Tile) (w : Nat) : Option Nat :=
  if bits w 3 0 = 15 then firstSpare (x.spares (stageCol w)) else some (bits w 3 0)

/-- A named spare is in use or bad; for a BAD record without a named spare, no spare is left to name. -/
def spareRefused (x : Tile) (w : Nat) : Bool :=
  if bits w 30 28 = 4 then false
  else if bits w 3 0 = 15 then decide (2 ≤ bits w 30 28) && (stageSpare x w).isNone
  else !((x.spares (stageCol w)).getD (bits w 3 0) {}).free

/-- GO of REPAIR_GO (R127, R134). A MAP that names a spare in use or bad is refused also where no spare of the kind is free, the case R125
retires a tile for (DESIGN CHOICE, log entry 61). -/
def State.repairGo (s : State) (t : Nat) : State :=
  let w := (s.reg (0x100280 + 0x1000 * t)).toNat
  if s.fld (0x100288 + 0x1000 * t) 3 0 = 1 ∨ s.fld (0x10028C + 0x1000 * t) 0 0 = 1 then s
  else if (s.tile t).st ≠ .quarantined then s.repairResult t 4
  else if 4 < bits w 30 28 ∨ (bits w 30 28 ≠ 4 ∧ 8 ≤ bits w 3 0 ∧ bits w 3 0 < 15) then s.repairResult t 6
  else if spareRefused (s.tile t) w then s.repairResult t 5
  else (s.repairResult t 1).setTile t { s.tile t with staged := some w }

/-- The REPAIR record of a commit (R494, R587). -/
def State.repairRecord (s : State) (t w : Nat) : State :=
  s.record 0x11 2 (srcUnit 0 t) (leBytes 1 t ++ leBytes 3 0 ++ leBytes 4 w ++ leBytes 4 (s.reg (0x100288 + 0x1000 * t)).toNat)

/-- The healthy tiles at the start of the window that contains IT, kept before the first retirement in it (R418). -/
def State.keepTiles (s : State) : State :=
  let w := s.winOf s.itNow
  if s.sch.tilesWin = some w then s else { s with sch := { s.sch with tilesWin := some w, winTiles := s.healthyTiles } }

/-- The retire fuse is burned (R125, R126). -/
def State.retire (s : State) (t : Nat) : State :=
  (s.keepTiles.setTile t { s.tile t with retireFuse := true, st := .retired, staged := none }).repairResult t 3

/-- A field record is burned: its number is shown, and the maps follow it at once. -/
def State.burnRec (s : State) (t : Nat) (r : FieldRec) (result : Nat) : State :=
  let x := s.tile t
  ((s.setFld (0x100288 + 0x1000 * t) 7 4 x.recs.length).setTile t { x with recs := x.recs ++ [r], staged := none }).repairResult t result

/-- The commit of a staged word ends (R125, R127); `verified`: the fuses read back as burned. -/
def State.commitRepair (s : State) (t w : Nat) (verified : Bool) : State :=
  let x := s.tile t
  let k := bits w 30 28
  let map := decide (k ≤ 1)
  if k = 4 then s.retire t
  else match stageSpare x w with
    | none => s.retire t
    | some n =>
      if 16 ≤ x.recs.length then
        if map then s.retire t else (s.setTile t { x with staged := none }).repairResult t 7
      else if verified then s.burnRec t { kind := k, logical := if map then bits w 15 8 else 0, spare := n } 2
      else s.burnRec t { kind := 7, logical := 0, spare := n } 7

/-- REPAIR_DONE (R127). -/
def execRepairDone (t : Fin 64) (verified : Bool) (s : State) : Host.Outcome State Fault Refusal :=
  .next (match (s.tile t.val).staged with
  | none => s
  | some w => if !s.ready then s else (s.commitRepair t.val w verified).repairRecord t.val w)

/-! ## TILE_CONTROL (R130) -/

/-- A tile leaves burn work. -/
def State.unburn (s : State) (t : Nat) : State :=
  let s := s.setFld (0x100804 + 0x1000 * t) 1 1 0
  s.setFld 0x280000 8 8 (if (List.range 64).any fun u => s.fld (0x100804 + 0x1000 * u) 1 1 == 1 then 1 else 0)

/-- A write of TILE_CONTROL: each bit acts on the state the tile holds before the write (R130). RELEASE acts while a commit is BUSY, too, and
the commit goes on (DESIGN CHOICE, log entry 61). -/
def State.tileControl (s : State) (t v : Nat) : State :=
  let x := s.tile t
  if x.retireFuse then s else
  match x.st with
  | .idle => if v / 2 % 2 = 1 then (s.setTile t { x with st := .quarantined }).unburn t else s
  | .running => if v / 2 % 2 = 1 then s.setTile t { x with quarPending := true } else s
  | .replaying => if v / 2 % 2 = 1 then s.setTile t { x with quarPending := true } else s
  | .quarantined => if v % 2 = 1 then s.setTile t { x with st := .idle } else s
  | _ => s

/-! ## Tile self-test (R567-R570) -/

/-- TILE_TEST_CTL of a tile. -/
def testCtl (t : Nat) : Nat := 0x2C2000 + 0x10 * t

/-- RESULT of a tile's self-test. -/
def State.testResult (s : State) (t : Nat) : Nat := s.fld (testCtl t + 4) 31 28

/-- A tile's self-test is started with a pattern (R565, R567, R568): true where it runs. -/
def State.startTest (s : State) (t pattern : Nat) : State × Bool :=
  if (s.tile t).st ≠ .quarantined then (s.setFld (testCtl t + 4) 31 28 4, false)
  else if 4 < pattern then (s.setFld (testCtl t + 4) 31 28 5, false)
  else ((s.setTile t { s.tile t with st := .selfTest }).setFld (testCtl t + 4) 31 28 1, true)

/-- GO of TILE_TEST_CTL (R566, R567, R569); the bit reads 1 while the test it started runs. -/
def State.testGo (s : State) (t : Nat) : State :=
  if s.fld 0x2C0004 0 0 = 1 ∨ s.testResult t = 1 then s
  else
    let r := s.startTest t (s.fld (testCtl t) 11 8)
    if r.2 then r.1.setFld (testCtl t) 0 0 1 else r.1

/-- The one place every failing compare names, if there is one: a physical row below 264 (bits 8 to 0), a column below 264. -/
def onePlace (xs : List Nat) : Option Nat :=
  match xs with
  | [] => none
  | x :: rest => if x < 264 ∧ rest.all (· == x) then some x else none

/-- A PHYS field the spec does not state: 0 to 263, or 0x1FF. -/
def freePhys (ctr : Nat) : Nat :=
  let v := (Config.freeWord ctr).toNat % 265
  if v = 264 then 0x1FF else v

/-- KIND, PHYS_ROW and PHYS_COL of failing compares (R569), each a pair (row, column): a residue compare carries its row plus 512, and a
place outside 0 to 263 is one that the compare does not name. -/
def testKind (ctr : Nat) (fails : List (Nat × Nat)) : Nat × Nat × Nat :=
  if fails.isEmpty then (0, freePhys ctr, freePhys (ctr + 1))
  else match onePlace (fails.map fun f => f.1 % 512), onePlace (fails.map (·.2)) with
    | some r, some c => (3, r, c)
    | some r, none => (1, r, 0x1FF)
    | none, some c => (2, 0x1FF, c)
    | none, none => if fails.all fun f => decide (512 ≤ f.1) then (4, freePhys ctr, freePhys (ctr + 1)) else (5, 0x1FF, 0x1FF)

/-- The end of a tile's self-test (R567, R569): the tile returns to QUARANTINED, or stays RETIRED (R126); a FAIL writes a
RESIDUE record. -/
def State.endTest (s : State) (t : Nat) (fails : List (Nat × Nat)) : State :=
  let k := testKind s.freeCtr fails
  let w := (if fails.isEmpty then 2 else 3) * 2 ^ 28 + k.1 * 2 ^ 24 + k.2.1 * 2 ^ 12 + k.2.2
  let s := { s with freeCtr := s.freeCtr + 2 }.setTile t { s.tile t with st := if (s.tile t).retireFuse then .retired else .quarantined }
  let s := (s.setReg (testCtl t + 4) (BitVec.ofNat 32 w)).setReg (testCtl t + 8) (BitVec.ofNat 32 (min fails.length (2 ^ 32 - 1)))
  let s := s.setFld (testCtl t) 0 0 0
  if fails.isEmpty then s
  else s.record 0x10 1 (srcUnit 0 t) (leBytes 1 t ++ leBytes 1 2 ++ leBytes 1 k.1 ++ leBytes 1 0 ++ leBytes 2 k.2.1 ++ leBytes 2 k.2.2)

/-! ## SELF_TEST (R570): `targets` tiles still to start, `items` results by tile ([t] while its test runs) -/

/-- The command starts a tile as GO would; one whose test is BUSY waits. -/
def State.commandTest (s : State) (tok t : Nat) : State :=
  match s.cmd tok with
  | none => s
  | some c =>
    if s.testResult t = 1 then s
    else
      let r := s.startTest t (c.f 0x48 3 0)
      let done := if r.2 then [t] else [t, (r.1.reg (testCtl t + 4)).toNat]
      r.1.updCmd tok fun c => { c with targets := c.targets.filter (· != t), items := c.items ++ [done] }

/-- Every masked tile's test has ended: the array is written and the command completes. -/
def State.tryEndTests (s : State) (tok : Nat) : State :=
  match s.cmd tok with
  | none => s
  | some c =>
    if !c.targets.isEmpty || c.items.any (fun x => x.length == 1) then s
    else
      let word (t : Nat) : Nat := match c.items.find? fun x => x.head? == some t with | some x => x.getD 1 0 | none => 0
      let bad := (c.items.filter fun x => bits (x.getD 1 0) 31 28 != 2).length
      s.after ((s.storeBytes (locH (c.q 0x50)) ((List.range 64).flatMap fun t => leBytes 4 (word t))).e.bind fun s => .ok (s.endCmd tok 0 bad))
        fun st d => s.endCmd tok st d

/-- SELF_TEST (R570). -/
def execSelfTest (tok : Nat) (s : State) : Host.Outcome State Fault Refusal :=
  .next (match s.mayBegin tok 0x0700 with
  | none => (match (s.running tok).filter fun c => c.op == 0x0700 with
    | some _ => s.tryEndTests tok
    | none => s)
  | some c =>
    let ts := (List.range 64).filter fun t => c.q 0x40 / 2 ^ t % 2 == 1
    if 4 < c.f 0x48 3 0 then s.instant tok 0x1001 0
    else if ts.isEmpty then s.instant tok 0x0101 0
    else
      let s := (s.begin_ tok).updCmd tok fun c => { c with targets := ts, items := [] }
      (ts.foldl (fun s t => s.commandTest tok t) s).tryEndTests tok)

/-- SELF_TEST commands take note of a tile's ended test: the one whose test it was keeps its result, and the first one waiting for the tile
starts its own. -/
def State.testsAfter (s : State) (t : Nat) : State :=
  let w := (s.reg (testCtl t + 4)).toNat
  let s : State := { s with cmds := s.cmds.map fun c =>
      if c.op == 0x0700 then { c with items := c.items.map fun x => if x = [t] then [t, w] else x } else c }
  let s := match s.cmds.find? fun c => c.op == 0x0700 && c.phase == .running && c.targets.contains t with
    | some c => s.commandTest c.tok t
    | none => s
  ((s.cmds.filter fun c => c.op == 0x0700 && c.phase == .running).map (·.tok)).foldl State.tryEndTests s

/-- TILE_TEST_DONE (R569, R570). -/
def execTileTestDone (t : Fin 64) (fails : List (Nat × Nat)) (s : State) : Host.Outcome State Fault Refusal :=
  .next (if !s.ready || s.testResult t.val != 1 then s else (s.endTest t.val fails).testsAfter t.val)

/-! ## HBM margining (R573) -/

/-- GO of HBM_MARGIN_CTL (R565, R573). -/
def State.marginGo (s : State) : State :=
  if s.fld 0x2C0004 0 0 = 1 ∨ s.fld 0x2C0104 31 28 = 1 then s
  else if !s.safe then s.setFld 0x2C0104 31 28 3
  else if 11 < s.fld 0x2C0100 15 12 ∨ s.fld 0x2C0100 9 8 = 3 then s.setFld 0x2C0104 31 28 4
  else (s.setFld 0x2C0104 31 28 1).setFld 0x2C0100 0 0 1

/-- HBM_MARGIN_DONE (R573): the worst lane of the selected stack, by its interleave target there (R52), and its passing steps; the run has
overwritten the stack. -/
def execHbmMarginDone (lane : Fin 32) (lo hi : Nat) (s : State) : Host.Outcome State Fault Refusal :=
  .next (if !s.ready || s.fld 0x2C0104 31 28 != 1 then s
  else
    let w := 2 * 2 ^ 28 + (32 * s.fld 0x2C0100 15 12 + lane.val) * 2 ^ 16 + min lo 255 * 2 ^ 8 + min hi 255
    (s.setReg 0x2C0104 (BitVec.ofNat 32 w)).setFld 0x2C0100 0 0 0)

/-! ## Eye margining (R574, R575) -/


/-- A measurement is started (R565, R574): true where it runs. -/
def State.startEye (s : State) (p : Nat) : State × Bool :=
  if s.portUp p then (s.setFld (eyeCtl p + 4) 31 28 1, true) else (s.setFld (eyeCtl p + 4) 31 28 3, false)

/-- GO of EYE_CTL (R566, R574). -/
def State.eyeGo (s : State) (p : Nat) : State :=
  if s.fld 0x2C0004 0 0 = 1 ∨ s.eyeResult p = 1 then s
  else
    let r := s.startEye p
    if r.2 then r.1.setFld (eyeCtl p) 0 0 1 else r.1

/-- The end of a port's measurement: DONE with the eye's size. -/
def State.endEye (s : State) (p width height : Nat) : State :=
  (s.setReg (eyeCtl p + 4) (BitVec.ofNat 32 (2 * 2 ^ 28 + min width 255 * 2 ^ 16 + min height 255 * 2 ^ 8))).setFld (eyeCtl p) 0 0 0

/-- MARGIN's next lane of a port (R575): `targets` holds the lanes still to start, as 4 * port + lane in lane order, and `items` the results
([lane] while it is measured). A lane that is refused leaves the next one to start. -/
def State.nextLane (s : State) (tok p : Nat) : Nat → State
  | 0 => s
  | fuel + 1 =>
    match s.cmd tok with
    | none => s
    | some c =>
      if s.eyeResult p = 1 then s
      else match c.targets.find? fun l => l / 4 == p with
        | none => s
        | some l =>
          let r := s.startEye p
          let done := if r.2 then [l] else [l, (r.1.reg (eyeCtl p + 4)).toNat]
          let s := r.1.updCmd tok fun c => { c with targets := c.targets.filter (· != l), items := c.items ++ [done] }
          if r.2 then s else s.nextLane tok p fuel

/-- Every lane is measured: the array is written and the command completes. -/
def State.tryEndLanes (s : State) (tok : Nat) : State :=
  match s.cmd tok with
  | none => s
  | some c =>
    if !c.targets.isEmpty || c.items.any (fun x => x.length == 1) then s
    else
      let word (l : Nat) : Nat := match c.items.find? fun x => x.head? == some l with | some x => x.getD 1 0 | none => 0
      let bad := (c.items.filter fun x => bits (x.getD 1 0) 31 28 == 3).length
      s.after ((s.storeBytes (locH (c.q 0x48)) ((List.range 48).flatMap fun l => leBytes 4 (word l))).e.bind fun s => .ok (s.endCmd tok 0 bad))
        fun st d => s.endCmd tok st d

/-- MARGIN (R575). -/
def execMargin (tok : Nat) (s : State) : Host.Outcome State Fault Refusal :=
  .next (match s.mayBegin tok 0x0701 with
  | none => (match (s.running tok).filter fun c => c.op == 0x0701 with
    | some _ => s.tryEndLanes tok
    | none => s)
  | some c =>
    let ps := (List.range 12).filter fun p => c.f 0x40 11 0 / 2 ^ p % 2 == 1
    if ps.isEmpty then s.instant tok 0x0101 0
    else
      let s := (s.begin_ tok).updCmd tok fun c => { c with targets := ps.flatMap fun p => (List.range 4).map (· + 4 * p), items := [] }
      (ps.foldl (fun s p => s.nextLane tok p 4) s).tryEndLanes tok)

/-- MARGIN commands take note of a port's ended measurement. -/
def State.lanesAfter (s : State) (p : Nat) : State :=
  let w := (s.reg (eyeCtl p + 4)).toNat
  let s : State := { s with cmds := s.cmds.map fun c =>
      if c.op == 0x0701 then { c with items := c.items.map fun x => if x.length = 1 ∧ x.headD 0 / 4 = p ∧ s.eyeResult p ≠ 1 then x ++ [w] else x } else c }
  let toks := (s.cmds.filter fun c => c.op == 0x0701 && c.phase == .running).map (·.tok)
  toks.foldl State.tryEndLanes (toks.foldl (fun s tok => s.nextLane tok p 4) s)

/-- EYE_MEASURE_DONE (R574, R575); a measurement that was abandoned is over, too, and the next lane follows. -/
def execEyeMeasureDone (port : Fin 12) (width height : Nat) (s : State) : Host.Outcome State Fault Refusal :=
  .next (if !s.ready then s
  else (if s.eyeResult port.val = 1 then s.endEye port.val width height else s).lanesAfter port.val)

end Sys2Proof.Machine
end

