-- ==== Sys2Proof/Machine/Primer.lean ====
section
/-! DEFINITION. The primer slots: what a slot's image holds, its validation, applying it, and the slot operations (17 R524-R530). -/

namespace Sys2Proof.Machine

/-! ## Slots (R524-R526) -/

/-- Byte `i` of a slot; erased bytes read 0xFF. -/
def PrimerSlot.byte (x : PrimerSlot) (i : Nat) : Byte := x.bytes.getD i 0xFF

/-- `n` bytes of a slot from `o`. -/
def PrimerSlot.range (x : PrimerSlot) (o n : Nat) : List Byte :=
  let bs := (x.bytes.drop o).take n
  bs ++ List.replicate (n - bs.length) 0xFF

/-- Little-endian number of `n` bytes at `o`. -/
def PrimerSlot.num (x : PrimerSlot) (o n : Nat) : Nat := leNat (x.range o n)

/-- BYTES and ENTRIES of the header. -/
def PrimerSlot.len (x : PrimerSlot) : Nat := x.num 0x10 4

/-- Number of setting entries. -/
def PrimerSlot.count (x : PrimerSlot) : Nat := x.num 0x14 4

/-- A setting entry (R525). -/
structure PEnt where
  off : Nat
  mask : Nat
  value : Nat
  reserved : Nat
deriving DecidableEq, Repr

/-- Entry `i` of a slot. -/
def PrimerSlot.entry (x : PrimerSlot) (i : Nat) : PEnt :=
  let o := 256 + 16 * i
  { off := x.num o 4, mask := x.num (o + 4) 4, value := x.num (o + 8) 4, reserved := x.num (o + 12) 4 }

/-- Every entry of a slot, in image order. -/
def PrimerSlot.entries (x : PrimerSlot) : List PEnt := (List.range x.count).map x.entry

/-- The part of a field that lies in word `w` of its register: its lowest and highest bit in that word, and whether the whole field
does. -/
def RField.part (f : RField) (w : Nat) : Option (Nat × Nat × Bool) :=
  if f.hi < 32 * w ∨ 32 * w + 31 < f.lo then none
  else some (max f.lo (32 * w) - 32 * w, min f.hi (32 * w + 31) - 32 * w, decide (32 * w ≤ f.lo) && decide (f.hi ≤ 32 * w + 31))

/-- An entry is as R525 asks: the mask lies in primer-overridable fields, covers each one it touches, and the value is in its range. -/
def PEnt.ok (e : PEnt) : Bool :=
  e.reserved == 0 && e.off % 4 == 0 &&
  (match regAt e.off with
   | none => false
   | some a =>
     let w := a.byte / 4
     let ps := a.row.fields.filterMap fun f => (f.part w).map fun p => (f, p)
     let cover := ps.foldl (fun m x => if bits e.mask x.2.2.1 x.2.1 = 0 then m else m + (2 ^ (x.2.2.1 + 1) - 2 ^ x.2.1)) 0
     cover == e.mask &&
     ps.all fun x => bits e.mask x.2.2.1 x.2.1 == 0 ||
       (x.1.primer && (!x.2.2.2 || x.1.rng.ok (bits e.value x.2.2.1 x.2.1)) &&
         ((!x.2.2.2 && w != 0) || x.1.doc.ok (bits e.value x.2.2.1 x.2.1))))

/-- The image's bytes with CRC, or with SIGNATURE and CRC, taken as zero. -/
def PrimerSlot.blanked (x : PrimerSlot) (sig : Bool) : List Byte :=
  let bs := x.range 0 x.len
  ((List.range bs.length).zip bs).map fun e =>
    if (0xFC ≤ e.1 ∧ e.1 < 0x100) ∨ (sig ∧ 0x80 ≤ e.1 ∧ e.1 < 0xC0) then 0 else e.2

/-- A field of a header that the format reserves. -/
def PrimerSlot.reservedClear (x : PrimerSlot) : Bool :=
  (x.range 0x1B 5).all (· == 0) && (x.range 0x28 88).all (· == 0) && (x.range 0xC0 60).all (· == 0)

/-- The key a slot must be signed with, and its SIGNER code (R532). -/
def State.slotKey (s : State) : Nat × List Byte := if s.lc.st = .owned then (2, s.lc.owner) else (1, s.lc.issuer)

/-- The image's target (R524, R526): part, module revision, UNIQUE_ID. -/
def State.slotTarget (s : State) (x : PrimerSlot) : Bool :=
  let rev := s.silicon.major * 256 + s.silicon.minor
  x.num 0x06 2 == 0x2416 && decide (x.num 0x18 1 * 256 + x.num 0x19 1 ≤ rev) && (x.num 0x20 8 == 0 || x.num 0x20 8 == s.silicon.uid)

/-- The result code of a slot (R526), checked in this order. -/
def State.slotCheck (s : State) (x : PrimerSlot) : Nat :=
  if s.lc.st = .blank ∨ s.lc.st = .ret then 8
  else if (x.range 0 256).all (· == 0xFF) then 1
  else if x.num 0 4 ≠ 0x524D5250 ∨ x.num 4 2 ≠ 1 ∨ !x.reservedClear then 2
  else if x.len ≠ 256 + 16 * x.count ∨ 1048576 < x.len ∨ 65520 < x.count then 3
  else if !s.slotTarget x then 4
  else if crc32c (x.blanked false) ≠ x.num 0xFC 4 then 5
  else if x.num 0x1A 1 ≠ s.slotKey.1 ∨ !Config.sigValid s.slotKey.2 (x.blanked true) (x.range 0x80 64) then 6
  else if !x.entries.all PEnt.ok then 7
  else 0

/-! ## Applying an image (R528, R529) -/

/-- One setting entry: each field it touches takes the value, unless it is held or a relation of R586 forbids it. -/
def State.applyEntry (s : State) (e : PEnt) : State :=
  match regAt e.off with
  | none => s
  | some a =>
    let w := a.byte / 4
    let o := a.off + 4 * w
    let old := (s.reg o).toNat
    let v := (old &&& (2 ^ 32 - 1 - e.mask % 2 ^ 32)) ||| (e.value &&& e.mask)
    a.row.fields.foldl (fun s' f =>
      match f.part w with
      | none => s'
      | some (lo, hi, _) =>
        if bits e.mask hi lo = 0 ∨ s.heldFields.contains (fieldId a.off f.lo) then s'
        else if (a.row.wide || s.relOk a.off f.lo v (bits v hi lo)) then s'.setFld o hi lo (bits v hi lo) else s') s

/-- An image's entries in image order. -/
def State.applyImage (s : State) (x : PrimerSlot) : State := x.entries.foldl State.applyEntry s

/-! ## Writing a slot (R530) -/

/-- Slot A or B. -/
def State.slot (s : State) (b : Bool) : PrimerSlot := if b then s.slotB else s.slotA

/-- A slot's contents changed. -/
def State.setSlot (s : State) (b : Bool) (x : PrimerSlot) : State := if b then { s with slotB := x } else { s with slotA := x }

/-- PRIMER_RESULT.RESULT. -/
def State.primerResult (s : State) (n : Nat) : State := s.setFld 0x2024 3 0 n

/-- GO of PRIMER_CMD (R530). -/
def State.primerGo (s : State) (r : Requester) : State :=
  let op := s.fld 0x2020 1 0
  if s.fld 0x2024 3 0 = 1 ∨ op = 3 then s
  else if s.lc.st = .blank ∨ s.lc.st = .ret then s.primerResult 3
  else if (r = .pcie ∧ s.fld 0x2028 0 0 = 1) ∨ (r = .mgmt ∧ op = 0) then s.primerResult 4
  else { s with primerJob := some { op := op, slotB := s.fld 0x2020 4 4 == 1, req := r } }.primerResult 1

/-- A write of PRIMER_CMD: OP and SLOT, then GO. -/
def State.primerCmd (s : State) (r : Requester) (v : Nat) : State :=
  let s := (s.setFld 0x2020 4 4 (bits v 4 4)).setFld 0x2020 1 0 (bits v 1 0)
  if bits v 8 8 = 1 then s.primerGo r else s

/-- The image at PRIMER_SRC: the length its header gives, and that many bytes; none where the source cannot be read. -/
def State.primerSource (s : State) : Option (List Byte) :=
  match locH (s.reg64 0x2018) with
  | .host a =>
    (match s.bytesAt (.host a) 256 with
     | .ok h =>
       (match s.bytesAt (.host a) (min 1048576 (leNat ((h.drop 0x10).take 4))) with
        | .ok bs => some bs
        | _ => none)
     | _ => none)
  | _ => none

/-- A slot an unreadable source leaves: erased as far as the erasing had come. -/
def PrimerSlot.partErased (x : PrimerSlot) (ctr : Nat) : PrimerSlot :=
  let n := (Config.freeWord ctr).toNat % (x.bytes.length + 1)
  { bytes := List.replicate n 0xFF ++ x.bytes.drop n }

/-- The end of a slot operation: CHECK shows the slot's code and RESULT DONE, or READ_FAIL. -/
def State.endPrimer (s : State) (j : PrimerJob) : State :=
  let s := { s with primerJob := none }
  let done (s : State) (n : Nat) : State := (s.setFld 0x2024 15 8 (s.slotCheck (s.slot j.slotB))).primerResult n
  match j.op with
  | 0 =>
    (match s.primerSource with
     | some bs => done (s.setSlot j.slotB { bytes := bs }) 2
     | none => done ({ s with freeCtr := s.freeCtr + 1 }.setSlot j.slotB ((s.slot j.slotB).partErased s.freeCtr)) 5)
  | 1 => done (s.setSlot j.slotB {}) 2
  | _ => done s 2

/-- PRIMER_OP_DONE (R530). -/
def execPrimerOpDone (s : State) : Host.Outcome State Fault Refusal :=
  .next (match s.primerJob with
  | none => s
  | some j => if !s.ready then s else s.endPrimer j)

/-- A reset in the middle of a WRITE or an ERASE leaves the slot without a header (R530). -/
def State.cutPrimer (s : State) : State :=
  match s.primerJob with
  | none => s
  | some j => { (if j.op = 0 ∨ j.op = 1 then s.setSlot j.slotB {} else s) with primerJob := none }

end Sys2Proof.Machine
end

