-- ==== Sys2Proof/Machine/Reset.lean ====
section
/-! DEFINITION. Reset, start-up and the life cycle (17 R520-R538): what a reset keeps and clears, the boot stages in one step, the
life-cycle transition, and the reset causes. -/

namespace Sys2Proof.Machine

/-! ## What stage 1 and the scrape leave (R521, R537) -/

/-- The sketchbook with its MRAM records drained to flash (R495, R496). -/
def Sketchbook.drainAll (b : Sketchbook) : Sketchbook :=
  let crit := (b.mram.filter fun r => (r.bytes.getD 0x11 0).toNat == 2).take (4096 - b.head.length)
  let ring := b.ring ++ b.mram
  let ring := ring.drop (ring.length - ringRecords)
  { b with mram := [], head := b.head ++ crit, ring := ring, oldest := match ring with | r :: _ => r.seq | [] => b.oldest }

/-- A tile after reset (R120, R123): its fuses stand, everything else is cleared. -/
def Tile.afterReset (x : Tile) : Tile :=
  { st := if x.retireFuse then .retired else .idle, factRow := x.factRow, factCol := x.factCol, recs := x.recs, retireFuse := x.retireFuse }

/-- An erase block after reset (R357): its read counter is the one written to flash, on the raised base. -/
def EBlock.afterReset (x : EBlock) : EBlock := { x with reads := x.saved }

/-- The state every register, unit and table starts from (R23, R399, R437, R470, R537): fuses, NOR, MRAM, flash, the host's memory and the
queue of commands are kept. -/
def State.cleared (s : State) : State :=
  { pending := s.pending, silicon := s.silicon, held := false, regs := [], stagePcie := none, stageMgmt := none, heldFields := s.heldFields
    lc := s.lc, nonceCtr := s.nonceCtr + 1, freeCtr := s.freeCtr, slotA := s.slotA, slotB := s.slotB, sb := s.sb.drainAll
    tiles := SMap.mapEntries (fun _ => {}) (fun _ x => x.afterReset) s.tiles, links := [], pal := [], acc := [], shr := []
    progs := SMap.mapEntries (fun _ => {}) (fun _ x => { x with prog := none }) s.progs, scenes := [], streams := [], pool := {}
    hbm := [], badLines := [], flash := s.flash
    gran := s.flashBad.map fun e => (e.1, { poison := true })
    sweep := 0, blocks := SMap.mapEntries (fun _ => {}) (fun _ x => x.afterReset) s.blocks, ftl := s.ftl, flashBad := s.flashBad
    fillQ := [], buckets := [], heldReqs := [], host := s.host, hostReject := s.hostReject, objs := [], queues := [], cmds := [], nextTok := 0, sch := {}
    itNow := 0, ports := [], openTx := [], nextTx := 0, seqCtr := [], sources := [], qpRate := [], qpAt := [], time := {}, mapped := []
    ingest := [], claims := [], power := {}, primerJob := none, switchTo := none, abandoned := [], abandonedUnits := [], safeIt := 0
    coldPend := false }

/-! ## Stage 2: registers (R526-R529) -/

/-- The pending fields (R529): register and the field's bits. -/
def pendingFields : List (Nat × Nat × Nat) :=
  ((List.range 8).flatMap fun n => [(0x180020 + 4 * n, 31, 31), (0x180020 + 4 * n, 8, 0)]) ++ [(0x220020, 31, 0), (0x220024, 31, 0)]

/-- Held fields keep the value they held when the reset began. -/
def State.keepHeld (s : State) (old : State) : State :=
  pendingFields.foldl (fun s f => if s.heldFields.contains (fieldId f.1 f.2.2) then s.setFld f.1 f.2.1 f.2.2 (old.fld f.1 f.2.1 f.2.2) else s) s

/-- The slot to boot from (R527): 0 factory, 1 A, 2 B. -/
def State.pickSlot (s : State) (ca cb : Nat) : Nat :=
  if ca = 0 ∧ cb = 0 then (if s.slotA.num 8 8 < s.slotB.num 8 8 then 2 else 1)
  else if ca = 0 then 1 else if cb = 0 then 2 else 0

/-- Stage 2: factory values, held fields, the selected image, and what PRIMER_STATUS shows. The old state gives the held values. -/
def State.stage2 (s : State) (old : State) : State :=
  let ca := s.slotCheck s.slotA
  let cb := s.slotCheck s.slotB
  let k := s.pickSlot ca cb
  let s := (s.setReg64 0x128 (s.silicon.mac % 2 ^ 48)).keepHeld old
  let s := if k = 1 then s.applyImage s.slotA else if k = 2 then s.applyImage s.slotB else s
  let s := s.setReg 0x2000 (BitVec.ofNat 32 (ca * 2 ^ 16 + cb * 2 ^ 8 + k))
  let s := s.setReg64 0x2008 (if ca = 0 then s.slotA.num 8 8 else 0)
  let s := s.setReg64 0x2010 (if cb = 0 then s.slotB.num 8 8 else 0)
  if k = 0 ∧ ca ≠ 8 then s.record 0x02 2 (srcHub 8) (leBytes 1 ca ++ leBytes 1 cb) else s

/-! ## Stage 5: map-outs (R333, R335) -/

/-- F with `m` targets mapped out (R335). -/
def frameCount (k : Sku) (m : Nat) : Nat := 3 * (qTop k * (384 - m) / 12288)

/-- The map-out entries are taken in order: distinct valid targets are mapped out, an entry above 383 or a repeat is ignored; each gets its
record. No rule names the SOURCE of these records: it is free among the hub's instances. -/
def State.takeMapouts (s : State) : State × List Nat :=
  (List.range 8).foldl (fun (x : State × List Nat) n =>
    let s := x.1
    let t := s.fld (0x180020 + 4 * n) 8 0
    if s.fld (0x180020 + 4 * n) 31 31 = 0 then x
    else
      let code := if 383 < t then 1 else if x.2.contains t then 2 else 0
      let s := { s with freeCtr := s.freeCtr + 1 }.record 0x21 2 (srcHub ((Config.freeWord s.freeCtr).toNat % 9))
        (leBytes 1 n ++ leBytes 1 code ++ leBytes 2 t)
      (s, if code = 0 then x.2 ++ [t] else x.2)) (s, [])

/-- Stage 5: map-outs applied; F, m and the usable capacity published (R337). -/
def State.stage5 (s : State) : State :=
  let r := s.takeMapouts
  let out := sortBy (fun a b => decide (a ≤ b)) r.2
  let f := frameCount s.silicon.sku out.length
  (({ r.1 with mapped := out }.setReg 0x180000 (BitVec.ofNat 32 out.length)).setReg 0x180004 (BitVec.ofNat 32 f)).setReg64 0x10 (gBytes * f)

/-! ## Stages 6 and 7 -/

/-- Ports that are not OFF begin to train (R440, R441). -/
def State.trainPorts (s : State) : State :=
  (List.range 12).foldl (fun s p => if s.portMode p = 0 then s else s.setPort p { s.port p with st := .training }) s

/-- The flash translation layer starts to load its map; read counters restart from flash, raised by RD_SAMPLE (R357, R362). -/
def State.startFtl (s : State) : State :=
  { s with ftl := { s.ftl with rdBase := s.ftl.rdSaved + (s.reg 0x1C0020).toNat, totalReads := 0 } }

/-- The units start under the registers: profile, clocks, windows, wash, minimum timeout. -/
def State.startUnits (s : State) : State :=
  let s := s.setFld 0x260004 1 0 (s.fld 0x260000 1 0)
  let s := { s with time := { s.time with winNs := (s.reg 0x220020).toNat, winPhase := (s.reg 0x220024).toNat } }
  let s := { s with power := { s.power with washFrom := s.winOf 0 } }
  s.showClocks.trainPorts.recomputeMin.startFtl

/-- Stage 7 (R243, R494, R521): the pool is applied, the BOOT record written, READY set. -/
def State.stage7 (s : State) (cold : Bool) (cause : Nat) : State :=
  let k := s.fld 0x2000 1 0
  let s := s.applyPool
  let s := s.record 0x01 0 srcModule (leBytes 1 cause ++ leBytes 1 k)
  let s := s.setReg 0x104 (BitVec.ofNat 32 cause)
  s.setReg 0x108 (BitVec.ofNat 32 ((if cold then 0 else 2 ^ 12) + k * 2 ^ 8 + 0x17))

/-- A reset of kind `cold` with cause `cause`, from its first stage to READY (R520-R529, R537). A cold one and LIFECYCLE clear the held
fields and the program slots' generations. -/
def State.boot (s : State) (cold : Bool) (cause : Nat) : State :=
  let all := cold || cause == 5
  let old := s.cutPrimer
  let s := old.cleared
  let s := { s with lc := { s.lc with incarnation := (s.lc.incarnation + 1) % 65536 }
                    heldFields := if all then [] else s.heldFields, progs := if all then [] else s.progs }
  ((s.stage2 old).noteDropped.stage5.startUnits).stage7 cold cause

/-! ## Life cycle (R532-R538) -/

/-- The code of a state (R540). -/
def LcState.code : LcState → Nat
  | .blank => 0
  | .issued => 1
  | .owned => 2
  | .ret => 3

/-- The state of a code. -/
def LcState.ofCode : Nat → Option LcState
  | 0 => some .blank
  | 1 => some .issued
  | 2 => some .owned
  | 3 => some .ret
  | _ => none

/-- Steps 3 to 6 of a transition whose marker is written, then its reset (R535, R537, R538): flash and both slots are erased, and where the
scrape's verification fails the state becomes RETURN without keys. -/
def State.runTransition (s : State) (m : LcMarker) : State :=
  let fails := (Config.scrapeFails s.nonceCtr).toNat
  let old := s.lc.st
  let ok := fails == 0
  let st := if ok then m.target else .ret
  let s := { s with
    flash := [], flashBad := [], slotA := {}, slotB := {}, primerJob := none, ftl := { s.ftl with readOnly := false, homes := [], groups := [], taken := groupHomes }
    lc := { s.lc with st := st, issuer := if ok then m.issuer else [], owner := if ok then m.owner else []
                      transitions := min (s.lc.transitions + 1) (2 ^ 32 - 1), result := if ok then 2 else 7, marker := none } }
  let s := s.record 0x03 2 srcModule (leBytes 1 old.code ++ leBytes 1 st.code ++ leBytes 1 (if ok then 0 else 1) ++ leBytes 1 0 ++ leBytes 4 fails)
  s.boot false 5

/-- A reset: a transition that a marker left pending is resumed first (R536). -/
def State.reset_ (s : State) (cold : Bool) (cause : Nat) : State :=
  match s.lc.marker with
  | some m => (s.boot cold cause).runTransition m
  | none => s.boot cold cause

/-- Byte `i` of the transition request in LC_REQ (R533). -/
def State.lcReq (s : State) : List Byte := (List.range 32).flatMap fun n => leBytes 4 (s.reg (0x1100 + 4 * n)).toNat

/-- A key of the request that is set. -/
def keySet (k : List Byte) : Bool := k.any (· != 0)

/-- The table of R534: from, to, SIGNER, NEW_KEY; the issuer and owner keys afterwards, none where the transition is not permitted. -/
def State.lcTable (s : State) (dst : LcState) (signer : Nat) (key : List Byte) : Option (List Byte × List Byte) :=
  match s.lc.st, dst with
  | .blank, .issued => if signer = 3 ∧ keySet key then some (key, []) else none
  | .issued, .owned => if signer = 1 ∧ keySet key then some (s.lc.issuer, key) else none
  | .owned, .issued => if (signer = 1 ∨ signer = 2) ∧ !keySet key then some (s.lc.issuer, []) else none
  | .issued, .blank => if signer = 1 ∧ !keySet key then some ([], []) else none
  | .blank, .ret => if signer = 3 ∧ keySet key then some ([], []) else none
  | .issued, .ret => if signer = 1 ∧ !keySet key then some ([], []) else none
  | .owned, .ret => if (signer = 1 ∨ signer = 2) ∧ !keySet key then some ([], []) else none
  | .ret, .blank => if signer = 0 ∧ !keySet key then some ([], []) else none
  | _, _ => none

/-- The key a request's signature is checked against. -/
def State.signerKey (s : State) (signer : Nat) (key : List Byte) : List Byte :=
  match signer with
  | 0 => s.silicon.factoryKey
  | 1 => s.lc.issuer
  | 2 => s.lc.owner
  | _ => key

/-- The request's check (R534): the refusal code, or the marker of the transition it starts. -/
def State.lcCheck (s : State) : Except Nat LcMarker :=
  let b := s.lcReq
  let n (o k : Nat) : Nat := leNat ((b.drop o).take k)
  let key := (b.drop 0x20).take 32
  let signer := n 5 1
  if n 0 4 ≠ 0x5251434C ∨ n 6 2 ≠ 0 ∨ n 0x18 8 ≠ 0 ∨ n 0x10 8 ≠ s.silicon.uid then .error 5
  else if n 8 8 ≠ (Config.freshNonce s.nonceCtr).toNat then .error 6
  else match LcState.ofCode (n 4 1) with
    | none => .error 3
    | some dst =>
      match s.lcTable dst signer key with
      | none => .error 3
      | some (iss, own) =>
        if Config.sigValid (s.signerKey signer key) (b.take 64) (b.drop 64) then .ok { target := dst, issuer := iss, owner := own }
        else .error 4

/-- A write of 1 to GO of LC_GO (R534, R535): a refusal changes nothing but RESULT and the nonce. -/
def State.lcGo (s : State) : State :=
  match s.lcCheck with
  | .error e => { s with lc := { s.lc with result := e }, nonceCtr := s.nonceCtr + 1 }
  | .ok m => s.runTransition m

/-! ## Reset causes (R520, R523, R580) -/

/-- POWER_ON (R520): a cold reset; while RESET_N is asserted it waits for the deassertion. -/
def execPowerOn (s : State) : Host.Outcome State Fault Refusal :=
  .next (if s.held then { s with coldPend := true } else s.reset_ true 0)

/-- PERST (R520). -/
def execPerst (s : State) : Host.Outcome State Fault Refusal := .next (if s.held then s else s.reset_ false 1)

/-- RESET_N_ASSERT (R580): every unit stops, and the module is no longer READY. -/
def execResetNAssert (s : State) : Host.Outcome State Fault Refusal :=
  .next { s with held := true, cmds := [], sch := { s.sch with units := [] }, openTx := [], power := { s.power with stopped := true } }

/-- RESET_N (R520, R580): the deassertion; a reset runs where the pin was asserted. -/
def execResetN (s : State) : Host.Outcome State Fault Refusal := .next (if s.held then s.reset_ s.coldPend 2 else s)

/-- HOT_RESET (R520). -/
def execHotReset (s : State) : Host.Outcome State Fault Refusal := .next (if s.held then s else s.reset_ false 6)

/-- A write of RESET_CTL (R520, R539): RESET acts with CONFIRM 0xA5. -/
def State.resetCtl (s : State) (r : Requester) (v : Nat) : State :=
  if bits v 0 0 = 1 ∧ bits v 15 8 = 0xA5 then s.reset_ false (match r with | .pcie => 3 | .mgmt => 4) else s

end Sys2Proof.Machine
end

