-- ==== Sys2Proof/Machine/Time.lean ====
section
/-! DEFINITION. Installation time (14 R462-R466): pulses, time-of-day and PTP messages, the discipline loop and its steps. -/

namespace Sys2Proof.Machine

/-- STEP_NS. -/
def State.stepNs (s : State) : Nat := (s.reg 0x22002C).toNat

/-- The discipline state changes, with its record (R464). -/
def State.setTime (s : State) (st : Nat) : State :=
  if s.time.st = st then s
  else
    let old := s.time.st
    let s := { s with time := { s.time with st := st, small := 0, big := 0 } }
    s.record 0x40 1 (srcHub 5) (leBytes 1 old ++ leBytes 1 st ++ leBytes 2 0 ++ leBytes 8 (s.reg64 0x220010))

/-- The counter is set to the source value (R465): counted, recorded, and NOT_BEFORE compared anew (R466). -/
def State.stepTo (s : State) (src : Nat) : State :=
  let was := s.itNow
  let s := { s.bump 0x22003C 1 with itNow := src % 2 ^ 64 }
  (s.record 0x41 1 (srcHub 5) (leBytes 8 was ++ leBytes 8 s.itNow)).settle

/-- An accepted source update (R464, R465): the source says `src` is now. Log entry 37. -/
def State.timeUpdate (s : State) (src : Nat) : State :=
  let off : Int := (s.itNow : Int) - (src : Int)
  let far := decide (s.stepNs ≤ off.natAbs)
  let s := (s.setReg64 0x220010 ((off % (2 ^ 64 : Int)).toNat))
  let s := { s with time := { s.time with lastUpdate := s.itNow } }
  match s.time.st with
  | 2 =>
    if far then
      let n := s.time.big + 1
      if 4 ≤ n then (s.stepTo src).setTime 1 else { s with time := { s.time with big := n } }
    else { s with time := { s.time with big := 0 } }
  | 3 => if far then (s.setTime 1).stepTo src else s.setTime 2
  | _ =>
    let s := s.setTime 1
    if far then { s.stepTo src with time := { s.time with small := 0 } }
    else
      let n := if off.natAbs < 100 then s.time.small + 1 else 0
      let s := { s with time := { s.time with small := n } }
      if 16 ≤ n then s.setTime 2 else s

/-- SOURCE: 0 PULSE, 1 PTP. -/
def State.timeSource (s : State) : Nat := s.fld 0x220008 1 0

/-- A change of SOURCE starts the loop again (R464). -/
def State.sourceChanged (s : State) : State :=
  let s := s.setTime 0
  { s with time := { s.time with tod := none, lastPulse := none, small := 0, big := 0 } }

/-- TIME_IN_PULSE (R462, R463): an edge arrives PULSE_DELAY_NS after the IT its message gave; without a message it is used only while
LOCKED. -/
def execTimeInPulse (it : Nat) (s : State) : Host.Outcome State Fault Refusal :=
  .next (
    let s := s.advance it
    if !s.ready || s.timeSource != 0 then s
    else
      let p := match s.time.tod with
        | some t => some t
        | none => if s.time.st = 2 then s.time.lastPulse.map (· + 1000000) else none
      let s := { s with time := { s.time with edgeAt := some s.itNow, tod := none, lastPulse := p } }
      match p with
      | none => s
      | some t =>
        let s := s.timeUpdate (t + s.fld 0x22004C 15 0)
        { s with time := { s.time with edgeAt := some s.itNow } })

/-- A time-of-day message is accepted (R463). -/
def State.todOk (s : State) (bs : List Byte) : Bool :=
  bs.length == 12 && leNat (bs.drop 10) == crc16 (bs.take 10) && bits (leNat ((bs.drop 8).take 1)) 0 0 == 1 &&
  (leNat (bs.take 8) % 1000000 == 0) &&
  (match s.time.edgeAt with
   | some e => decide (e + 50000 ≤ s.itNow) && decide (s.itNow ≤ e + 950000)
   | none => false)

/-- TOD_MESSAGE (R463): it gives the IT of the next edge, or is ignored and counted. -/
def execTodMessage (bytes : List Byte) (s : State) : Host.Outcome State Fault Refusal :=
  .next (if !s.ready then s
  else if s.todOk bytes then { s with time := { s.time with tod := some (leNat (bytes.take 8)) } }
  else s.bump 0x220040 1)

/-- PTP_MESSAGE (R462): IT = TAI - TAI_EPOCH, in the domain PTP_DOMAIN. -/
def execPtpMessage (domain : Nat) (tai : Nat) (it : Nat) (s : State) : Host.Outcome State Fault Refusal :=
  .next (
    let s := s.advance it
    if !s.ready || s.timeSource != 1 || s.fld 0x220008 31 24 != domain then s
    else s.timeUpdate ((tai + 2 ^ 64 - s.reg64 0x220018) % 2 ^ 64))

/-- HOLDOVER_TIMEOUT (R464): LOCKED with no accepted update for 3 ms, or for 8 sync intervals under PTP. -/
def execHoldoverTimeout (it : Nat) (s : State) : Host.Outcome State Fault Refusal :=
  .next (
    let s := s.advance it
    if s.ready && s.time.st == 2 && (s.timeSource == 1 || decide (s.time.lastUpdate + 3000000 ≤ s.itNow)) then s.setTime 3 else s)

end Sys2Proof.Machine
end

