-- ==== Sys2Proof/Machine/Regs.lean ====
section
/-! DEFINITION. Writes to BAR0 (18 R543-R550): the operation behind each register, and the rows that are one register write each. -/

namespace Sys2Proof.Machine

/-! ## The write itself -/

/-- The plain effect of a write: its fields take what R546 gives them, and pending fields are held. -/
def State.putFields (s : State) (a : RegAt) (v : Nat) : State := (s.markHeld a v).putStored a (s.written a v)

/-- CONFIG of a synchronisation object (R414). -/
def State.objConfig (s : State) (i v : Nat) : State :=
  s.setObj i { s.obj i with config := BitVec.ofNat 32 (putBits (v % 2 ^ 32) 30 30 0) }

/-- The two W1C flags of a synchronisation object (R414). -/
def State.objFlags (s : State) (i v : Nat) : State :=
  let x := s.obj i
  s.setObj i { x with sat := x.sat && bits v 31 31 == 0, rfail := x.rfail && bits v 30 30 == 0 }

/-- ACCT_CTL (R438): ACCT_WRITE restarts when ENABLE rises. -/
def State.acctCtl (s : State) (a : RegAt) (v : Nat) : State :=
  let s' := s.putFields a v
  if s.fld 0x20018 31 31 = 0 ∧ s'.fld 0x20018 31 31 = 1 then s'.setReg64 0x20020 0 else s'

/-- PORT_CFG (R442, R472). -/
def State.portCfg (s : State) (a : RegAt) (v : Nat) : State :=
  let s' := s.putFields a v
  if s.fld a.off 11 8 = s'.fld a.off 11 8 ∧ s.fld a.off 6 4 = s'.fld a.off 6 4 ∧ s.fld a.off 3 0 = s'.fld a.off 3 0 then s'
  else s'.portReconfigured a.i

/-- REPLAY_WINDOW_NS (R456). -/
def State.replayCfg (s : State) (a : RegAt) (v : Nat) : State :=
  let s' := s.putFields a v
  if s.reg a.off = s'.reg a.off then s' else s'.recomputeMin

/-- SOURCE and PTP_DOMAIN (R464, R473). -/
def State.timeCfg (s : State) (a : RegAt) (v : Nat) : State :=
  let s' := s.putFields a v
  if s.fld a.off 1 0 = s'.fld a.off 1 0 then s' else s'.sourceChanged

/-- PROFILE_CTL.REQ (R476). -/
def State.profileCfg (s : State) (a : RegAt) (v : Nat) : State :=
  let s' := s.putFields a v
  if s.fld a.off 1 0 = s'.fld a.off 1 0 then s' else s'.profileReq (s'.fld a.off 1 0)

/-- WASH_CTL.ENABLE (R512, R513). -/
def State.washCfg (s : State) (a : RegAt) (v : Nat) : State :=
  let s' := s.putFields a v
  if s.washOn = s'.washOn then s' else if s'.washOn then s'.washStarts else s'.stopBurn

/-- REG_CTL.ENABLE (R369): the buckets are full when it rises, and nothing is held once it falls. -/
def State.regCfg (s : State) (a : RegAt) (v : Nat) : State :=
  let s' := s.putFields a v
  if s.fld a.off 0 0 = 0 ∧ s'.fld a.off 0 0 = 1 then { s' with buckets := [], heldReqs := [] }
  else if s'.fld a.off 0 0 = 0 then { s' with heldReqs := [] }
  else s'

/-- POOL_CTL.APPLY (R240). -/
def State.poolGo (s : State) : State := if s.fld 0x148838 0 0 = 1 ∨ s.fld 0x148804 3 0 = 1 then s else s.applyPool

/-- A GO bit of the diagnostics block that is written 0. -/
def State.goOff (s : State) (a : RegAt) : State := if s.locked a then s else s.setFld a.off 0 0 0

/-- `f` where bit 0 of the word written is 1. -/
def State.ifBit (s : State) (v : Nat) (f : State → State) : State := if v % 2 = 1 then f s else s

/-- What a write of `v` by `r` to the register `a` does. -/
def State.effect (s : State) (r : Requester) (a : RegAt) (v : Nat) : State :=
  match a.row.base with
  | 0x100 => s.resetCtl r v
  | 0x1010 => s.ifBit v State.lcGo
  | 0x2020 => s.primerCmd r v
  | 0x3020 => s.sbRead v
  | 0x3040 => s.sbNote v
  | 0x10000 => if v % 2 = 1 then s.enableQueue a.i else s.disableQueue a.i
  | 0x18000 => s.tailDoorbell a.i (v % 65536)
  | 0x18004 => s.headDoorbell a.i (v % 65536)
  | 0x1A014 => s.ifBit v State.clearCp
  | 0x20018 => s.acctCtl a v
  | 0x20030 => s.ifBit v State.clearSched
  | 0x40000 => s.writeObj a.i v
  | 0x40008 => s.objConfig a.i v
  | 0x4000C => s.objFlags a.i v
  | 0x100004 => s.tileControl a.i v
  | 0x100110 => s.ifBit v fun s => s.clearRes a.i
  | 0x100284 => s.ifBit v fun s => s.repairGo a.i
  | 0x100818 => s.ifBit v fun s => s.clearAdapt a.i
  | 0x140030 => s.ifBit v fun s => s.clearGlz a.i
  | 0x148030 => s.ifBit v fun s => s.clearAtt a.i
  | 0x148800 => s.ifBit v State.poolGo
  | 0x14883C => s.ifBit v State.clearPool
  | 0x150030 => s.ifBit v fun s => s.clearItx a.i
  | 0x154030 => s.ifBit v fun s => s.clearCrs a.i
  | 0x158030 => s.ifBit v fun s => s.clearRtc a.i
  | 0x15C030 => s.ifBit v fun s => s.clearDma a.i
  | 0x180E00 => s.ifBit v State.clearHbmErr
  | 0x181000 => s.regCfg a v
  | 0x181100 => s.settleBuckets a.j fun s => s.putFields a v
  | 0x181104 => s.settleBuckets a.j fun s => s.putFields a v
  | 0x18203C => s.ifBit v State.clearMig
  | 0x182040 => s.granuleQuery v
  | 0x1C0050 => s.ifBit v State.clearFtl
  | 0x200004 => if s.locked a then s else s.storeTimeout v
  | 0x200008 => s.replayCfg a v
  | 0x200038 => s.ifBit v State.clearLink
  | 0x200100 => s.portCfg a v
  | 0x220008 => s.timeCfg a v
  | 0x220044 => s.ifBit v State.clearTime
  | 0x240030 => s.ifBit v fun s => s.clearCv a.i
  | 0x260000 => s.profileCfg a v
  | 0x260014 => s.ifBit v fun s => s.enterSafe 5
  | 0x26004C => s.ifBit v State.clearDep
  | 0x280018 => s.washCfg a v
  | 0x280068 => s.ifBit v State.clearPwr
  | 0x2C0100 => if v % 2 = 1 then (s.putFields a v).marginGo else (s.putFields a v).goOff a
  | 0x2C1000 => if v % 2 = 1 then (s.putFields a v).eyeGo a.i else (s.putFields a v).goOff a
  | 0x2C2000 => if v % 2 = 1 then (s.putFields a v).testGo a.i else (s.putFields a v).goOff a
  | 0x300030 => s.ifBit v State.clearIng
  | _ => s.putFields a v

/-- A 32-bit write (R543, R544): the low half of a 64-bit register is staged, the high half commits both. -/
def State.write32 (s : State) (r : Requester) (off v : Nat) : State :=
  match regAt off with
  | none => s.setStage r none
  | some a =>
    if a.row.wide then
      if a.byte = 0 then s.setStage r (some { off := a.off, val := BitVec.ofNat 32 v })
      else
        let lo := match s.stage r with
          | some x => if x.off = a.off then x.val.toNat else s.stored a % 2 ^ 32
          | none => s.stored a % 2 ^ 32
        s.act r a.off fun s => s.effect r a (lo + 2 ^ 32 * (v % 2 ^ 32))
    else s.act r off fun s => s.effect r a v

/-- A 64-bit write: one access to a 64-bit register, two accesses in address order otherwise (R543). -/
def State.write64 (s : State) (r : Requester) (off v : Nat) : State :=
  match (regAt off).filter fun a => a.row.wide && a.byte == 0 with
  | some a => s.act r off fun s => s.effect r a v
  | none => (s.write32 r off (v % 2 ^ 32)).write32 r (off + 4) (v / 2 ^ 32)

/-- A write to BAR0 of `bytes` bytes: any but an aligned 32-bit or 64-bit one is ignored (R543). -/
def State.bar0Write (s : State) (r : Requester) (off v bytes : Nat) : State :=
  if bytes = 4 ∧ off % 4 = 0 then s.write32 r off (v % 2 ^ 32)
  else if bytes = 8 ∧ off % 8 = 0 then s.write64 r off v
  else s.setStage r none

/-- REGISTER_WRITE (R543-R550). -/
def execRegisterWrite (req : Requester) (off : Nat) (v : W64) (bytes : Nat) (s : State) : Host.Outcome State Fault Refusal :=
  .next (s.bar0Write req off v.toNat bytes)

/-! ## Queues, objects, queries (R400, R401, R414, R370, R500) -/

/-- Q_ENABLE (R375, R400). -/
def execQEnable (req : Requester) (q : Fin 512) (s : State) : Host.Outcome State Fault Refusal :=
  .next (s.act req (qBase q.val) fun s => s.enableQueue q.val)

/-- Q_DISABLE (R375, R400). -/
def execQDisable (req : Requester) (q : Fin 512) (s : State) : Host.Outcome State Fault Refusal :=
  .next (s.act req (qBase q.val) fun s => s.disableQueue q.val)

/-- SQ_TAIL_DB (R376, R401): bits 31 to 16 are reserved. -/
def execSqTailDb (req : Requester) (q : Fin 512) (v : W32) (s : State) : Host.Outcome State Fault Refusal :=
  .next (s.act req (0x18000 + 8 * q.val) fun s => s.tailDoorbell q.val (v.toNat % 65536))

/-- CQ_HEAD_DB (R377, R401): bits 31 to 16 are reserved. -/
def execCqHeadDb (req : Requester) (q : Fin 512) (v : W32) (s : State) : Host.Outcome State Fault Refusal :=
  .next (s.act req (0x18004 + 8 * q.val) fun s => s.headDoorbell q.val (v.toNat % 65536))

/-- OBJ_VALUE_WRITE (R406, R414). -/
def execObjValueWrite (req : Requester) (i : Fin 16384) (v : W64) (s : State) : Host.Outcome State Fault Refusal :=
  .next (s.act req (0x40000 + 16 * i.val) fun s => s.writeObj i.val v.toNat)

/-- GRANULE_QUERY (R370). -/
def execGranuleQuery (req : Requester) (v : W64) (s : State) : Host.Outcome State Fault Refusal :=
  .next (s.act req 0x182040 fun s => s.granuleQuery v.toNat)

/-- SB_READ (R500). -/
def execSbRead (req : Requester) (v : W64) (s : State) : Host.Outcome State Fault Refusal :=
  .next (s.act req 0x3020 fun s => s.sbRead v.toNat)

/-- SB_NOTE (R500). -/
def execSbNote (req : Requester) (v : W64) (s : State) : Host.Outcome State Fault Refusal :=
  .next (s.act req 0x3040 fun s => s.sbNote v.toNat)

/-! ## Reset, life cycle, safe state, profile, primer (R520, R534, R480, R476, R530) -/

/-- RESET_CTL (R520, R539). -/
def execResetCtl (req : Requester) (v : W32) (s : State) : Host.Outcome State Fault Refusal :=
  .next (s.act req 0x100 fun s => s.resetCtl req v.toNat)

/-- SAFE_CTL_ENTER (R480, R498). -/
def execSafeCtlEnter (req : Requester) (s : State) : Host.Outcome State Fault Refusal :=
  .next (s.act req 0x260014 fun s => s.enterSafe 5)

/-- PROFILE_REQ (R476). -/
def execProfileReq (req : Requester) (v : W32) (s : State) : Host.Outcome State Fault Refusal :=
  .next (s.write32 req 0x260000 v.toNat)

/-- LC_GO (R534, R535). -/
def execLcGo (req : Requester) (s : State) : Host.Outcome State Fault Refusal :=
  .next (s.act req 0x1010 State.lcGo)

/-- PRIMER_WRITE (R530): OP 0, SLOT and GO in one write. -/
def execPrimerWrite (req : Requester) (slotB : Bool) (s : State) : Host.Outcome State Fault Refusal :=
  .next (s.act req 0x2020 fun s => s.primerCmd req (0x100 + (if slotB then 0x10 else 0) + 0))

/-- PRIMER_ERASE (R530): OP 1, SLOT and GO in one write. -/
def execPrimerErase (req : Requester) (slotB : Bool) (s : State) : Host.Outcome State Fault Refusal :=
  .next (s.act req 0x2020 fun s => s.primerCmd req (0x100 + (if slotB then 0x10 else 0) + 1))

/-- PRIMER_VALIDATE (R530): OP 2, SLOT and GO in one write. -/
def execPrimerValidate (req : Requester) (slotB : Bool) (s : State) : Host.Outcome State Fault Refusal :=
  .next (s.act req 0x2020 fun s => s.primerCmd req (0x100 + (if slotB then 0x10 else 0) + 2))

/-! ## Tiles, repair, diagnostics, pool (R130, R134, R240, R566-R574) -/

/-- TILE_QUARANTINE (R130). -/
def execTileQuarantine (req : Requester) (t : Fin 64) (s : State) : Host.Outcome State Fault Refusal :=
  .next (s.act req (0x100004 + 0x1000 * t.val) fun s => s.tileControl t.val 2)

/-- TILE_RELEASE (R130). -/
def execTileRelease (req : Requester) (t : Fin 64) (s : State) : Host.Outcome State Fault Refusal :=
  .next (s.act req (0x100004 + 0x1000 * t.val) fun s => s.tileControl t.val 1)

/-- REPAIR_GO (R127, R134). -/
def execRepairGo (req : Requester) (t : Fin 64) (s : State) : Host.Outcome State Fault Refusal :=
  .next (s.act req (0x100284 + 0x1000 * t.val) fun s => s.repairGo t.val)

/-- POOL_APPLY (R240, R243). -/
def execPoolApply (req : Requester) (s : State) : Host.Outcome State Fault Refusal :=
  .next (s.act req 0x148800 State.poolGo)

/-- TILE_TEST_GO (R567, R569): PATTERN and GO in one write. -/
def execTileTestGo (req : Requester) (t : Fin 64) (v : W32) (s : State) : Host.Outcome State Fault Refusal :=
  .next (s.write32 req (testCtl t.val) (v ||| 1).toNat)

/-- HBM_MARGIN_GO (R573): STACK, KIND and GO in one write. -/
def execHbmMarginGo (req : Requester) (v : W32) (s : State) : Host.Outcome State Fault Refusal :=
  .next (s.write32 req 0x2C0100 (v ||| 1).toNat)

/-- EYE_GO (R574): LANE and GO in one write. -/
def execEyeGo (req : Requester) (port : Fin 12) (v : W32) (s : State) : Host.Outcome State Fault Refusal :=
  .next (s.write32 req (eyeCtl port.val) (v ||| 1).toNat)

/-! ## Registers whose write starts something (R442, R456, R438, R512, R369, R529) -/

/-- PORT_CFG_WRITE (R442, R472). -/
def execPortCfgWrite (req : Requester) (port : Fin 12) (v : W32) (s : State) : Host.Outcome State Fault Refusal :=
  .next (s.write32 req (0x200100 + 0x40 * port.val) v.toNat)

/-- TRANSPORT_TIMEOUT_WRITE (R456). -/
def execTransportTimeoutWrite (req : Requester) (v : W32) (s : State) : Host.Outcome State Fault Refusal :=
  .next (s.write32 req 0x200004 v.toNat)

/-- REPLAY_WINDOW_WRITE (R456, R471). -/
def execReplayWindowWrite (req : Requester) (v : W32) (s : State) : Host.Outcome State Fault Refusal :=
  .next (s.write32 req 0x200008 v.toNat)

/-- ACCT_ENABLE (R438). -/
def execAcctEnable (req : Requester) (v : W32) (s : State) : Host.Outcome State Fault Refusal :=
  .next (s.write32 req 0x20018 (v ||| 0x80000000).toNat)

/-- WASH_ENABLE (R512). -/
def execWashEnable (req : Requester) (v : W32) (s : State) : Host.Outcome State Fault Refusal :=
  .next (s.write32 req 0x280018 (v ||| 1).toNat)

/-- REG_ENABLE (R369). -/
def execRegEnable (req : Requester) (v : W32) (s : State) : Host.Outcome State Fault Refusal :=
  .next (s.write32 req 0x181000 (v ||| 1).toNat)

/-- PENDING_FIELD_WRITE (R529): a write of a register that holds pending fields. -/
def execPendingFieldWrite (req : Requester) (off : Nat) (v : W32) (s : State) : Host.Outcome State Fault Refusal :=
  .next (if pendingFields.any fun f => f.1 == off then s.write32 req off v.toNat else s)

/-! ## CLEAR writes -/

/-- RES_CLEAR (R131). -/
def execResClear (req : Requester) (t : Fin 64) (s : State) : Host.Outcome State Fault Refusal :=
  .next (s.act req (0x100110 + 0x1000 * t.val) fun s => s.clearRes t.val)

/-- GLZ_CLEAR (R206). -/
def execGlzClear (req : Requester) (i : Fin 8) (s : State) : Host.Outcome State Fault Refusal :=
  .next (s.act req (0x140030 + 0x1000 * i.val) fun s => s.clearGlz i.val)

/-- ATT_CLEAR (R239). -/
def execAttClear (req : Requester) (i : Fin 8) (s : State) : Host.Outcome State Fault Refusal :=
  .next (s.act req (0x148030 + 0x1000 * i.val) fun s => s.clearAtt i.val)

/-- POOL_CLEAR (R242). -/
def execPoolClear (req : Requester) (s : State) : Host.Outcome State Fault Refusal :=
  .next (s.act req 0x14883C State.clearPool)

/-- ITX_CLEAR (R272). -/
def execItxClear (req : Requester) (i : Fin 4) (s : State) : Host.Outcome State Fault Refusal :=
  .next (s.act req (0x150030 + 0x1000 * i.val) fun s => s.clearItx i.val)

/-- CRS_CLEAR (R272). -/
def execCrsClear (req : Requester) (i : Fin 4) (s : State) : Host.Outcome State Fault Refusal :=
  .next (s.act req (0x154030 + 0x1000 * i.val) fun s => s.clearCrs i.val)

/-- ING_CLEAR (R291). -/
def execIngClear (req : Requester) (s : State) : Host.Outcome State Fault Refusal :=
  .next (s.act req 0x300030 State.clearIng)

/-- RTC_CLEAR (R325). -/
def execRtcClear (req : Requester) (i : Fin 4) (s : State) : Host.Outcome State Fault Refusal :=
  .next (s.act req (0x158030 + 0x1000 * i.val) fun s => s.clearRtc i.val)

/-- HBM_ERR_CLEAR (R368). -/
def execHbmErrClear (req : Requester) (s : State) : Host.Outcome State Fault Refusal :=
  .next (s.act req 0x180E00 State.clearHbmErr)

/-- MIG_CLEAR (R370). -/
def execMigClear (req : Requester) (s : State) : Host.Outcome State Fault Refusal :=
  .next (s.act req 0x18203C State.clearMig)

/-- FTL_CLEAR (R371). -/
def execFtlClear (req : Requester) (s : State) : Host.Outcome State Fault Refusal :=
  .next (s.act req 0x1C0050 State.clearFtl)

/-- DMA_CLEAR (R372). -/
def execDmaClear (req : Requester) (i : Fin 16) (s : State) : Host.Outcome State Fault Refusal :=
  .next (s.act req (0x15C030 + 0x1000 * i.val) fun s => s.clearDma i.val)

/-- CP_CLEAR (R402). -/
def execCpClear (req : Requester) (s : State) : Host.Outcome State Fault Refusal :=
  .next (s.act req 0x1A014 State.clearCp)

/-- SCHED_CLEAR (R438). -/
def execSchedClear (req : Requester) (s : State) : Host.Outcome State Fault Refusal :=
  .next (s.act req 0x20030 State.clearSched)

/-- LINK_CLEAR (R471). -/
def execLinkClear (req : Requester) (s : State) : Host.Outcome State Fault Refusal :=
  .next (s.act req 0x200038 State.clearLink)

/-- TIME_CLEAR (R473). -/
def execTimeClear (req : Requester) (s : State) : Host.Outcome State Fault Refusal :=
  .next (s.act req 0x220044 State.clearTime)

/-- DEP_CLEAR (R498). -/
def execDepClear (req : Requester) (s : State) : Host.Outcome State Fault Refusal :=
  .next (s.act req 0x26004C State.clearDep)

/-- CV_CLEAR (R499). -/
def execCvClear (req : Requester) (i : Fin 24) (s : State) : Host.Outcome State Fault Refusal :=
  .next (s.act req (0x240030 + 0x1000 * i.val) fun s => s.clearCv i.val)

/-- PWR_CLEAR (R517, R518). -/
def execPwrClear (req : Requester) (s : State) : Host.Outcome State Fault Refusal :=
  .next (s.act req 0x280068 State.clearPwr)

/-- ADAPT_CLEAR (R519). -/
def execAdaptClear (req : Requester) (t : Fin 64) (s : State) : Host.Outcome State Fault Refusal :=
  .next (s.act req (0x100818 + 0x1000 * t.val) fun s => s.clearAdapt t.val)

/-! ## LOCK bits (R549) -/

/-- A LOCK bit is set. -/
def State.setLock (s : State) (r : Requester) (off : Nat) : State := s.act r off fun s => s.setFld off 0 0 1

/-- GLOBAL_LOCK. -/
def execGlobalLock (req : Requester) (s : State) : Host.Outcome State Fault Refusal :=
  .next (s.setLock req 0x130)

/-- PRIMER_LOCK. -/
def execPrimerLock (req : Requester) (s : State) : Host.Outcome State Fault Refusal :=
  .next (s.setLock req 0x2028)

/-- CP_LOCK. -/
def execCpLock (req : Requester) (s : State) : Host.Outcome State Fault Refusal :=
  .next (s.setLock req 0x1A018)

/-- SCHED_LOCK. -/
def execSchedLock (req : Requester) (s : State) : Host.Outcome State Fault Refusal :=
  .next (s.setLock req 0x20034)

/-- POOL_LOCK. -/
def execPoolLock (req : Requester) (s : State) : Host.Outcome State Fault Refusal :=
  .next (s.setLock req 0x148838)

/-- HBM_LOCK. -/
def execHbmLock (req : Requester) (s : State) : Host.Outcome State Fault Refusal :=
  .next (s.setLock req 0x180040)

/-- FTL_LOCK. -/
def execFtlLock (req : Requester) (s : State) : Host.Outcome State Fault Refusal :=
  .next (s.setLock req 0x1C0054)

/-- LINK_LOCK. -/
def execLinkLock (req : Requester) (s : State) : Host.Outcome State Fault Refusal :=
  .next (s.setLock req 0x20003C)

/-- TIME_LOCK. -/
def execTimeLock (req : Requester) (s : State) : Host.Outcome State Fault Refusal :=
  .next (s.setLock req 0x220048)

/-- DEP_LOCK. -/
def execDepLock (req : Requester) (s : State) : Host.Outcome State Fault Refusal :=
  .next (s.setLock req 0x260050)

/-- PWR_LOCK. -/
def execPwrLock (req : Requester) (s : State) : Host.Outcome State Fault Refusal :=
  .next (s.setLock req 0x28006C)

/-- DIAG_LOCK. -/
def execDiagLock (req : Requester) (s : State) : Host.Outcome State Fault Refusal :=
  .next (s.setLock req 0x2C0004)

/-- REPAIR_LOCK of a tile. -/
def execRepairLock (req : Requester) (t : Fin 64) (s : State) : Host.Outcome State Fault Refusal :=
  .next (s.setLock req (0x10028C + 0x1000 * t.val))

end Sys2Proof.Machine
end

