-- ==== Sys2Proof/Machine/Dispatch.lean ====
section
/-! DEFINITION. One arm per command: its meaning, or its rejection by name. -/

namespace Sys2Proof.Machine

def exec (i : Instr) (s : State) : Host.Outcome State Fault Refusal :=
  match i with
  | .nop tok => Sys2Proof.Machine.execNop tok s
  | .fence tok => Sys2Proof.Machine.execFence tok s
  | .wait tok => Sys2Proof.Machine.execWait tok s
  | .signal tok => Sys2Proof.Machine.execSignal tok s
  | .loadProgram tok => Sys2Proof.Machine.execLoadProgram tok s
  | .run a => Sys2Proof.Machine.execRun a s
  | .unloadProgram tok => Sys2Proof.Machine.execUnloadProgram tok s
  | .sceneOpen tok => Sys2Proof.Machine.execSceneOpen tok s
  | .streamOpen tok => Sys2Proof.Machine.execStreamOpen tok s
  | .fork tok => Sys2Proof.Machine.execFork tok s
  | .forkCommit tok => Sys2Proof.Machine.execForkCommit tok s
  | .step a => Sys2Proof.Machine.execStep a s
  | .ingestSeq a => Sys2Proof.Machine.execIngestSeq a s
  | .streamCommit tok idx => Sys2Proof.Machine.execStreamCommit tok idx s
  | .park tok => Sys2Proof.Machine.execPark tok s
  | .parkRelease tok => Sys2Proof.Machine.execParkRelease tok s
  | .close tok => Sys2Proof.Machine.execClose tok s
  | .closeScene tok => Sys2Proof.Machine.execCloseScene tok s
  | .copy tok => Sys2Proof.Machine.execCopy tok s
  | .dmaPiece tok mover h => Sys2Proof.Machine.execDmaPiece tok mover h s
  | .migrateToHbm tok => Sys2Proof.Machine.execMigrateToHbm tok s
  | .migrateFlush tok => Sys2Proof.Machine.execMigrateFlush tok s
  | .migrateToFlash tok => Sys2Proof.Machine.execMigrateToFlash tok s
  | .migrateZeroFill tok => Sys2Proof.Machine.execMigrateZeroFill tok s
  | .hintPin tok => Sys2Proof.Machine.execHintPin tok s
  | .hintUnpin tok => Sys2Proof.Machine.execHintUnpin tok s
  | .hintNoWb tok => Sys2Proof.Machine.execHintNoWb tok s
  | .hintWb tok => Sys2Proof.Machine.execHintWb tok s
  | .hintStream tok => Sys2Proof.Machine.execHintStream tok s
  | .hintNostream tok => Sys2Proof.Machine.execHintNostream tok s
  | .hintWillneed tok => Sys2Proof.Machine.execHintWillneed tok s
  | .hintDontneed tok => Sys2Proof.Machine.execHintDontneed tok s
  | .prefetchWindow tok => Sys2Proof.Machine.execPrefetchWindow tok s
  | .update tok => Sys2Proof.Machine.execUpdate tok s
  | .retouchClaim tok => Sys2Proof.Machine.execRetouchClaim tok s
  | .retouchChunk tok b h => Sys2Proof.Machine.execRetouchChunk tok b h s
  | .rootRefresh tok => Sys2Proof.Machine.execRootRefresh tok s
  | .newtonIteration tok => Sys2Proof.Machine.execNewtonIteration tok s
  | .rootFlip tok => Sys2Proof.Machine.execRootFlip tok s
  | .ingestOpen tok => Sys2Proof.Machine.execIngestOpen tok s
  | .ingestClose tok => Sys2Proof.Machine.execIngestClose tok s
  | .ingestVideo tok => Sys2Proof.Machine.execIngestVideo tok s
  | .ingestStill tok => Sys2Proof.Machine.execIngestStill tok s
  | .ingestScan tok => Sys2Proof.Machine.execIngestScan tok s
  | .ingestSeal tok => Sys2Proof.Machine.execIngestSeal tok s
  | .ingestRelease tok => Sys2Proof.Machine.execIngestRelease tok s
  | .slotSeal scene it => Sys2Proof.Machine.execSlotSeal scene it s
  | .preempt tok => Sys2Proof.Machine.execPreempt tok s
  | .preemptDiscard tok => Sys2Proof.Machine.execPreemptDiscard tok s
  | .resume tok => Sys2Proof.Machine.execResume tok s
  | .selfTest tok => Sys2Proof.Machine.execSelfTest tok s
  | .margin tok => Sys2Proof.Machine.execMargin tok s
  | .checkpoint tok => Sys2Proof.Machine.execCheckpoint tok s
  | .restore tok => Sys2Proof.Machine.execRestore tok s
  | .packetFetch h => Sys2Proof.Machine.execPacketFetch h s
  | .commandDispatch q h => Sys2Proof.Machine.execCommandDispatch q h s
  | .notBeforeReached tok it => Sys2Proof.Machine.execNotBeforeReached tok it s
  | .commandCompletion tok => Sys2Proof.Machine.execCommandCompletion tok s
  | .completionRecordWrite tok => Sys2Proof.Machine.execCompletionRecordWrite tok s
  | .queueDrained q => Sys2Proof.Machine.execQueueDrained q s
  | .unitGrant kind => Sys2Proof.Machine.execUnitGrant kind s
  | .lcCapReached kind it => Sys2Proof.Machine.execLcCapReached kind it s
  | .quantumBoundary it => Sys2Proof.Machine.execQuantumBoundary it s
  | .quiescentPoint tok => Sys2Proof.Machine.execQuiescentPoint tok s
  | .drainEnd tok => Sys2Proof.Machine.execDrainEnd tok s
  | .contextSaveDone tok => Sys2Proof.Machine.execContextSaveDone tok s
  | .contextRestoreDone tok => Sys2Proof.Machine.execContextRestoreDone tok s
  | .mma tok t mism h => Sys2Proof.Machine.execMma tok t mism h s
  | .tileReplay tok t => Sys2Proof.Machine.execTileReplay tok t s
  | .outputBlockRelease tok t h => Sys2Proof.Machine.execOutputBlockRelease tok t h s
  | .fwd tok t h => Sys2Proof.Machine.execFwd tok t h s
  | .stage tok t h => Sys2Proof.Machine.execStage tok t h s
  | .tileNop tok t => Sys2Proof.Machine.execTileNop tok t s
  | .tileWait a t => Sys2Proof.Machine.execTileWait a t s
  | .tileSignal tok t => Sys2Proof.Machine.execTileSignal tok t s
  | .endTile tok t => Sys2Proof.Machine.execEndTile tok t s
  | .engineEntryStart tok e => Sys2Proof.Machine.execEngineEntryStart tok e s
  | .scan tok e h => Sys2Proof.Machine.execScan tok e h s
  | .mask tok e h => Sys2Proof.Machine.execMask tok e h s
  | .carry tok e h => Sys2Proof.Machine.execCarry tok e h s
  | .queryBlock tok e ev h => Sys2Proof.Machine.execQueryBlock tok e ev h s
  | .txIn tok e h => Sys2Proof.Machine.execTxIn tok e h s
  | .txOut tok e h => Sys2Proof.Machine.execTxOut tok e h s
  | .s2d tok e h => Sys2Proof.Machine.execS2d tok e h s
  | .d2s tok e h => Sys2Proof.Machine.execD2s tok e h s
  | .relayout tok e h => Sys2Proof.Machine.execRelayout tok e h s
  | .cropBox tok e h => Sys2Proof.Machine.execCropBox tok e h s
  | .remoteAdd port tx it => Sys2Proof.Machine.execRemoteAdd port tx it s
  | .remoteWrite port tx it => Sys2Proof.Machine.execRemoteWrite port tx it s
  | .reply port rep it => Sys2Proof.Machine.execReply port rep it s
  | .transitForward port tx => Sys2Proof.Machine.execTransitForward port tx s
  | .transportTimeout tx it => Sys2Proof.Machine.execTransportTimeout tx it s
  | .heldTransactionDeadline tx it => Sys2Proof.Machine.execHeldTransactionDeadline tx it s
  | .sourceFullResend tx it => Sys2Proof.Machine.execSourceFullResend tx it s
  | .linkFrameReceive port seq len crcOk => Sys2Proof.Machine.execLinkFrameReceive port seq len crcOk s
  | .nakReceived port seq => Sys2Proof.Machine.execNakReceived port seq s
  | .ackTimer port it => Sys2Proof.Machine.execAckTimer port it s
  | .linkFail port => Sys2Proof.Machine.execLinkFail port s
  | .retrainDone port => Sys2Proof.Machine.execRetrainDone port s
  | .portTrainingRetry port it => Sys2Proof.Machine.execPortTrainingRetry port it s
  | .roceRetransmit port seq => Sys2Proof.Machine.execRoceRetransmit port seq s
  | .ecnCnp port dest => Sys2Proof.Machine.execEcnCnp port dest s
  | .ecnRateStep port dest => Sys2Proof.Machine.execEcnRateStep port dest s
  | .arpRequest port addr => Sys2Proof.Machine.execArpRequest port addr s
  | .timeInPulse it => Sys2Proof.Machine.execTimeInPulse it s
  | .todMessage bytes => Sys2Proof.Machine.execTodMessage bytes s
  | .ptpMessage domain tai it => Sys2Proof.Machine.execPtpMessage domain tai it s
  | .holdoverTimeout it => Sys2Proof.Machine.execHoldoverTimeout it s
  | .cadenceWindowClose it => Sys2Proof.Machine.execCadenceWindowClose it s
  | .fillDone g ok => Sys2Proof.Machine.execFillDone g ok s
  | .evictionWritebackDone g => Sys2Proof.Machine.execEvictionWritebackDone g s
  | .regulatorGrant stack src idle it => Sys2Proof.Machine.execRegulatorGrant stack src idle it s
  | .hbmScrub line found => Sys2Proof.Machine.execHbmScrub line found s
  | .hbmRetrain stack fails => Sys2Proof.Machine.execHbmRetrain stack fails s
  | .readDisturbSample blk steps bits => Sys2Proof.Machine.execReadDisturbSample blk steps bits s
  | .reclaim blk bad => Sys2Proof.Machine.execReclaim blk bad s
  | .wearLevelMove blk => Sys2Proof.Machine.execWearLevelMove blk s
  | .readCounterPersist => Sys2Proof.Machine.execReadCounterPersist s
  | .flashMapLoaded ok => Sys2Proof.Machine.execFlashMapLoaded ok s
  | .powerOn => Sys2Proof.Machine.execPowerOn s
  | .perst => Sys2Proof.Machine.execPerst s
  | .resetNAssert => Sys2Proof.Machine.execResetNAssert s
  | .resetN => Sys2Proof.Machine.execResetN s
  | .hotReset => Sys2Proof.Machine.execHotReset s
  | .lowInput mv => Sys2Proof.Machine.execLowInput mv s
  | .underVoltageTrip mv => Sys2Proof.Machine.execUnderVoltageTrip mv s
  | .overVoltageTrip mv => Sys2Proof.Machine.execOverVoltageTrip mv s
  | .pwrWarnAssert => Sys2Proof.Machine.execPwrWarnAssert s
  | .pwrWarnClear => Sys2Proof.Machine.execPwrWarnClear s
  | .droopStretch t n => Sys2Proof.Machine.execDroopStretch t n s
  | .stretchEnd t n => Sys2Proof.Machine.execStretchEnd t n s
  | .avsUpdate panel need => Sys2Proof.Machine.execAvsUpdate panel need s
  | .allowDecay panel => Sys2Proof.Machine.execAllowDecay panel s
  | .clampRecoverStep panel => Sys2Proof.Machine.execClampRecoverStep panel s
  | .thermalThrottleStep panel temp => Sys2Proof.Machine.execThermalThrottleStep panel temp s
  | .thermalRecoverStep panel temp => Sys2Proof.Machine.execThermalRecoverStep panel temp s
  | .hbmStackHot stack temp => Sys2Proof.Machine.execHbmStackHot stack temp s
  | .junctionLimit sensor temp => Sys2Proof.Machine.execJunctionLimit sensor temp s
  | .washTick it demand => Sys2Proof.Machine.execWashTick it demand s
  | .governorAdjust watts => Sys2Proof.Machine.execGovernorAdjust watts s
  | .burnMismatch t => Sys2Proof.Machine.execBurnMismatch t s
  | .profileSwitchDone h => Sys2Proof.Machine.execProfileSwitchDone h s
  | .sbDrain => Sys2Proof.Machine.execSbDrain s
  | .tileTestDone t fails => Sys2Proof.Machine.execTileTestDone t fails s
  | .hbmMarginDone lane lo hi => Sys2Proof.Machine.execHbmMarginDone lane lo hi s
  | .eyeMeasureDone port width height => Sys2Proof.Machine.execEyeMeasureDone port width height s
  | .repairDone t verified => Sys2Proof.Machine.execRepairDone t verified s
  | .primerOpDone => Sys2Proof.Machine.execPrimerOpDone s
  | .tileQuarantine req t => Sys2Proof.Machine.execTileQuarantine req t s
  | .tileRelease req t => Sys2Proof.Machine.execTileRelease req t s
  | .repairGo req t => Sys2Proof.Machine.execRepairGo req t s
  | .poolApply req => Sys2Proof.Machine.execPoolApply req s
  | .qEnable req q => Sys2Proof.Machine.execQEnable req q s
  | .qDisable req q => Sys2Proof.Machine.execQDisable req q s
  | .sqTailDb req q v => Sys2Proof.Machine.execSqTailDb req q v s
  | .cqHeadDb req q v => Sys2Proof.Machine.execCqHeadDb req q v s
  | .objValueWrite req n v => Sys2Proof.Machine.execObjValueWrite req n v s
  | .granuleQuery req v => Sys2Proof.Machine.execGranuleQuery req v s
  | .sbRead req v => Sys2Proof.Machine.execSbRead req v s
  | .sbNote req v => Sys2Proof.Machine.execSbNote req v s
  | .resetCtl req v => Sys2Proof.Machine.execResetCtl req v s
  | .safeCtlEnter req => Sys2Proof.Machine.execSafeCtlEnter req s
  | .profileReq req v => Sys2Proof.Machine.execProfileReq req v s
  | .lcGo req => Sys2Proof.Machine.execLcGo req s
  | .primerWrite req slotB => Sys2Proof.Machine.execPrimerWrite req slotB s
  | .primerErase req slotB => Sys2Proof.Machine.execPrimerErase req slotB s
  | .primerValidate req slotB => Sys2Proof.Machine.execPrimerValidate req slotB s
  | .tileTestGo req t v => Sys2Proof.Machine.execTileTestGo req t v s
  | .hbmMarginGo req v => Sys2Proof.Machine.execHbmMarginGo req v s
  | .eyeGo req port v => Sys2Proof.Machine.execEyeGo req port v s
  | .portCfgWrite req port v => Sys2Proof.Machine.execPortCfgWrite req port v s
  | .transportTimeoutWrite req v => Sys2Proof.Machine.execTransportTimeoutWrite req v s
  | .acctEnable req v => Sys2Proof.Machine.execAcctEnable req v s
  | .washEnable req v => Sys2Proof.Machine.execWashEnable req v s
  | .regEnable req v => Sys2Proof.Machine.execRegEnable req v s
  | .pendingFieldWrite req off v => Sys2Proof.Machine.execPendingFieldWrite req off v s
  | .resClear req t => Sys2Proof.Machine.execResClear req t s
  | .glzClear req n => Sys2Proof.Machine.execGlzClear req n s
  | .attClear req n => Sys2Proof.Machine.execAttClear req n s
  | .poolClear req => Sys2Proof.Machine.execPoolClear req s
  | .itxClear req n => Sys2Proof.Machine.execItxClear req n s
  | .crsClear req n => Sys2Proof.Machine.execCrsClear req n s
  | .ingClear req => Sys2Proof.Machine.execIngClear req s
  | .rtcClear req n => Sys2Proof.Machine.execRtcClear req n s
  | .hbmErrClear req => Sys2Proof.Machine.execHbmErrClear req s
  | .migClear req => Sys2Proof.Machine.execMigClear req s
  | .ftlClear req => Sys2Proof.Machine.execFtlClear req s
  | .dmaClear req n => Sys2Proof.Machine.execDmaClear req n s
  | .cpClear req => Sys2Proof.Machine.execCpClear req s
  | .schedClear req => Sys2Proof.Machine.execSchedClear req s
  | .linkClear req => Sys2Proof.Machine.execLinkClear req s
  | .timeClear req => Sys2Proof.Machine.execTimeClear req s
  | .depClear req => Sys2Proof.Machine.execDepClear req s
  | .cvClear req n => Sys2Proof.Machine.execCvClear req n s
  | .pwrClear req => Sys2Proof.Machine.execPwrClear req s
  | .adaptClear req t => Sys2Proof.Machine.execAdaptClear req t s
  | .globalLock req => Sys2Proof.Machine.execGlobalLock req s
  | .primerLock req => Sys2Proof.Machine.execPrimerLock req s
  | .cpLock req => Sys2Proof.Machine.execCpLock req s
  | .schedLock req => Sys2Proof.Machine.execSchedLock req s
  | .repairLock req t => Sys2Proof.Machine.execRepairLock req t s
  | .poolLock req => Sys2Proof.Machine.execPoolLock req s
  | .hbmLock req => Sys2Proof.Machine.execHbmLock req s
  | .ftlLock req => Sys2Proof.Machine.execFtlLock req s
  | .linkLock req => Sys2Proof.Machine.execLinkLock req s
  | .timeLock req => Sys2Proof.Machine.execTimeLock req s
  | .depLock req => Sys2Proof.Machine.execDepLock req s
  | .pwrLock req => Sys2Proof.Machine.execPwrLock req s
  | .diagLock req => Sys2Proof.Machine.execDiagLock req s
  | .registerWrite req off v bytes => Sys2Proof.Machine.execRegisterWrite req off v bytes s
  | .ackReceived port seq => Sys2Proof.Machine.execAckReceived port seq s
  | .trainingDone port rate => Sys2Proof.Machine.execTrainingDone port rate s
  | .lowInputEnd mv => Sys2Proof.Machine.execLowInputEnd mv s
  | .hbmStackCool stack temp => Sys2Proof.Machine.execHbmStackCool stack temp s
  | .flushWritebackDone tok g => Sys2Proof.Machine.execFlushWritebackDone tok g s
  | .videoFrame tok used frame => Sys2Proof.Machine.execVideoFrame tok used frame s
  | .scanPacket tok => Sys2Proof.Machine.execScanPacket tok s
  | .replayWindowWrite req v => Sys2Proof.Machine.execReplayWindowWrite req v s
  | .pfcFrame port prio pause => Sys2Proof.Machine.execPfcFrame port prio pause s

end Sys2Proof.Machine
end

