-- ==== Sys2Proof/Safety.lean ====
section
/-! DEFINITION. The terms claims use: what every state keeps (the life-cycle record's rules, the canonical form of the memories), and what a
command leaves alone. -/

namespace Sys2Proof.Machine

/-! ## Invariants -/

/-- The life-cycle record holds the keys its state has (17 R532), no transition is left half done, and the incarnation counter is a
16-bit number. -/
def LcRecord.ok (l : LcRecord) : Prop :=
  l.marker = none ∧ l.incarnation < 2 ^ 16 ∧
  (match l.st with
   | .blank => l.issuer = [] ∧ l.owner = []
   | .issued => keySet l.issuer = true ∧ l.owner = []
   | .owned => keySet l.issuer = true ∧ keySet l.owner = true
   | .ret => l.issuer = [] ∧ l.owner = [])

/-- The canonical form of a memory whose unlisted bytes read 0. -/
abbrev Memory.wf (m : SMap Byte) : Prop := SMap.wf (fun _ => 0) m = true

/-- Every memory of the module, and the host's, is in canonical form. -/
structure State.MemWf (s : State) : Prop where
  hbm : Memory.wf s.hbm
  flash : Memory.wf s.flash
  host : Memory.wf s.host
  pal : Memory.wf s.pal
  shr : Memory.wf s.shr

/-- What no command but a reset, a life-cycle request or a register write changes. -/
def State.ident (s : State) : List Instr × Silicon × LcRecord := (s.pending, s.silicon, s.lc)

/-! ## Frames -/

/-- No byte of any memory differs, and no line's error mark. -/
structure State.SameMem (s t : State) : Prop where
  hbm : t.hbm = s.hbm
  badLines : t.badLines = s.badLines
  flash : t.flash = s.flash
  host : t.host = s.host
  pal : t.pal = s.pal
  shr : t.shr = s.shr

/-- No program, scene, stream, page-pool setting, granule entry or ingest context differs. -/
structure State.SameTables (s t : State) : Prop where
  progs : t.progs = s.progs
  scenes : t.scenes = s.scenes
  streams : t.streams = s.streams
  pool : t.pool = s.pool
  gran : t.gran = s.gran
  ingest : t.ingest = s.ingest

/-- No tile, neighbour link, accumulator, port, open transaction, source entry, clock or supply value differs. -/
structure State.SameUnits (s t : State) : Prop where
  tiles : t.tiles = s.tiles
  links : t.links = s.links
  acc : t.acc = s.acc
  ports : t.ports = s.ports
  openTx : t.openTx = s.openTx
  sources : t.sources = s.sources
  time : t.time = s.time
  power : t.power = s.power

/-- Every command but `tok` is as before. -/
def State.SameOthers (s t : State) (tok : Nat) : Prop := ∀ k, k ≠ tok → t.cmd k = s.cmd k

/-- A command as it stands when it has ended in the step in which it began (12 R382 step 6). -/
def Cmd.endedNow (s : State) (st detail : Nat) (c : Cmd) : Cmd :=
  { c with phase := .ended, begun := true, profile := s.profile, status := st, detail := detail, itDone := s.itNow }

/-- The module is READY, out of safe state and in no transition: every register is open to writes (18 R550). -/
def State.openRegs (s : State) : Prop := s.ready = true ∧ s.safe = false ∧ s.scraping = false

/-- `t` is `s` with the registers of some ranges (first offset, length) at their reset value; the write discarded the half of a 64-bit
register that `req` had staged (18 R544). -/
structure State.Cleared (s t : State) (req : Requester) (rs : List (Nat × Nat)) : Prop where
  inside : ∀ o, (∃ r ∈ rs, r.1 ≤ o ∧ o < r.1 + r.2) → t.reg o = regReset o
  outside : ∀ o, (∀ r ∈ rs, o < r.1 ∨ r.1 + r.2 ≤ o) → t.reg o = s.reg o
  rest : { t with regs := s.regs } = s.setStage req none

/-- `t` is `s` with bit 0 of the register at `off` set; the write discarded what `req` had staged. -/
structure State.BitSet (s t : State) (req : Requester) (off : Nat) : Prop where
  bit : t.fld off 0 0 = 1
  others : t.fld off 31 1 = s.fld off 31 1
  outside : ∀ o, o ≠ off → t.reg o = s.reg o
  rest : { t with regs := s.regs } = s.setStage req none

/-- The registers a write of which is more than its fields' values: their row's base (18 R543-R564). -/
def actingRegs : List Nat :=
  [0x100, 0x1010, 0x2020, 0x3020, 0x3040, 0x10000, 0x18000, 0x18004, 0x1A014, 0x20018, 0x20030, 0x40000, 0x40008, 0x4000C, 0x100004,
   0x100110, 0x100284, 0x100818, 0x140030, 0x148030, 0x148800, 0x14883C, 0x150030, 0x154030, 0x158030, 0x15C030, 0x180E00, 0x181000,
   0x181100, 0x181104, 0x18203C, 0x182040, 0x1C0050, 0x200004, 0x200008, 0x200038, 0x200100, 0x220008, 0x220044, 0x240030, 0x260000, 0x260014, 0x26004C,
   0x280018, 0x280068, 0x2C0100, 0x2C1000, 0x2C2000, 0x300030]

/-- A register whose write only gives its fields their values. -/
def RegAt.plain (a : RegAt) : Bool := !actingRegs.contains a.row.base

/-- A 32-bit counter register has counted `n` more, saturating (16 R517, 18 R546). -/
def State.Counted (s t : State) (o n : Nat) : Prop := (t.reg o).toNat = min ((s.reg o).toNat + n) (2 ^ 32 - 1)

/-- A 64-bit counter register has counted `n` more, saturating. -/
def State.Counted64 (s t : State) (o n : Nat) : Prop := t.reg64 o = min (s.reg64 o + n) (2 ^ 64 - 1)

/-- Only the registers in a list of words differ. -/
def State.OnlyRegs (s t : State) (os : List Nat) : Prop := ∀ o, o ∉ os → t.reg o = s.reg o

/-- ADAPT_STATUS of tile `k` (16 R519): bit 1 shows that it burns. -/
def adaptReg (k : Nat) : Nat := 0x100804 + 0x1000 * k

/-- No tile burns (16 R513). -/
def State.NoBurn (t : State) : Prop := (∀ k, k < 64 → t.fld (adaptReg k) 1 1 = 0) ∧ t.fld 0x280000 8 8 = 0

/-- Safe state as `t` has it when it was entered from `s` (15 R480, R498): the cause is shown, no command and no unit is left, clocks and
rails have stopped, `n` records were written. -/
structure State.EnteredSafe (s t : State) (cause n : Nat) : Prop where
  safe : t.safe = true
  cause : t.fld 0x260010 7 4 = cause
  cmds : t.cmds = []
  units : t.sch.units = []
  stopped : t.power.stopped = true
  records : t.sb.nextSeq = s.sb.nextSeq + n
  pal : t.pal = s.pal
  shr : t.shr = s.shr
  hbm : t.hbm = s.hbm
  flash : t.flash = s.flash
  host : t.host = s.host
  streams : t.streams = s.streams
  objs : t.objs = s.objs

/-! ## Commands -/

/-- `s` with command `tok` ended in the step in which it began (12 R382 step 6). -/
def State.endedAt (s : State) (tok st detail : Nat) : State := s.updCmd tok fun c => c.endedNow s st detail

/-- Command `c` may begin now as one of opcode `op` (12 R383), no other command has its token, and nothing of it has failed. -/
structure State.Begins (s : State) (tok op : Nat) (c : Cmd) : Prop where
  may : s.mayBegin tok op = some c
  alone : ∀ d ∈ s.cmds, d.tok = tok → d = c
  fresh : c.status = 0 ∧ c.detail = 0

/-- Command `c` runs now, and no other command has its token. -/
structure State.Runs (s : State) (tok : Nat) (c : Cmd) : Prop where
  runs : s.running tok = some c
  alone : ∀ d ∈ s.cmds, d.tok = tok → d = c

/-- What a command meets as it begins is no hub error and no lockstep mismatch, and no error that was corrected: nothing, or an uncorrectable
error of another store. -/
def notAtHub : Hazard → Prop
  | .none => True
  | .ue store _ _ => store ≠ .hub
  | _ => False

/-- No fill waits for a frame, no command in flight moves granules of its own, and no apply of the page pool waits. -/
structure State.NoMoves (s : State) : Prop where
  fills : s.fillQ = []
  apply : s.fld 0x148804 3 0 ≠ 1
  cmds : ∀ d ∈ s.cmds, d.op ≠ 0x0301 ∧ d.op ≠ 0x0800

/-! ## Memory -/

/-- `m'` holds at [b, b + n) what `m` holds at [a, a + n), and is `m₀` elsewhere. -/
def CopiedTo (m' m₀ : SMap Byte) (b : Nat) (m : SMap Byte) (a n : Nat) : Prop :=
  (∀ i, i < n → SMap.get (fun _ => 0) m' (b + i) = SMap.get (fun _ => 0) m (a + i)) ∧
  (∀ k, k < b ∨ b + n ≤ k → SMap.get (fun _ => 0) m' k = SMap.get (fun _ => 0) m₀ k)

/-- `m'` reads 0 at [b, b + n) and is `m₀` elsewhere. -/
def ClearedAt (m' m₀ : SMap Byte) (b n : Nat) : Prop :=
  (∀ k, b ≤ k → k < b + n → SMap.get (fun _ => 0) m' k = 0) ∧
  (∀ k, k < b ∨ b + n ≤ k → SMap.get (fun _ => 0) m' k = SMap.get (fun _ => 0) m₀ k)

/-- A mover has moved a granule's bytes, and its BYTES counts them (11 R372); which mover is free. -/
structure State.MovedGranule (s t : State) (os : List Nat) : Prop where
  bytes : ∃ m, m < 16 ∧ s.Counted64 t (0x15C008 + 0x1000 * m) gBytes ∧ s.OnlyRegs t (os ++ [0x15C008 + 0x1000 * m, 0x15C00C + 0x1000 * m])
  free : t.freeCtr = s.freeCtr + 1

/-- A granule's flash home was written: HOST_WRITTEN counts its bytes, NAND_WRITTEN at least those, and its home lies in the pages written
last, all others where they were (11 R353, R371). -/
structure State.HomeWritten (s t : State) (g : Nat) : Prop where
  host : t.ftl.hostWritten = min (2 ^ 64 - 1) (s.ftl.hostWritten + gBytes)
  nand : min (2 ^ 64 - 1) (s.ftl.nandWritten + gBytes) ≤ t.ftl.nandWritten
  home : t.homeOf g = some (t.ftl.cur, t.ftl.taken - 1)
  others : ∀ k, k ≠ g → t.homeOf k = s.homeOf k
  good : ∀ k, SMap.get (fun _ => false) t.flashBad k = if k = g then false else SMap.get (fun _ => false) s.flashBad k

/-- Erase block `b` was emptied and erased (11 R353, R356): one more erase, its count of reads at 0, no granule's home in it; no other block was
erased. -/
structure State.Erased (s t : State) (b : Nat) : Prop where
  erases : (t.block b).erases = (s.block b).erases + 1
  reads : t.readsOf b = 0
  since : (t.block b).since = 0 ∧ (t.block b).interval = none
  empty : ∀ k, b ∉ SMap.get (fun _ => []) t.ftl.groups k
  others : ∀ k, k ≠ b → (t.block k).erases = (s.block k).erases ∧ (t.block k).bad = (s.block k).bad

/-! ## Links -/

/-- The frames of port `p` that `sel` names were sent once more, each at most eight times in all, and LINK_REPLAY of the port counts them
(14 R446, R472). -/
structure State.Replayed (s t : State) (p : Nat) (sel : Frame → Bool) : Prop where
  frames : (t.port p).frames = (s.port p).frames.map fun f =>
    if sel f ∧ 1 ≤ f.sends ∧ f.sends < 8 then { f with sends := f.sends + 1, lastAt := s.itNow } else f
  port : t.port p = { s.port p with frames := (t.port p).frames }
  count : s.Counted64 t (0x200110 + 0x40 * p) ((s.port p).frames.filter fun f => sel f && decide (1 ≤ f.sends) && decide (f.sends < 8)).length
  regs : s.OnlyRegs t [0x200110 + 0x40 * p, 0x200114 + 0x40 * p]
  others : ∀ q, q ≠ p → t.port q = s.port q
  rest : { t with regs := s.regs, ports := s.ports } = s

/-- Nothing waits for a port: no transit traffic, no transaction without a credit. -/
structure State.NothingWaits (s : State) : Prop where
  transit : ∀ q, (s.port q).transit = []
  issue : ∀ x ∈ s.openTx, x.sentOn.isSome = true

/-- Command `c` waits for one transaction fewer; one that has ended for all else has its IT_DONE moved to now (12 R385). -/
def Cmd.oneFewer (c : Cmd) (now : Nat) : Cmd :=
  { c with remotes := c.remotes - 1, itDone := if c.phase = .ended then now else c.itDone }

/-- Open transaction `x` has failed (14 R413, R457): it is closed, its command waits for one fewer and holds the failure unless it held one
before, and a proxy object is flagged where `flag`. `timeout`: the transport timeout failed it, which a command that a pre-emption drains is
told (13 R424). -/
structure State.TxFailed (s t : State) (x : OpenTx) (status detail : Nat) (flag timeout : Bool) : Prop where
  gone : t.openTx = s.openTx.filter fun y => y.id != x.id
  cmds : t.cmds = s.cmds.map fun c =>
    if x.tok = some c.tok then
      { c.oneFewer t.itNow with
        rfail := some (c.rfail.getD (status, detail))
        drainFail := c.drainFail || (timeout && (c.phase == .stopping || c.phase == .draining)) } else c
  proxy : ∀ i, t.obj i = if flag = true ∧ x.proxy = some i then { s.obj i with rfail := true } else s.obj i

/-- Message `m` was put in frames on port `p`, after those that wait there, and nothing else of the port changed but its next sequence
number. -/
structure State.SentOn (s t : State) (p : Nat) (m : Msg) : Prop where
  frames : ∃ fs, fs ≠ [] ∧ (t.port p).frames = (s.port p).frames ++ fs ∧ ∀ f ∈ fs, f.msg = m
  port : t.port p = { s.port p with frames := (t.port p).frames, txSeq := (t.port p).txSeq }

/-- `x` is the source table's entry of a transaction that has nothing to wait for (14 R452-R455): it is of the entry's incarnation, inside its
deadline and window, not closed, not applied, at or above its client's floor, and it says that no lower SEQ is open. -/
structure State.Fresh (s : State) (x : Source) (tx : RxTx) (it : Nat) : Prop where
  known : s.source tx.src.toNat = some x
  dst : tx.dst.toNat = s.moduleId
  inc : x.inc = tx.incarnation.toNat
  whole : tx.e2e = false ∨ tx.e2eOk = true
  lowest : tx.floorSeq = tx.seq
  none_held : x.held = []
  inTime : max s.itNow (it % 2 ^ 64) < tx.deadline.toNat
  window : x.seen = true → sdiff x.highest tx.seq.toNat < 4096
  open_ : tx.seq.toNat ∉ x.closed ∧ ∀ f, x.shut = some f → smax f tx.seq.toNat = tx.seq.toNat
  unapplied : tx.seq.toNat ∉ x.applied
  floor : ∀ f, x.floor tx.client.val = some f → 0 ≤ sdiff tx.epoch.toNat f

/-! ## Resets -/

/-- `t` is the module that a reset of cause `cause` leaves of `s` (17 R520-R523, R537): READY again, with its BOOT record as the last one, no
command, queue, object, scene, stream or transaction, no loaded program, IT 0 and volatile memories empty; silicon, fuses, the life-cycle
record, the host's memory and the waiting commands stand, and so does flash unless the page pool was configured on it. -/
structure State.Rebooted (s t : State) (cause : Nat) : Prop where
  ready : t.ready = true
  shown : t.reg 0x104 = BitVec.ofNat 32 cause
  boot : ∃ r, t.sb.mram.getLast? = some r ∧ r.bytes.getD 16 0 = 1 ∧ r.bytes.getD 24 0 = BitVec.ofNat 8 cause
  lc : t.lc = { s.lc with incarnation := (s.lc.incarnation + 1) % 65536 }
  idle : t.cmds = [] ∧ t.sch.units = [] ∧ t.queues = [] ∧ t.openTx = [] ∧ t.fillQ = [] ∧ t.claims = []
  tables : t.objs = [] ∧ t.scenes = [] ∧ t.streams = [] ∧ t.ingest = [] ∧ t.sources = []
  progs : ∀ i, (t.pslot i).prog = none
  empty : t.pal = [] ∧ t.shr = [] ∧ t.acc = [] ∧ t.links = []
  time : t.itNow = 0
  flash : t.fld 0x148804 8 8 = 0 → t.flash = s.flash ∧ t.hbm = []
  kept : t.silicon = s.silicon ∧ t.host = s.host ∧ t.pending = s.pending
  slots : s.primerJob = none → t.slotA = s.slotA ∧ t.slotB = s.slotB
  fuses : SMap.wf (fun _ => ({} : Tile)) s.tiles = true → ∀ k, (t.tile k).recs = (s.tile k).recs ∧
    (t.tile k).factRow = (s.tile k).factRow ∧ (t.tile k).factCol = (s.tile k).factCol ∧ (t.tile k).retireFuse = (s.tile k).retireFuse

/-! ## Time -/

/-- `t` is `u` after the discipline loop took an accepted update, whose source says that `src` is now (14 R464, R465): the offset is shown;
within STEP_NS LOCKED stays LOCKED, HOLDOVER returns to it, and 16 updates in a row within 100 ns reach it; beyond it the counter is set to
the source, while LOCKED at the fourth such update in a row alone. -/
structure State.Disciplined (u t : State) (src : Nat) : Prop where
  offset : t.reg64 0x220010 = (((u.itNow : Int) - (src : Int)) % 2 ^ 64).toNat
  update : t.time.lastUpdate = u.itNow
  near : ((u.itNow : Int) - (src : Int)).natAbs < u.stepNs → t.itNow = u.itNow ∧ t.sb.nextSeq ≤ u.sb.nextSeq + 2 ∧ t.cmds = u.cmds ∧
    (u.time.st = 2 ∨ u.time.st = 3 → t.time.st = 2) ∧
    (u.time.st ≤ 1 → t.time.st = if ((u.itNow : Int) - (src : Int)).natAbs < 100 ∧ u.time.st = 1 ∧ 15 ≤ u.time.small then 2 else 1)
  far : u.stepNs ≤ ((u.itNow : Int) - (src : Int)).natAbs →
    (u.time.st = 2 ∧ u.time.big < 3 → t.itNow = u.itNow ∧ t.time.st = 2 ∧ t.time.big = u.time.big + 1) ∧
    (¬(u.time.st = 2 ∧ u.time.big < 3) → t.itNow = src % 2 ^ 64 ∧ t.time.st = 1 ∧ u.Counted t 0x22003C 1)
  regs : u.OnlyRegs t [0x220010, 0x220014, 0x22003C]
  rest : { t with regs := u.regs, time := u.time, itNow := u.itNow, sb := u.sb, cmds := u.cmds } = u

end Sys2Proof.Machine
end

