-- ==== Sys2Proof/Certificates/Slice0/Obligations.lean ====
section
/-! DEFINITION. The statements for the provers, over the model alone: what a step does, what every command leaves alone, and for every
command a state in which it completes with the effect the spec gives it. -/

open Sys2Proof Sys2Proof.Machine

/-! ## The machine as a whole -/

/-- A step runs the command at the front of the queue on the state with the queue's rest (the block's rule in place of a fetch). -/
def Obligations.StepRunsFrontCommand : Prop :=
  ∀ (s : State) (c : Instr) (rest : List Instr), s.pending = c :: rest → step s = exec c { s with pending := rest }

/-- Every step takes at most the front command of the queue, and none changes silicon or fuse values (17 R531: the identity registers are
fixed in silicon and fuses). -/
def Obligations.EveryStepKeepsSiliconAndQueueRest : Prop :=
  ∀ s t : State, step s = .next t → t.pending = s.pending.tail ∧ t.silicon = s.silicon

/-- The life-cycle record holds exactly the keys of its state, after every step (17 R532, R534, R535). -/
def Obligations.EveryStepKeepsLifeCycleRecordRules : Prop :=
  ∀ s t : State, s.lc.ok → step s = .next t → t.lc.ok

/-- After reset the life-cycle record keeps its rules, and so does the canonical form of every memory: BLANK holds no key, the memories list
nothing. The initial record and the reset values of the memories are the model's choice (log entries 2 and 43). -/
def Obligations.ResetStateKeepsTheRules : Prop :=
  State.reset.lc.ok ∧ State.reset.MemWf ∧ State.reset.pending = [] ∧ State.reset.ready = true

/-- No command but a reset, a life-cycle request, a write of RESET_CTL or a register write (which reaches both) changes the life-cycle
record (17 R532: only the module writes it). -/
def Obligations.OnlyResetsAndRequestsChangeLifeCycle : Prop :=
  ∀ (c : Instr) (s t : State), exec c s = .next t →
    (match c with
     | .powerOn => True
     | .perst => True
     | .resetN => True
     | .hotReset => True
     | .resetCtl _ _ => True
     | .lcGo _ => True
     | .registerWrite _ _ _ _ => True
     | _ => t.lc = s.lc)

/-! ## Register writes (18) -/

/-- A write that the module does not take now (it is not READY, or it is in safe state or in a transition and the register is none of those
that stay open) changes nothing but the requester's staged half (18 R544, R550, 17 R522). -/
def Obligations.WritesNotTakenChangeNothing : Prop :=
  ∀ (s : State) (r : Requester),
    (∀ q v, s.accepts (qBase q.val) = false →
      exec (.qEnable r q) s = .next (s.setStage r none) ∧ exec (.qDisable r q) s = .next (s.setStage r none) ∧
      (s.accepts (0x18000 + 8 * q.val) = false → exec (.sqTailDb r q v) s = .next (s.setStage r none)) ∧
      (s.accepts (0x18004 + 8 * q.val) = false → exec (.cqHeadDb r q v) s = .next (s.setStage r none))) ∧
    (s.ready = false → ∀ v w, exec (.resetCtl r v) s = .next (s.setStage r none) ∧ exec (.sbNote r w) s = .next (s.setStage r none) ∧
      exec (.lcGo r) s = .next (s.setStage r none)) ∧
    (s.safe = true ∨ s.scraping = true ∨ s.ready = false →
      exec (.safeCtlEnter r) s = .next (s.setStage r none) ∧ exec (.poolApply r) s = .next (s.setStage r none) ∧
      exec (.depClear r) s = .next (s.setStage r none) ∧ exec (.pwrClear r) s = .next (s.setStage r none) ∧
      exec (.cpLock r) s = .next (s.setStage r none) ∧ exec (.schedLock r) s = .next (s.setStage r none) ∧
      (∀ v, exec (.granuleQuery r v) s = .next (s.setStage r none)) ∧
      (∀ n v, exec (.objValueWrite r n v) s = .next (s.setStage r none)) ∧
      (∀ t, exec (.tileQuarantine r t) s = .next (s.setStage r none) ∧ exec (.tileRelease r t) s = .next (s.setStage r none) ∧
        exec (.repairGo r t) s = .next (s.setStage r none)))

/-- A CLEAR write puts exactly its block's counters back to their reset values (07 R239, 06 R206, 08 R272, 09 R291, 10 R325, 11 R368,
R370-R372, 12 R402, 13 R438, 14 R471, R473, 15 R498, R499, 16 R519). -/
def Obligations.ClearResetsItsCounters : Prop :=
  ∀ (s : State) (r : Requester), s.openRegs →
    (∀ n : Fin 8,
      (∃ t, exec (.glzClear r n) s = .next t ∧ s.Cleared t r [(0x140008 + 0x1000 * n.val, 0x1C)]) ∧
      (∃ t, exec (.attClear r n) s = .next t ∧ s.Cleared t r [(0x148008 + 0x1000 * n.val, 0x78)])) ∧
    (∀ n : Fin 4,
      (∃ t, exec (.itxClear r n) s = .next t ∧ s.Cleared t r [(0x150008 + 0x1000 * n.val, 0x14)]) ∧
      (∃ t, exec (.crsClear r n) s = .next t ∧ s.Cleared t r [(0x154008 + 0x1000 * n.val, 0x18)]) ∧
      (∃ t, exec (.rtcClear r n) s = .next t ∧ s.Cleared t r [(0x158008 + 0x1000 * n.val, 0x3C)])) ∧
    (∀ n : Fin 16, ∃ t, exec (.dmaClear r n) s = .next t ∧ s.Cleared t r [(0x15C008 + 0x1000 * n.val, 0xC)]) ∧
    (∀ n : Fin 24, ∃ t, exec (.cvClear r n) s = .next t ∧ s.Cleared t r [(0x240008 + 0x1000 * n.val, 0xC)]) ∧
    (∀ n : Fin 64, ∃ t, exec (.adaptClear r n) s = .next t ∧ s.Cleared t r [(0x100808 + 0x1000 * n.val, 0x10)]) ∧
    (∃ t, exec (.hbmErrClear r) s = .next t ∧ s.Cleared t r [(0x180800, 0x600)]) ∧
    (∃ t, exec (.migClear r) s = .next t ∧ s.Cleared t r [(0x182018, 0x24)]) ∧
    (∃ t, exec (.ftlClear r) s = .next t ∧ s.Cleared t r [(0x1C0030, 0x1C)]) ∧
    (∃ t, exec (.cpClear r) s = .next t ∧ s.Cleared t r [(0x1A008, 0xC)]) ∧
    (∃ t, exec (.schedClear r) s = .next t ∧ s.Cleared t r [(0x20028, 8)]) ∧
    (∃ t, exec (.timeClear r) s = .next t ∧ s.Cleared t r [(0x220038, 0xC)]) ∧
    (∃ t, exec (.depClear r) s = .next t ∧ s.Cleared t r [(0x260008, 4), (0x260020, 0x2C)]) ∧
    (∃ t, exec (.linkClear r) s = .next t ∧
      s.Cleared t r ((0x200020, 0x14) :: (List.range 12).map fun p => (0x200110 + 0x40 * p, 0x1C))) ∧
    (∃ t, exec (.ingClear r) s = .next t ∧
      s.Cleared t r ((0x300008, 0x10) :: (List.range 24).map fun i => (0x300108 + 0x20 * i, 0x14)))

/-- The three CLEAR writes that reach beyond the counters: RES_CLEAR empties the tile's SUSPECT table (04 R131, R132), POOL_CLEAR sets the
lowest count of free pages to the pages now free (07 R242), PWR_CLEAR starts the running times again (16 R517, R518). -/
def Obligations.ClearReachesTables : Prop :=
  ∀ (s : State) (r : Requester), s.openRegs →
    (∀ n : Fin 64, ∃ t, exec (.resClear r n) s = .next t ∧ (t.tile n.val).suspects = [] ∧ (t.tile n.val).st = (s.tile n.val).st ∧
      (t.tile n.val).recs = (s.tile n.val).recs ∧ (∀ k, k ≠ n.val → t.tile k = s.tile k) ∧
      s.Cleared { t with tiles := s.tiles } r [(0x100100 + 0x1000 * n.val, 16)]) ∧
    (∃ t, exec (.poolClear r) s = .next t ∧ t.fld 0x14881C 23 0 = s.poolFree % 2 ^ 24 ∧
      (∀ o, 0x148820 ≤ o ∧ o < 0x148838 → t.reg o = regReset o) ∧
      (∀ o, o < 0x148820 ∨ 0x148838 ≤ o → o ≠ 0x14881C → t.reg o = s.reg o) ∧ { t with regs := s.regs } = s.setStage r none) ∧
    (∃ t, exec (.pwrClear r) s = .next t ∧
      t.power = { s.power with throttleAt := s.power.throttleAt.map fun _ => s.itNow, pacedAt := s.power.pacedAt.map fun _ => s.itNow } ∧
      s.Cleared { t with power := s.power } r ((0x280040, 0x28) :: (List.range 4).map fun p => (0x280108 + 0x10 * p, 4)))

/-- A LOCK write sets its lock bit and nothing else (18 R549). -/
def Obligations.LockSetsItsBit : Prop :=
  ∀ (s : State) (r : Requester), s.openRegs →
    (∃ t, exec (.globalLock r) s = .next t ∧ s.BitSet t r 0x130) ∧
    (∃ t, exec (.primerLock r) s = .next t ∧ s.BitSet t r 0x2028) ∧
    (∃ t, exec (.cpLock r) s = .next t ∧ s.BitSet t r 0x1A018) ∧
    (∃ t, exec (.schedLock r) s = .next t ∧ s.BitSet t r 0x20034) ∧
    (∀ n : Fin 64, ∃ t, exec (.repairLock r n) s = .next t ∧ s.BitSet t r (0x10028C + 0x1000 * n.val)) ∧
    (∃ t, exec (.poolLock r) s = .next t ∧ s.BitSet t r 0x148838) ∧
    (∃ t, exec (.hbmLock r) s = .next t ∧ s.BitSet t r 0x180040) ∧
    (∃ t, exec (.ftlLock r) s = .next t ∧ s.BitSet t r 0x1C0054) ∧
    (∃ t, exec (.linkLock r) s = .next t ∧ s.BitSet t r 0x20003C) ∧
    (∃ t, exec (.timeLock r) s = .next t ∧ s.BitSet t r 0x220048) ∧
    (∃ t, exec (.depLock r) s = .next t ∧ s.BitSet t r 0x260050) ∧
    (∃ t, exec (.pwrLock r) s = .next t ∧ s.BitSet t r 0x28006C) ∧
    (∃ t, exec (.diagLock r) s = .next t ∧ s.BitSet t r 0x2C0004)

/-- What a write leaves in each field of a register: a read-only or write-only field keeps its value; a one-to-clear and a one-to-set field
act bit by bit; a writable field takes the value written where it is in its range, its relations hold and its lock bit is 0, and otherwise
keeps its old one (18 R546, R549, R586). -/
def Obligations.WriteGivesEachFieldItsValue : Prop :=
  ∀ (s : State) (o v : Nat) (a : RegAt) (f : RField), regAt o = some a → f ∈ a.row.fields →
    bits (s.written a v) f.hi f.lo =
      (match f.acc with
       | .w1c => bits (s.stored a) f.hi f.lo &&& (2 ^ (f.hi + 1 - f.lo) - 1 - bits v f.hi f.lo)
       | .w1s => bits (s.stored a) f.hi f.lo ||| bits v f.hi f.lo
       | .ro => bits (s.stored a) f.hi f.lo
       | .wo => bits (s.stored a) f.hi f.lo
       | _ => if s.takes a f v then bits v f.hi f.lo else bits (s.stored a) f.hi f.lo) ∧
    (f.acc = .rwl → s.locked a = true → s.takes a f v = false) ∧ (f.rng.ok (bits v f.hi f.lo) = false → s.takes a f v = false)

/-- REGISTER_WRITE of a register without an operation behind it: one aligned 32-bit write of a 32-bit register, or one aligned 64-bit write of
a 64-bit one, leaves the register's written value and changes no other register; pending fields it writes are held (18 R543, R546, 17 R529). -/
def Obligations.PlainRegisterWrite : Prop :=
  ∀ (s : State) (r : Requester) (off : Nat) (v : W64) (a : RegAt), regAt off = some a → a.plain = true → s.accepts off = true → a.byte = 0 →
    ((a.row.wide = false → off % 4 = 0 → ∃ t, exec (.registerWrite r off v 4) s = .next t ∧
        t.reg off = BitVec.ofNat 32 (s.written a (v.toNat % 2 ^ 32)) ∧ (∀ o, o ≠ off → t.reg o = s.reg o) ∧
        { t with regs := s.regs, heldFields := s.heldFields } = s.setStage r none) ∧
     (a.row.wide = true → off % 8 = 0 → ∃ t, exec (.registerWrite r off v 8) s = .next t ∧
        t.reg64 off = s.written a v.toNat % 2 ^ 64 ∧ (∀ o, o ≠ off → o ≠ off + 4 → t.reg o = s.reg o) ∧
        { t with regs := s.regs, heldFields := s.heldFields } = s.setStage r none))

/-- A write that is not an aligned 32-bit or 64-bit one is ignored (18 R543), and the low half of a 64-bit register is staged and changes
nothing yet (18 R544). -/
def Obligations.IgnoredAndStagedWrites : Prop :=
  ∀ (s : State) (r : Requester) (off : Nat) (v : W64) (n : Nat),
    (¬(n = 4 ∧ off % 4 = 0) → ¬(n = 8 ∧ off % 8 = 0) → exec (.registerWrite r off v n) s = .next (s.setStage r none)) ∧
    (∀ a, regAt off = some a → a.row.wide = true → a.byte = 0 → off % 4 = 0 →
      exec (.registerWrite r off v 4) s = .next (s.setStage r (some { off := a.off, val := BitVec.ofNat 32 (v.toNat % 2 ^ 32) })))

/-! ## Safe state, supply and adaptive loops (15, 16) -/

/-- Safe state is entered on its four commands outside the command path: a write of SAFE_CTL (cause 5), an under-voltage and an over-voltage
trip (cause 3, with a SUPPLY record before), a junction at 105 °C (cause 4, with a THERMAL record before), which any sensor's reading shows,
an HBM stack's and a throttled panel's included (15 R480, R498, 16 R502, R504, R511; that every sensor of R511 is a junction's is log entry
87). -/
def Obligations.SafeStateEntry : Prop :=
  ∀ s : State, s.safe = false →
    (∀ r, s.openRegs → ∃ t, exec (.safeCtlEnter r) s = .next t ∧ s.EnteredSafe t 5 1 ∧ t.gran = s.gran) ∧
    (∀ mv, s.ready = true → mv < 38000 → ∃ t, exec (.underVoltageTrip mv) s = .next t ∧ s.EnteredSafe t 3 2 ∧ t.NoBurn ∧
      t.fld 0x280000 11 11 = 1 ∧ t.fld 0x280004 15 0 = mv ∧ (∀ g, (t.granule g).move ≠ 2) ∧
      (∀ e, e ∈ s.gran → e.2.move ≠ 2 → e.2 ≠ {} → e ∈ t.gran)) ∧
    (∀ mv, s.ready = true → 62000 < mv → ∃ t, exec (.overVoltageTrip mv) s = .next t ∧ s.EnteredSafe t 3 2 ∧ t.NoBurn ∧
      t.fld 0x280004 15 0 = min mv 65535 ∧ t.gran = s.gran) ∧
    (∀ v, s.upkeep = true → 105 ≤ v →
      (∀ j, ∃ t, exec (.junctionLimit j v) s = .next t ∧ s.EnteredSafe t 4 2 ∧ t.NoBurn ∧ t.gran = s.gran) ∧
      (∀ k, ∃ t, exec (.hbmStackHot k v) s = .next t ∧ s.EnteredSafe t 4 2 ∧ t.NoBurn ∧ t.gran = s.gran) ∧
      (∀ p, s.fld 0x280030 23 16 ≤ v → ∃ t, exec (.thermalThrottleStep p v) s = .next t ∧ s.EnteredSafe t 4 2 ∧ t.NoBurn ∧ t.gran = s.gran))

/-- Input supply (16 R502, R505): below 40 V LOW_INPUT reads 1, its counter counts, burn stops and the first time in a window a SUPPLY record
is written; back at 40 V it reads 0; PWR_WARN_N asserted is shown, counted and recorded, and ACTION 1 stops burn, ACTION 2 enters safe state
from there. -/
def Obligations.SupplyEvents : Prop :=
  ∀ s : State, s.ready = true →
    (∀ mv, mv < 40000 → ∃ t, exec (.lowInput mv) s = .next t ∧ t.fld 0x280000 11 11 = 1 ∧ t.fld 0x280004 15 0 = mv ∧ t.NoBurn ∧
      s.Counted t 0x280040 1 ∧ t.sb.nextSeq = s.sb.nextSeq + (if s.power.supplyWin = some (s.winOf s.itNow) then 0 else 1) ∧
      t.power.supplyWin = some (s.winOf s.itNow) ∧ s.OnlyRegs t ([0x280000, 0x280004, 0x280040] ++ (List.range 64).map adaptReg) ∧
      { t with regs := s.regs, power := s.power, sb := s.sb } = s) ∧
    (∀ mv, 40000 ≤ mv → ∃ t, exec (.lowInputEnd mv) s = .next t ∧ t.fld 0x280000 11 11 = 0 ∧ t.fld 0x280004 15 0 = min mv 65535 ∧
      s.OnlyRegs t [0x280000, 0x280004] ∧ { t with regs := s.regs } = s) ∧
    (s.fld 0x280000 12 12 = 0 → ∃ t, exec .pwrWarnAssert s = .next t ∧ t.fld 0x280000 12 12 = 1 ∧ s.Counted t 0x280044 1 ∧
      (s.fld 0x280014 17 16 = 0 → t.sb.nextSeq = s.sb.nextSeq + 1 ∧ { t with regs := s.regs, sb := s.sb } = s) ∧
      (s.fld 0x280014 17 16 = 1 → t.NoBurn ∧ { t with regs := s.regs, sb := s.sb } = s) ∧
      (s.fld 0x280014 17 16 = 2 → s.safe = false → t.NoBurn ∧ s.EnteredSafe t 3 2)) ∧
    (∃ t, exec .pwrWarnClear s = .next t ∧ t.fld 0x280000 12 12 = 0 ∧ s.OnlyRegs t [0x280000] ∧ { t with regs := s.regs } = s)

/-- Droop and rails (16 R506-R509): a stretch is shown and counted and its end removes its cycles; a rail target moves by at most 10 mV an
update and lies from 600 mV to 850 mV at the first; the allowance rises by 5 mV, to at most 30, where a tile counted 16 stretches, and
decays by 1 mV otherwise; a clamp recovers in steps of 50 MHz up to the profile's clock. -/
def Obligations.DroopAndRailSteps : Prop :=
  ∀ s : State, s.upkeep = true →
    (∀ (k : Fin 64) n, s.fld (adaptReg k.val) 0 0 = 0 → ∃ t, exec (.droopStretch k n) s = .next t ∧ t.fld (adaptReg k.val) 0 0 = 1 ∧
      s.Counted t (0x100808 + 0x1000 * k.val) 1 ∧
      SMap.get (fun _ => 0) t.power.droops k.val = SMap.get (fun _ => 0) s.power.droops k.val + 1 ∧
      s.OnlyRegs t [adaptReg k.val, 0x100808 + 0x1000 * k.val] ∧ { t with regs := s.regs, power := s.power } = s) ∧
    (∀ (k : Fin 64) n, s.fld (adaptReg k.val) 0 0 = 1 → ∃ t, exec (.stretchEnd k n) s = .next t ∧ t.fld (adaptReg k.val) 0 0 = 0 ∧
      s.Counted64 t (0x100810 + 0x1000 * k.val) n ∧
      s.OnlyRegs t [adaptReg k.val, 0x100810 + 0x1000 * k.val, 0x100814 + 0x1000 * k.val] ∧ { t with regs := s.regs } = s) ∧
    (∀ (p : Fin 4) need, ∃ t, exec (.avsUpdate p need) s = .next t ∧
      (let old := SMap.get (fun _ => 0) s.power.target p.val
       let v := SMap.get (fun _ => 0) t.power.target p.val
       (old = 0 → 240 ≤ v ∧ v ≤ 340) ∧ (old ≠ 0 → v ≤ old + 4 ∧ old ≤ v + 4) ∧ t.fld (0x280100 + 0x10 * p.val) 25 16 = v * 5 / 2 % 1024) ∧
      (∀ q, q ≠ p.val → SMap.get (fun _ => 0) t.power.target q = SMap.get (fun _ => 0) s.power.target q) ∧
      t.fld (0x280104 + 0x10 * p.val) 5 0 = (if ∃ i, i < 16 ∧ 16 ≤ SMap.get (fun _ => 0) s.power.droops (16 * p.val + i)
        then min 30 (s.allow p.val + 5) else s.allow p.val) ∧
      (∀ i, i < 16 → SMap.get (fun _ => 0) t.power.droops (16 * p.val + i) = 0) ∧ { t with regs := s.regs, power := s.power } = s) ∧
    (∀ p : Fin 4, ∃ t, exec (.allowDecay p) s = .next t ∧ SMap.get (fun _ => false) t.power.noisy p.val = false ∧
      t.fld (0x280104 + 0x10 * p.val) 5 0 =
        (if SMap.get (fun _ => false) s.power.noisy p.val then s.allow p.val else s.allow p.val - 1) ∧
      s.OnlyRegs t [0x280104 + 0x10 * p.val] ∧ { t with regs := s.regs, power := s.power } = s) ∧
    (∀ p : Fin 4, SMap.get (fun _ => 0) s.power.clamp p.val ≠ 0 → ∃ t, exec (.clampRecoverStep p) s = .next t ∧
      SMap.get (fun _ => 0) t.power.clamp p.val = (if s.profileClock ≤ SMap.get (fun _ => 0) s.power.clamp p.val + 50 then 0
        else SMap.get (fun _ => 0) s.power.clamp p.val + 50) ∧
      (∀ q, q < 4 → t.fld (0x280100 + 0x10 * q) 11 0 = t.panelClock q % 4096) ∧ { t with regs := s.regs, power := s.power } = s)

/-- Temperature (16 R511): at T_THROTTLE the panel's limit falls by 100 MHz, to no less than 900 MHz; below T_THROTTLE - HYST it rises by 100 MHz
up to the profile's clock; an HBM stack at 90 °C runs at half its request rate until it is below 87 °C; all this below 105 °C, where
`SafeStateEntry` says what follows. -/
def Obligations.ThermalSteps : Prop :=
  ∀ s : State, s.upkeep = true →
    (∀ (p : Fin 4) v, s.fld 0x280030 23 16 ≤ v → v < 105 → ∃ t, exec (.thermalThrottleStep p v) s = .next t ∧
      SMap.get (fun _ => 0) t.power.thermal p.val =
        max 900 ((if SMap.get (fun _ => 0) s.power.thermal p.val = 0 then s.panelClock p.val
          else SMap.get (fun _ => 0) s.power.thermal p.val) - 100) ∧
      t.fld 0x280000 10 10 = (if s.power.throttleAt = none then 1 else s.fld 0x280000 10 10) ∧
      (∀ q, q < 4 → t.fld (0x280100 + 0x10 * q) 11 0 = t.panelClock q % 4096) ∧ { t with regs := s.regs, power := s.power } = s) ∧
    (∀ (p : Fin 4) v, SMap.get (fun _ => 0) s.power.thermal p.val ≠ 0 → v + s.fld 0x280030 3 0 < s.fld 0x280030 23 16 →
      ∃ t, exec (.thermalRecoverStep p v) s = .next t ∧
      SMap.get (fun _ => 0) t.power.thermal p.val = (if s.profileClock ≤ SMap.get (fun _ => 0) s.power.thermal p.val + 100 then 0
        else SMap.get (fun _ => 0) s.power.thermal p.val + 100) ∧
      (∀ q, q < 4 → t.fld (0x280100 + 0x10 * q) 11 0 = t.panelClock q % 4096) ∧ { t with regs := s.regs, power := s.power } = s) ∧
    (∀ (k : Fin 12) v, 90 ≤ v → v < 105 → ∃ t, exec (.hbmStackHot k v) s = .next t ∧ SMap.get (fun _ => false) t.power.hot k.val = true ∧
      (∀ j, j ≠ k.val → SMap.get (fun _ => false) t.power.hot j = SMap.get (fun _ => false) s.power.hot j) ∧
      s.OnlyRegs t [0x280034] ∧ { t with regs := s.regs, power := s.power } = s) ∧
    (∀ (k : Fin 12) v, v < 87 → ∃ t, exec (.hbmStackCool k v) s = .next t ∧ SMap.get (fun _ => false) t.power.hot k.val = false ∧
      (∀ j, j ≠ k.val → SMap.get (fun _ => false) t.power.hot j = SMap.get (fun _ => false) s.power.hot j) ∧
      s.OnlyRegs t [0x280034] ∧ { t with regs := s.regs, power := s.power } = s)

/-- The governor and the wash (16 R512-R515): the governor shows the input power, and above its bound first stops burn and then lowers d, to
no less than 16, and below it raises d, to at most 64; each wash tick that IT has passed moves W by at most one step towards the demand and
the floor and never above LIMIT, and only tiles that may burn burn; a burn mismatch stops burn on the tile, and a second one in a window
quarantines it. -/
def Obligations.GovernorAndWash : Prop :=
  ∀ s : State, s.upkeep = true →
    (∀ w, ∃ t, exec (.governorAdjust w) s = .next t ∧ t.fld 0x280008 15 0 = min w 65535 ∧
      (let s1 := if s.power.wStart then s.setFld 0x28002C 15 0 (min w 65535) else s
       (s1.powerBound < w → s.burning = true → t.NoBurn ∧ t.fld 0x280000 6 0 = s.fld 0x280000 6 0) ∧
       (s1.powerBound < w → s.burning = false → t.fld 0x280000 6 0 = max 16 (s.fld 0x280000 6 0 - 1)) ∧
       (w < s1.powerBound → t.fld 0x280000 6 0 = min 64 (s.fld 0x280000 6 0 + 1)) ∧
       (w = s1.powerBound → t.fld 0x280000 6 0 = s.fld 0x280000 6 0)) ∧
      { t with regs := s.regs, power := s.power, freeCtr := s.freeCtr } = s) ∧
    (∀ it d n, s.washOn = true → 0 < n →
      (s.power.lastTick = none ∧ 0 < s.ticksTo (it % 2 ^ 64) ∧ n = 1 ∨
        ∃ l, s.power.lastTick = some l ∧ s.ticksTo (it % 2 ^ 64) = s.ticksTo l + n) →
      ∃ t, exec (.washTick it d) s = .next t ∧ t.itNow = max s.itNow (it % 2 ^ 64) ∧ t.power.lastTick = some (it % 2 ^ 64) ∧
      (let w0 := if s.power.wStart then d else s.fld 0x28002C 15 0
       let step := s.fld 0x28001C 15 0 * max 1 (s.reg 0x280024).toNat / 1000000
       t.fld 0x28002C 15 0 ≤ s.powerLimit ∧ t.fld 0x28002C 15 0 ≤ w0 + n * step ∧ min s.powerLimit w0 - n * step ≤ t.fld 0x28002C 15 0) ∧
      (∀ k, k < 64 → t.fld (adaptReg k) 1 1 = 1 → (s.advance it).mayBurn k = true) ∧
      { t with regs := s.regs, power := s.power, itNow := s.itNow } = s) ∧
    (∀ k : Fin 64, s.profile = 2 → s.fld (adaptReg k.val) 1 1 = 1 → ∃ t, exec (.burnMismatch k) s = .next t ∧
      t.fld (adaptReg k.val) 1 1 = 0 ∧ s.Counted t (0x100100 + 0x1000 * k.val) 1 ∧
      (let n := if s.power.burnWin = s.winOf s.itNow then SMap.get (fun _ => 0) s.power.burnBad k.val else 0
       (t.tile k.val).st = if n = 0 then (s.tile k.val).st else .quarantined) ∧
      (∀ j, j ≠ k.val → t.tile j = s.tile j) ∧
      { t with regs := s.regs, power := s.power, tiles := s.tiles, sb := s.sb, freeCtr := s.freeCtr } = s)

/-! ## Residency and movement (11) -/

/-- A HINT makes its one change to each granule of its range and completes at once (11 R342); one whose range breaks the alignment or leaves
the range of addresses is refused with its status (R326). PIN is refused with PIN_LIMIT where 1,024 frames would not stay free of pins. -/
def Obligations.HintsChangeGranules : Prop :=
  ∀ (s : State) (tok : Nat) (c : Cmd), s.Begins tok 0x0302 c →
    (∀ st, c.granuleRange = .error st → ∀ (i : Instr) (a : Nat), (i, a) ∈ [(Instr.hintPin tok, 0), (.hintUnpin tok, 1), (.hintNoWb tok, 2),
        (.hintWb tok, 3), (.hintStream tok, 4), (.hintNostream tok, 5), (.hintWillneed tok, 6), (.hintDontneed tok, 7)] →
      c.f 0x50 2 0 = a → exec i s = .next (s.endedAt tok st 0)) ∧
    (∀ gs, c.granuleRange = .ok gs →
      (let sets (i : Instr) (a : Nat) (f : Granule → Granule) : Prop := c.f 0x50 2 0 = a → ∃ t, exec i s = .next t ∧
        (∀ g ∈ gs, t.granule g = f (s.granule g)) ∧ (∀ g, g ∉ gs → t.granule g = s.granule g) ∧
        { t with gran := s.gran } = s.endedAt tok 0 0
       sets (.hintUnpin tok) 1 (fun x => { x with pin := false }) ∧ sets (.hintNoWb tok) 2 (fun x => { x with noWb := true }) ∧
       sets (.hintWb tok) 3 (fun x => { x with noWb := false }) ∧ sets (.hintStream tok) 4 (fun x => { x with stream := true }) ∧
       sets (.hintNostream tok) 5 (fun x => { x with stream := false }) ∧
       sets (.hintDontneed tok) 7 (fun x => { x with ref := if x.resident then false else x.ref }) ∧
       ((∀ g ∈ gs, (s.granule g).resident = true ∧ (s.granule g).move = 0 ∧ (s.granule g).by_ = 0) → s.pinned + gs.length + 1024 ≤ s.resFrames →
         sets (.hintPin tok) 0 fun x => { x with pin := true })) ∧
      (∀ g l, gs = g :: l → (s.granule g).pin = false → s.resFrames < s.pinned + 1 + 1024 → c.f 0x50 2 0 = 0 →
        exec (.hintPin tok) s = .next (s.endedAt tok 0x2008 0)) ∧
      (c.f 0x50 2 0 = 6 → ∃ t, exec (.hintWillneed tok) s = .next t ∧ t.cmds = (s.endedAt tok 0 0).cmds ∧ t.flash = s.flash ∧
        t.host = s.host ∧ t.pal = s.pal ∧ t.shr = s.shr ∧
        (∀ g f, gs = [g] → (s.granule g).resident = false → (s.granule g).move = 0 → s.fillQ = [] → s.freeFrame = some f → s.moving < 1024 →
          s.ftlState ≠ 1 → t.granule g = { s.granule g with frame := f, move := 1 } ∧ (∀ k, k ≠ g → t.granule k = s.granule k) ∧
          { t with gran := s.gran } = s.endedAt tok 0 0)))

/-- MIGRATE (11 R343, R344): TO_HBM ends once every granule is resident and has a NONRESIDENT one filled first; FLUSH ends at once on a
clean granule and starts the copy of a dirty one; TO_FLASH lets a clean granule go and starts the write-back of a dirty one; ZERO_FILL leaves
zeros in its granules, dirty and no longer poisoned, and ends. -/
def Obligations.MigrateMovesGranules : Prop :=
  ∀ (s : State) (tok : Nat) (c : Cmd) (gs : List Nat), s.Begins tok 0x0301 c → c.granuleRange = .ok gs → c.targets = [] → c.items = [] →
    c.savedPal = [] → s.fillQ = [] →
    (c.f 0x50 1 0 = 0 → (∀ g ∈ gs, (s.granule g).resident = true ∧ (s.granule g).move = 0) →
      exec (.migrateToHbm tok) s = .next (s.endedAt tok 0 0)) ∧
    (c.f 0x50 1 0 = 0 → ∀ g f, gs = [g] → (s.granule g).resident = false → (s.granule g).move = 0 → (s.granule g).poison = false →
      s.ftlState ≠ 1 → s.ftlState ≠ 3 → s.freeFrame = some f → s.moving < 1024 → ∃ t, exec (.migrateToHbm tok) s = .next t ∧
      t.granule g = { s.granule g with frame := f, move := 1 } ∧ (∀ k, k ≠ g → t.granule k = s.granule k) ∧
      { t with gran := s.gran } = s.updCmd tok fun d => { d with phase := .running, begun := true, profile := s.profile, targets := [g] }) ∧
    (s.ftlState = 0 → ∀ g, gs = [g] → (s.granule g).resident = true → (s.granule g).move = 0 → (s.granule g).by_ = 0 →
      (c.f 0x50 1 0 = 1 → (s.granule g).dirty = false → exec (.migrateFlush tok) s = .next (s.endedAt tok 0 0)) ∧
      (∀ mode i, (mode, i) ∈ [(1, Instr.migrateFlush tok), (2, .migrateToFlash tok)] → c.f 0x50 1 0 = mode → (s.granule g).dirty = true →
        (mode = 2 → s.moving < 1024) → ∃ t, exec i s = .next t ∧
        t.granule g = { s.granule g with move := if mode = 2 then 2 else 0, by_ := tok + 1, met := false } ∧
        (∀ k, k ≠ g → t.granule k = s.granule k) ∧
        (∃ d, t.cmd tok = some d ∧ d.phase = .running ∧ d.items = [[g]] ∧ d.targets = [g]) ∧ s.SameOthers t tok ∧
        { t with gran := s.gran, cmds := s.cmds } = s) ∧
      (c.f 0x50 1 0 = 2 → (s.granule g).dirty = false → (s.granule g).pin = false → ∃ t, exec (.migrateToFlash tok) s = .next t ∧
        t.granule g = { s.granule g with frame := 0, resident := false, ref := false, met := false } ∧
        (∀ k, k ≠ g → t.granule k = s.granule k) ∧ ClearedAt t.hbm s.hbm (gBytes * (s.granule g).frame) gBytes ∧ s.Counted64 t 0x182028 1 ∧ s.OnlyRegs t [0x182028, 0x18202C] ∧
        { t with gran := s.gran, hbm := s.hbm, badLines := s.badLines, regs := s.regs } = s.endedAt tok 0 0) ∧
      (c.f 0x50 1 0 = 2 → (s.granule g).dirty = false → (s.granule g).pin = true →
        exec (.migrateToFlash tok) s = .next (s.endedAt tok 0 1))) ∧
    (c.f 0x50 1 0 = 3 → (∀ g ∈ gs, (s.granule g).resident = true ∧ (s.granule g).move = 0 ∧ (s.granule g).by_ = 0) → ∃ t, exec (.migrateZeroFill tok) s = .next t ∧
      (∀ g ∈ gs, t.granule g = { s.granule g with dirty := true, poison := false }) ∧ (∀ g, g ∉ gs → t.granule g = s.granule g) ∧
      (∀ k, (∃ g ∈ gs, gBytes * (s.granule g).frame ≤ k ∧ k < gBytes * (s.granule g).frame + gBytes) →
        SMap.get (fun _ => 0) t.hbm k = 0) ∧
      (∀ k, (∀ g ∈ gs, k < gBytes * (s.granule g).frame ∨ gBytes * (s.granule g).frame + gBytes ≤ k) →
        SMap.get (fun _ => 0) t.hbm k = SMap.get (fun _ => 0) s.hbm k) ∧
      { t with gran := s.gran, hbm := s.hbm, badLines := s.badLines } = s.endedAt tok 0 0)

/-- The ends of movements (11 R339, R340, R343, R345, R353, R356, R371, R372): a fill leaves the flash home's bytes in the frame and the granule
RESIDENT, and one whose pages could not be read leaves it POISON; a write-back leaves the frame's bytes in the flash home, on fresh pages, after
which an evicted granule is out of HBM and a flushed one stays, clean. -/
def Obligations.MovementsEnd : Prop :=
  ∀ (s : State) (g : Nat), s.live = true → s.MemWf → s.ftlState = 0 →
    (∀ ok, s.NoMoves → (s.granule g).move = 1 → (s.granule g).poison = false → ∃ t, exec (.fillDone g ok) s = .next t ∧
      (∀ k, k ≠ g → t.granule k = s.granule k) ∧
      (ok = true → t.granule g = { s.granule g with resident := true, dirty := false, move := 0 } ∧
        CopiedTo t.hbm s.hbm (gBytes * (s.granule g).frame) s.flash (gBytes * g) gBytes ∧ s.Counted64 t 0x182020 1 ∧
        s.MovedGranule t [0x182020, 0x182024] ∧ t.blocks = (s.readPages g 0 128).blocks ∧ t.ftl = (s.readPages g 0 128).ftl ∧
        { t with gran := s.gran, hbm := s.hbm, regs := s.regs, freeCtr := s.freeCtr, blocks := s.blocks, ftl := s.ftl } = s) ∧
      (ok = false → t.granule g = { s.granule g with frame := 0, resident := false, dirty := false, ref := false, move := 0, poison := true } ∧
        SMap.get (fun _ => false) t.flashBad g = true ∧ s.Counted t 0x1C0048 1 ∧ t.sb.nextSeq = s.sb.nextSeq + 1 ∧
        s.OnlyRegs t [0x1C0048] ∧ { t with gran := s.gran, flashBad := s.flashBad, sb := s.sb, regs := s.regs } = s)) ∧
    (s.NoMoves → (s.granule g).move = 2 → (s.granule g).by_ = 0 → s.badIn (gBytes * (s.granule g).frame) gBytes = false → ∃ t,
      exec (.evictionWritebackDone g) s = .next t ∧
      t.granule g = { s.granule g with frame := 0, resident := false, dirty := false, ref := false, move := 0, poison := false, met := false } ∧
      (∀ k, k ≠ g → t.granule k = s.granule k) ∧ CopiedTo t.flash s.flash (gBytes * g) s.hbm (gBytes * (s.granule g).frame) gBytes ∧
      ClearedAt t.hbm s.hbm (gBytes * (s.granule g).frame) gBytes ∧ s.Counted64 t 0x182028 1 ∧ s.Counted64 t 0x182030 1 ∧
      s.MovedGranule t [0x182028, 0x18202C, 0x182030, 0x182034] ∧ s.HomeWritten t g ∧
      { t with gran := s.gran, flash := s.flash, hbm := s.hbm, badLines := s.badLines, ftl := s.ftl, flashBad := s.flashBad
               regs := s.regs, freeCtr := s.freeCtr } = s) ∧
    (∀ tok c, s.Runs tok c → c.op = 0x0301 → c.f 0x50 1 0 = 1 → c.items = [[g]] → c.targets = [g] → c.status = 0 → c.detail = 0 →
      s.fillQ = [] → (s.granule g).resident = true → (s.granule g).move = 0 → (s.granule g).by_ = tok + 1 → (s.granule g).met = false →
      s.badIn (gBytes * (s.granule g).frame) gBytes = false → ∃ t,
      exec (.flushWritebackDone tok g) s = .next t ∧
      t.granule g = { s.granule g with dirty := false, poison := false, by_ := 0 } ∧
      (∀ k, k ≠ g → t.granule k = s.granule k) ∧ CopiedTo t.flash s.flash (gBytes * g) s.hbm (gBytes * (s.granule g).frame) gBytes ∧
      (∃ d, t.cmd tok = some d ∧ d.phase = .ended ∧ d.status = 0 ∧ d.detail = 0 ∧ d.targets = []) ∧ s.SameOthers t tok ∧
      s.MovedGranule t [0x182030, 0x182034] ∧ s.HomeWritten t g ∧
      { t with gran := s.gran, flash := s.flash, ftl := s.ftl, flashBad := s.flashBad, cmds := s.cmds, regs := s.regs
               freeCtr := s.freeCtr } = s)

/-- A regulator (11 R350, R351): a unit's request counts for the partition of the work the unit does; it passes while that partition's bucket
holds a line's bytes, and takes them; otherwise it is held, counted once, and with work-conserving regulation an otherwise idle stack lets it
through on an empty bucket. A rate of 0 regulates nothing. -/
def Obligations.RegulatorGrants : Prop :=
  ∀ (s : State) (stack : Fin 12) (src : Fin 65536) (idle : Bool) (it : Nat), s.live = true →
    (s.fld 0x181000 0 0 = 0 → exec (.regulatorGrant stack src idle it) s = .next (s.advance it)) ∧
    (∀ u ∈ s.sch.units, ∀ c, s.sch.units.find? (fun v => v.held && v.kind == src.val / 4096 &&
        (if src.val / 4096 = 0 then v.tiles.contains (src.val % 4096) else v.inst == src.val % 4096)) = some u → s.cmd u.tok = some c →
      s.unitPart src.val = s.fld (0x181010 + c.client / 8 * 4) (c.client % 8 * 4 + 3) (c.client % 8 * 4)) ∧
    ((∀ u ∈ s.sch.units, u.kind ≠ src.val / 4096) → s.unitPart src.val = s.fld 0x181004 3 0) ∧
    (s.fld 0x181000 0 0 = 1 → ∃ t, exec (.regulatorGrant stack src idle it) s = .next t ∧ t.itNow = max s.itNow (it % 2 ^ 64) ∧
      (let part := s.unitPart src.val
       let o := 0x181100 + 0x10 * part
       let k := 2 * (16 * stack.val + part)
       let depth := max 1 (s.fld (o + 4) 15 0) * 12288
       let short := min (SMap.get (fun _ => 0) s.buckets k - s.fld o 15 0 * (t.itNow - SMap.get (fun _ => 0) s.buckets (k + 1))) depth
       let granted := s.heldReqs.filter fun x => x != (stack.val, src.val)
       (s.fld o 15 0 = 0 → t.heldReqs = granted ∧ { t with itNow := s.itNow, heldReqs := s.heldReqs } = s) ∧
       (s.fld o 15 0 ≠ 0 → SMap.get (fun _ => 0) t.buckets (k + 1) = t.itNow ∧
         (∀ j, j ≠ k → j ≠ k + 1 → SMap.get (fun _ => 0) t.buckets j = SMap.get (fun _ => 0) s.buckets j) ∧
         (short + 6144 ≤ depth → SMap.get (fun _ => 0) t.buckets k = short + 6144 ∧ t.heldReqs = granted ∧ t.regs = s.regs) ∧
         (depth < short + 6144 →
           SMap.get (fun _ => 0) t.buckets k = (if s.fld o 31 31 = 1 ∧ idle = true then depth else short) ∧
           (if s.fld o 31 31 = 1 ∧ idle = true then t.heldReqs = granted else (stack.val, src.val) ∈ t.heldReqs) ∧
           s.Counted t (o + 8) (if s.heldReqs.contains (stack.val, src.val) then 0 else 1) ∧ s.OnlyRegs t [o + 8]) ∧
         { t with buckets := s.buckets, itNow := s.itNow, heldReqs := s.heldReqs, regs := s.regs } = s)))

/-- HBM upkeep (15 R479, 19 R572, 11 R368): the scrub counts a corrected line on its target, and an uncorrectable one on its target and in
SCRUB_UE with a record; the last line of a pass counts the pass; a stack's retrain is counted with its failed lanes, one record each. -/
def Obligations.HbmUpkeep : Prop :=
  ∀ s : State, s.upkeep = true →
    (∀ line found, line < s.fld 0x180004 19 0 * 32768 → ∃ t, exec (.hbmScrub line found) s = .next t ∧
      (let bad := found ≥ 2 ∨ SMap.get (fun _ => false) s.badLines line = true
       let cnt := 0x180800 + 4 * hbmTarget s.mapped (line * 64)
       let last := line + 1 = s.fld 0x180004 19 0 * 32768
       (bad → SMap.get (fun _ => false) t.badLines line = true ∧ t.sb.nextSeq = s.sb.nextSeq + 1) ∧
       (¬bad → t.badLines = s.badLines ∧ t.sb = s.sb) ∧
       (∀ l, l ≠ line → SMap.get (fun _ => false) t.badLines l = SMap.get (fun _ => false) s.badLines l) ∧
       (hbmTarget s.mapped (line * 64) < 384 →
         (bad → t.fld cnt 31 16 = min (s.fld cnt 31 16 + 1) 65535 ∧ s.Counted t 0x26003C 1) ∧
         (¬bad → found = 1 → t.fld cnt 15 0 = min (s.fld cnt 15 0 + 1) 65535) ∧
         (¬bad → found = 0 → ¬last → t.regs = s.regs) ∧ (last → s.Counted t 0x260038 1) ∧ (¬last → t.reg 0x260038 = s.reg 0x260038)) ∧
       s.OnlyRegs t [cnt, 0x26003C, 0x260038]) ∧
      { t with regs := s.regs, badLines := s.badLines, sb := s.sb } = s) ∧
    (∀ (k : Fin 12) (fails : List (Fin 32)), s.fld 0x183000 31 31 = 0 → ∃ t, exec (.hbmRetrain k fails) s = .next t ∧
      t.fld 0x183004 3 0 = k.val ∧ t.fld (0x183100 + 4 * k.val) 23 0 = min (s.fld (0x183100 + 4 * k.val) 23 0 + 1) (2 ^ 24 - 1) ∧
      t.fld (0x183100 + 4 * k.val) 31 24 = min (s.fld (0x183100 + 4 * k.val) 31 24 + fails.length) 255 ∧
      t.sb.nextSeq = s.sb.nextSeq + fails.length ∧ s.OnlyRegs t [0x183004, 0x183100 + 4 * k.val] ∧
      { t with regs := s.regs, sb := s.sb } = s)

/-- The flash translation layer (11 R353, R354, R356-R358, R362): a sample of a block waits until its reads are due and moves the block's read
references, and one at RELOCATE corrected bits moves the block's granules and erases it; only a mostly invalid block is reclaimed, and an erase that fails takes a spare block,
below 256 of which the device is READ_ONLY; wear levelling moves the lowest block 100 erases behind; the read counters reach flash every 2^20
reads. -/
def Obligations.FlashLayerUpkeep : Prop :=
  ∀ s : State, s.ftlActs = true →
    (∀ blk st b, blk < 1048576 →
      (let iv := (s.block blk).interval.getD (s.reg 0x1C0020).toNat
       ((s.block blk).since < iv → exec (.readDisturbSample blk st b) s = .next s) ∧
       (iv ≤ (s.block blk).since → s.fld 0x1C0028 7 0 ≤ b → ∃ t, exec (.readDisturbSample blk st b) s = .next t ∧ s.Erased t blk ∧
         s.Counted64 t 0x1C0030 1 ∧ s.OnlyRegs t [0x1C0030, 0x1C0034, 0x1C0040, 0x1C0044] ∧
         { t with blocks := s.blocks, ftl := s.ftl, regs := s.regs } = s) ∧
       (iv ≤ (s.block blk).since → b < s.fld 0x1C0028 7 0 → s.readsOf blk + 1 < (s.reg 0x1C0024).toNat → ∃ t,
         exec (.readDisturbSample blk st b) s = .next t ∧ (t.block blk).since = (s.block blk).since - iv + 1 ∧
         (t.block blk).reads = min ((s.block blk).reads + 1) ((2 ^ 32 - 1 : Int) - s.ftl.rdBase) ∧
         (t.block blk).interval = (if s.fld 0x1C0028 15 8 ≤ b then some (max 1000 (iv / 2))
           else if 3 * b < s.fld 0x1C0028 15 8 then some (min (8 * (s.reg 0x1C0020).toNat) (2 * iv)) else (s.block blk).interval) ∧
         (let refs (u : State) : List Int := (List.range 7).map fun i => (u.block blk).offsets.getD i 0
          refs t = ((List.range 7).map fun i => max (-128) (min 127 ((s.block blk).offsets.getD i 0 + ((st.getD i 1).val : Int) - 1))) ∧
          s.Counted64 t 0x1C0040 (if refs t = refs s then 0 else 1)) ∧
         (∀ k, k ≠ blk → t.block k = s.block k) ∧ s.OnlyRegs t [0x1C0040, 0x1C0044] ∧ t.ftl.totalReads = s.ftl.totalReads + 1 ∧
         { t with blocks := s.blocks, ftl := s.ftl, regs := s.regs } = s))) ∧
    (∀ blk bad, blk < 1048576 → s.mostlyInvalid blk = false → exec (.reclaim blk bad) s = .next s) ∧
    (∀ blk, blk < 1048576 → (s.block blk).bad = false → s.mostlyInvalid blk = true → ∃ t, exec (.reclaim blk false) s = .next t ∧
      s.Erased t blk ∧ { t with blocks := s.blocks, ftl := s.ftl } = s) ∧
    (∀ blk, blk < 1048576 → (s.block blk).bad = false → s.mostlyInvalid blk = true → ∃ t, exec (.reclaim blk true) s = .next t ∧
      (t.block blk).bad = true ∧ (t.block blk).erases = (s.block blk).erases ∧
      (∀ k, k ≠ blk → (t.block k).erases = (s.block k).erases ∧ (t.block k).bad = (s.block k).bad) ∧
      t.ftl.spare = s.ftl.spare - 1 ∧ t.ftl.badBlocks = min (s.ftl.badBlocks + 1) (2 ^ 32 - 1) ∧
      (s.ftl.spare ≤ 256 → s.ftlState = 0 → t.ftlState = 2 ∧ t.ftl.readOnly = true ∧ t.sb.nextSeq = s.sb.nextSeq + 1) ∧
      (256 < s.ftl.spare ∨ s.ftlState = 2 → { t with blocks := s.blocks, ftl := s.ftl } = s)) ∧
    (∀ blk, blk < 1048576 → (s.block blk).bad = false → (s.block blk).erases = s.wearRange.1 → s.wearRange.1 + 100 < s.wearRange.2 → ∃ t,
      exec (.wearLevelMove blk) s = .next t ∧ s.Erased t blk ∧ { t with blocks := s.blocks, ftl := s.ftl } = s) ∧
    (1048576 ≤ s.ftl.totalReads → SMap.wf (fun _ => ({} : EBlock)) s.blocks = true → ∃ t, exec .readCounterPersist s = .next t ∧
      (∀ b, t.block b = { s.block b with saved := (s.block b).reads }) ∧ t.ftl.rdSaved = s.ftl.rdBase ∧
      t.ftl.totalReads = s.ftl.totalReads - 1048576 ∧ { t with blocks := s.blocks, ftl := s.ftl } = s) ∧
    (s.ftl.totalReads < 1048576 → exec .readCounterPersist s = .next s)

/-- The flash map decides the layer's state (11 R362): READY, READ_ONLY where flash says so, FAILED where no map could be read; a state other than
READY is recorded. -/
def Obligations.FlashMapDecidesState : Prop :=
  ∀ s : State, s.held = false → s.ftlState = 1 → s.NoMoves →
    ∀ ok, ∃ t, exec (.flashMapLoaded ok) s = .next t ∧ t.ftlState = (if ok then (if s.ftl.readOnly then 2 else 0) else 3) ∧
      t.sb.nextSeq = s.sb.nextSeq + (if ok ∧ s.ftl.readOnly = false then 0 else 1) ∧ s.OnlyRegs t [0x1C0000] ∧
      { t with regs := s.regs, sb := s.sb } = s

/-! ## Links between modules (14) -/

/-- Link frames (14 R446): a frame in sequence is acknowledged, one before it acknowledged again, a gap or a bad CRC answered with a NAK; an
acknowledgement drops the frames up to its number; a NAK, the acknowledgement timer and a RoCE timeout send frames again, each at most eight
times. -/
def Obligations.LinkFrames : Prop :=
  ∀ (s : State) (p : Fin 12),
    (s.carries p.val 1 = true → ∀ seq len crcOk, ∃ t, exec (.linkFrameReceive p seq len crcOk) s = .next t ∧
      s.Counted64 t (0x240008 + 0x1000 * (8 + p.val)) len ∧
      (crcOk = false → t.port p.val = { s.port p.val with answer := some (.nak (s.port p.val).rxSeq) } ∧
        s.Counted t (0x240010 + 0x1000 * (8 + p.val)) 1) ∧
      (crcOk = true → t.reg (0x240010 + 0x1000 * (8 + p.val)) = s.reg (0x240010 + 0x1000 * (8 + p.val)) ∧
        (seq % 65536 = (s.port p.val).rxSeq →
          t.port p.val = { s.port p.val with rxSeq := ((s.port p.val).rxSeq + 1) % 65536, answer := some (.ack (seq % 65536)) }) ∧
        (seq % 65536 ≠ (s.port p.val).rxSeq →
          (if ((s.port p.val).rxSeq + 65536 - seq % 65536) % 65536 < 32768 then
            t.port p.val = { s.port p.val with answer := some (.ack (((s.port p.val).rxSeq + 65535) % 65536)) }
           else t.port p.val = { s.port p.val with answer := some (.nak (s.port p.val).rxSeq) }))) ∧
      (∀ q, q ≠ p.val → t.port q = s.port q) ∧
      s.OnlyRegs t [0x240008 + 0x1000 * (8 + p.val), 0x24000C + 0x1000 * (8 + p.val), 0x240010 + 0x1000 * (8 + p.val)] ∧
      { t with regs := s.regs, ports := s.ports } = s) ∧
    (s.live = true → s.portUp p.val = true → ∀ seq, ∃ t, exec (.ackReceived p seq) s = .next t ∧
      (∀ f, f ∈ (t.port p.val).frames ↔ f ∈ (s.port p.val).frames ∧ (f.sends = 0 ∨ 32768 ≤ (seq % 65536 + 65536 - f.seq) % 65536)) ∧
      t.port p.val = { s.port p.val with frames := (t.port p.val).frames } ∧ (∀ q, q ≠ p.val → t.port q = s.port q) ∧
      { t with ports := s.ports } = s) ∧
    (s.carries p.val 1 = true → ∀ seq, (∀ f ∈ (s.port p.val).frames, f.seq = seq % 65536 → f.sends < 8) →
      ∃ t, exec (.nakReceived p seq) s = .next t ∧ s.Replayed t p.val fun f => f.seq == seq % 65536) ∧
    (s.carries p.val 1 = true → ∀ it, ∃ t, exec (.ackTimer p it) s = .next t ∧
      (s.advance it).Replayed t p.val fun f => decide (f.lastAt + 1000 ≤ max s.itNow (it % 2 ^ 64))) ∧
    (s.carries p.val 2 = true → ∀ seq, ∃ t, exec (.roceRetransmit p seq) s = .next t ∧
      s.Replayed t p.val fun f => f.seq == seq % 65536)

/-- Training and failure (14 R441, R447): a failed link goes to RETRAIN with its failure counted and recorded and no frame left on it; training
that ends brings the port UP at its rate; a try that trained at no rate is made again after 10 ms. -/
def Obligations.PortTraining : Prop :=
  ∀ (s : State) (p : Fin 12), s.live = true →
    (s.portUp p.val = true → (∃ f ∈ (s.port p.val).frames, s.frameFailed p.val f = true) → ∃ t, exec (.linkFail p) s = .next t ∧
      (t.port p.val).st = .retrain ∧ (t.port p.val).frames = [] ∧ s.Counted t (0x20011C + 0x40 * p.val) 1 ∧
      t.sb.nextSeq = s.sb.nextSeq + 1 ∧ (∀ q, q ≠ p.val → (t.port q).st = (s.port q).st) ∧ s.SameMem t ∧ s.SameTables t) ∧
    ((s.port p.val).st = .retrain → ∃ t, exec (.retrainDone p) s = .next t ∧ (t.port p.val).st = .up ∧
      (t.port p.val).rate = (s.port p.val).rate ∧ (∀ q, q ≠ p.val → (t.port q).st = (s.port q).st) ∧ s.SameMem t ∧ s.SameTables t ∧
      (s.NothingWaits → ((s.port p.val).trained = true → s.Counted t (0x200118 + 0x40 * p.val) 1) ∧
        { t with regs := s.regs, ports := s.ports } = s)) ∧
    (∀ rate, (s.port p.val).st = .training → s.portMode p.val ≠ 0 → 1 ≤ rate → rate ≤ 3 →
      (s.fld (0x200100 + 0x40 * p.val) 6 4 = 0 ∨ s.fld (0x200100 + 0x40 * p.val) 6 4 = rate) → ∃ t, exec (.trainingDone p rate) s = .next t ∧
      (t.port p.val).st = .up ∧ (t.port p.val).rate = rate ∧ (t.port p.val).trained = true ∧
      (∀ q, q ≠ p.val → (t.port q).st = (s.port q).st) ∧ s.SameMem t ∧ s.SameTables t ∧
      (s.NothingWaits → t.port p.val = { s.port p.val with st := .up, rate := rate, trained := true } ∧
        ((s.port p.val).trained = false → t.regs = s.regs) ∧ { t with regs := s.regs, ports := s.ports } = s)) ∧
    (∀ it, (s.port p.val).st = .training → (s.port p.val).tryAt + 10000000 ≤ max s.itNow (it % 2 ^ 64) →
      ∃ t, exec (.portTrainingRetry p it) s = .next t ∧ t.port p.val = { s.port p.val with tryAt := t.itNow } ∧
      t.itNow = max s.itNow (it % 2 ^ 64) ∧ (∀ q, q ≠ p.val → t.port q = s.port q) ∧ { t with ports := s.ports, itNow := s.itNow } = s)

/-- An Ethernet port (14 R459): a congestion notification halves its queue pair's rate, which rises again by 5 % of the full rate; an ARP request
for the module's own address is answered with ETH_MAC; a pause of PFC_PRIO holds what the port sends. -/
def Obligations.EthernetPort : Prop :=
  ∀ (s : State) (p : Fin 12), s.carries p.val 2 = true →
    (∀ dest : BitVec 16,
      (let k := qpKey p.val dest.toNat
       let rate (u : State) (j : Nat) : Nat := SMap.get (fun _ => qpFull) u.qpRate j
       (∃ t, exec (.ecnCnp p dest) s = .next t ∧ rate t k = rate s k / 2 ∧ (∀ j, j ≠ k → rate t j = rate s j) ∧
         { t with qpRate := s.qpRate, qpAt := s.qpAt } = s) ∧
       (∃ t, exec (.ecnRateStep p dest) s = .next t ∧ rate t k = min 1000000000 (rate s k + 50000000) ∧
         (∀ j, j ≠ k → rate t j = rate s j) ∧ { t with qpRate := s.qpRate, qpAt := s.qpAt } = s))) ∧
    (∀ addr : W32, addr.toNat = 65536 * s.fld 0x200018 31 16 + s.fld 0x200000 15 0 → ∃ t, exec (.arpRequest p addr) s = .next t ∧
      t.port p.val = { s.port p.val with answer := some (.arp addr.toNat (s.reg64 (0x200130 + 0x40 * p.val))) } ∧
      (∀ q, q ≠ p.val → t.port q = s.port q) ∧ { t with ports := s.ports } = s) ∧
    (∀ addr : W32, addr.toNat ≠ 65536 * s.fld 0x200018 31 16 + s.fld 0x200000 15 0 → exec (.arpRequest p addr) s = .next s) ∧
    (∀ prio pause, s.fld (0x200100 + 0x40 * p.val) 12 12 = 1 → s.fld (0x200100 + 0x40 * p.val) 15 13 = prio →
      ∃ t, exec (.pfcFrame p prio pause) s = .next t ∧ (t.port p.val).paused = pause ∧
      (pause = true → (t.port p.val).frames = (s.port p.val).frames) ∧
      (pause = false → (t.port p.val).frames = (s.port p.val).frames.map fun f =>
        if f.sends = 0 then { f with sends := 1, firstAt := s.itNow, lastAt := s.itNow } else f) ∧
      t.port p.val = { s.port p.val with paused := pause, frames := (t.port p.val).frames } ∧
      (∀ q, q ≠ p.val → t.port q = s.port q) ∧ { t with ports := s.ports } = s)

/-- The responder (14 R411, R452, R455): a transaction that nothing holds back is applied, once: its SEQ is marked applied and a reply OK goes out;
a REMOTE_ADD adds to its object, saturating, and a REMOTE_WRITE leaves its payload at its address. A held transaction whose DEADLINE has come is
refused, counted as stale, and its SEQ closed. -/
def Obligations.ResponderAppliesOnce : Prop :=
  ∀ (s : State) (p : Fin 12) (it : Nat), s.live = true → s.portUp p.val = true →
    (∀ tx x, s.Fresh x tx it → tx.add = true → ∃ t, exec (.remoteAdd p tx it) s = .next t ∧
      (t.obj tx.obj.val).value = min ((s.obj tx.obj.val).value + tx.amount.toNat) (2 ^ 64 - 1) ∧
      (∀ i, i ≠ tx.obj.val → t.obj i = s.obj i) ∧ (∃ y, t.source tx.src.toNat = some y ∧ tx.seq.toNat ∈ y.applied ∧ y.held = []) ∧
      (∀ q, s.route tx.src.toNat = some q → s.SentOn t q
        (.reply tx.src.toNat tx.epoch.toNat tx.seq.toNat tx.deadline.toNat tx.incarnation.toNat 0)) ∧ s.SameMem t ∧ s.SameTables t) ∧
    (∀ tx x g, s.Fresh x tx it → tx.add = false → tx.payload ≠ [] → gBytes * g ≤ tx.addr.toNat →
      tx.addr.toNat + tx.payload.length ≤ gBytes * (g + 1) → gBytes * (g + 1) ≤ dvaEnd → (s.granule g).resident = true →
      (s.granule g).move ≠ 2 → ∃ t, exec (.remoteWrite p tx it) s = .next t ∧
      (∀ i, i < tx.payload.length →
        SMap.get (fun _ => 0) t.hbm ((s.granule g).pa g tx.addr.toNat + i) = tx.payload.getD i 0) ∧
      (∀ k, k < (s.granule g).pa g tx.addr.toNat ∨ (s.granule g).pa g tx.addr.toNat + tx.payload.length ≤ k →
        SMap.get (fun _ => 0) t.hbm k = SMap.get (fun _ => 0) s.hbm k) ∧
      t.granule g = { s.granule g with dirty := true, ref := true, met := (s.granule g).met || (s.granule g).by_ != 0 } ∧
      (∀ k, k ≠ g → t.granule k = s.granule k) ∧
      (∃ y, t.source tx.src.toNat = some y ∧ tx.seq.toNat ∈ y.applied ∧ y.held = []) ∧ t.objs = s.objs ∧ t.flash = s.flash ∧
      t.host = s.host ∧ t.pal = s.pal ∧ t.shr = s.shr) ∧
    (∀ x (u : RxTx), s.source (u.src.toNat) = some x → x.held = [u] → u.deadline.toNat ≤ max s.itNow (it % 2 ^ 64) →
      ∃ t, exec (.heldTransactionDeadline (u.src.toNat * 2 ^ 32 + u.seq.toNat) it) s = .next t ∧
      (∃ y, t.source u.src.toNat = some y ∧ u.seq.toNat ∈ y.closed ∧ y.held = []) ∧ s.Counted t 0x200028 1 ∧ t.objs = s.objs ∧ s.SameMem t)

/-- The requester (14 R453, R457): a reply OK or DUPLICATE closes its transaction; EPOCH_STALE, ADDR_UNMAPPED and an integrity failure fail it with
their statuses; SOURCE_FULL has it sent again 10 µs later; a reply to nothing open is counted as late; DEADLINE + slack without a reply is a
TIMEOUT. -/
def Obligations.RequesterSeesReplies : Prop :=
  ∀ (s : State) (p : Fin 12) (it : Nat), s.live = true → (∀ x ∈ s.openTx, x.sentOn.isSome = true) →
    (∀ (rep : RxReply), s.portUp p.val = true →
      (let hit (y : OpenTx) : Bool := y.dest == rep.src.toNat && y.seq == rep.seq.toNat && y.epoch == rep.epoch.toNat && y.sentOn.isSome &&
         rep.incarnation.toNat == s.lc.incarnation % 65536
       (∀ x, s.openTx.find? hit = some x → ∃ t, exec (.reply p rep it) s = .next t ∧ s.SameMem t ∧ s.SameTables t ∧ t.regs = s.regs ∧
         (rep.result.toNat ≤ 1 → t.openTx = (s.openTx.filter fun y => y.id != x.id) ∧
           t.cmds = (s.cmds.map fun c => if x.tok = some c.tok then c.oneFewer t.itNow else c) ∧ t.objs = s.objs) ∧
         (rep.result.toNat = 2 → s.TxFailed t x 0x5002 x.detail false false) ∧
         (rep.result.toNat = 3 → s.TxFailed t x 0x1006 0 false false) ∧
         (rep.result.toNat = 4 → t.openTx = (s.openTx.map fun y => if y.id = x.id then { y with resendAt := t.itNow + 10000 } else y) ∧
           t.cmds = s.cmds ∧ t.objs = s.objs) ∧
         (rep.result.toNat = 5 → s.TxFailed t x 0x7001 x.detail true false)) ∧
       (s.openTx.find? hit = none → ∃ t, exec (.reply p rep it) s = .next t ∧ s.Counted t 0x200024 1 ∧ s.OnlyRegs t [0x200024] ∧
         { t with regs := s.regs, sb := s.sb, ports := s.ports, itNow := s.itNow } = s))) ∧
    (∀ n x, (s.openTx.find? fun y => y.id == n && y.sentOn.isSome) = some x →
      x.deadline + (s.reg 0x20000C).toNat ≤ max s.itNow (it % 2 ^ 64) → ∃ t, exec (.transportTimeout n it) s = .next t ∧
      s.TxFailed t x 0x5001 x.detail true true ∧ s.Counted t 0x200020 1 ∧ s.OnlyRegs t [0x200020] ∧ s.SameMem t ∧ s.SameTables t) ∧
    (∀ n x q, (s.openTx.find? fun y => y.id == n && y.resendAt != 0) = some x → (s.openTx.find? fun y => y.id == n) = some x →
      x.resendAt ≤ max s.itNow (it % 2 ^ 64) → s.route x.dest = some q → ∃ t, exec (.sourceFullResend n it) s = .next t ∧
      s.SentOn t q (.own n) ∧ t.openTx = (s.openTx.map fun y => if y.id = n then { y with resendAt := t.itNow + 10000, sentOn := some q } else y) ∧
      t.cmds = s.cmds ∧ s.SameMem t ∧ s.SameTables t)

/-- Transit traffic (14 R445): a transaction for another module goes on by the module's own route, and waits at its port where none is UP. -/
def Obligations.TransitGoesOn : Prop :=
  ∀ (s : State) (p : Fin 12) (tx : RxTx), s.carries p.val 1 = true → tx.dst.toNat ≠ s.moduleId → ∃ t, exec (.transitForward p tx) s = .next t ∧
    (∀ q, s.route tx.dst.toNat = some q → s.SentOn t q (.transit tx) ∧ ∀ k, k ≠ q → t.port k = s.port k) ∧
    (s.route tx.dst.toNat = none → t.port p.val = { s.port p.val with transit := (s.port p.val).transit ++ [tx] } ∧ t.regs = s.regs ∧
      ∀ k, k ≠ p.val → t.port k = s.port k) ∧
    { t with ports := s.ports, regs := s.regs } = s

/-! ## Registers whose write starts something (13, 14, 16, 17) -/

/-- Writes that start a unit: ACCT_CTL's ENABLE restarts ACCT_WRITE as it rises (13 R438), WASH_CTL's starts W at the measured input power
(16 R512), REG_CTL's fills every bucket (11 R369); a TRANSPORT_TIMEOUT_NS below the minimum stores the minimum and sets the flag, and a new
replay window moves the minimum, which the stored timeout never undercuts (14 R456). -/
def Obligations.WritesThatStartUnits : Prop :=
  ∀ (s : State) (r : Requester), s.openRegs →
    (∀ v, ∃ t, exec (.acctEnable r v) s = .next t ∧ t.fld 0x20018 31 31 = 1 ∧ (s.fld 0x20018 31 31 = 0 → t.reg64 0x20020 = 0) ∧
      s.OnlyRegs t [0x20018, 0x20020, 0x20024] ∧ { t with regs := s.regs } = s.setStage r none) ∧
    (s.fld 0x28006C 0 0 = 0 → ∀ v, ∃ t, exec (.washEnable r v) s = .next t ∧ t.washOn = true ∧
      (s.washOn = false → t.fld 0x28002C 15 0 = s.fld 0x280008 15 0 ∧ t.power = { s.power with
        washFrom := s.winOf s.itNow, lastTick := some (max s.itNow (s.power.lastTick.getD 0)) }) ∧
      (s.washOn = true → t.reg 0x28002C = s.reg 0x28002C ∧ t.power = s.power) ∧ s.OnlyRegs t [0x280018, 0x28002C] ∧
      { t with regs := s.regs, power := s.power } = s.setStage r none) ∧
    (s.fld 0x180040 0 0 = 0 → ∀ v, ∃ t, exec (.regEnable r v) s = .next t ∧ t.fld 0x181000 0 0 = 1 ∧
      t.buckets = (if s.fld 0x181000 0 0 = 0 then [] else s.buckets) ∧ t.heldReqs = (if s.fld 0x181000 0 0 = 0 then [] else s.heldReqs) ∧
      s.OnlyRegs t [0x181000] ∧ { t with regs := s.regs, buckets := s.buckets, heldReqs := s.heldReqs } = s.setStage r none) ∧
    (s.fld 0x20003C 0 0 = 0 → ∀ v : W32, ∃ t, exec (.transportTimeoutWrite r v) s = .next t ∧
      (v.toNat < (s.reg 0x200014).toNat → t.reg 0x200004 = s.reg 0x200014 ∧ t.fld 0x200010 0 0 = 1) ∧
      ((s.reg 0x200014).toNat ≤ v.toNat → t.reg 0x200004 = v ∧ t.reg 0x200010 = s.reg 0x200010) ∧ s.OnlyRegs t [0x200004, 0x200010] ∧
      { t with regs := s.regs } = s.setStage r none) ∧
    (s.fld 0x20003C 0 0 = 0 → ∀ v : W32, 1000 ≤ v.toNat → v.toNat ≤ 30000 → s.reg 0x200008 ≠ v → ∃ t,
      exec (.replayWindowWrite r v) s = .next t ∧ t.reg 0x200008 = v ∧ t.reg 0x200014 = BitVec.ofNat 32 t.minTimeout ∧
      (t.minTimeout < 2 ^ 32 → t.txTimeout = max s.txTimeout t.minTimeout ∧ (s.txTimeout < t.minTimeout → t.fld 0x200010 0 0 = 1)) ∧
      s.OnlyRegs t [0x200004, 0x200008, 0x200010, 0x200014] ∧ { t with regs := s.regs } = s.setStage r none)

/-- A write of a port's configuration (14 R442): its fields take their values; a change of MODE, LANE_RATE or ACK_EXP takes the port DOWN or
into TRAINING with no frame left on it, and an OFF port holds no credit. -/
def Obligations.PortConfiguration : Prop :=
  ∀ (s : State) (r : Requester) (p : Fin 12) (v : W32), s.openRegs → s.fld 0x20003C 0 0 = 0 → bits v.toNat 3 0 ≤ 2 → bits v.toNat 6 4 ≤ 3 →
    bits v.toNat 11 8 ≤ 4 → ∃ t, exec (.portCfgWrite r p v) s = .next t ∧
    (let o := 0x200100 + 0x40 * p.val
     t.fld o 3 0 = bits v.toNat 3 0 ∧ t.fld o 6 4 = bits v.toNat 6 4 ∧ t.fld o 11 8 = bits v.toNat 11 8 ∧ t.fld o 12 12 = bits v.toNat 12 12 ∧
     t.fld o 15 13 = bits v.toNat 15 13 ∧
     (s.fld o 3 0 = t.fld o 3 0 ∧ s.fld o 6 4 = t.fld o 6 4 ∧ s.fld o 11 8 = t.fld o 11 8 → s.OnlyRegs t [o] ∧
       { t with regs := s.regs } = s.setStage r none) ∧
     (¬(s.fld o 3 0 = t.fld o 3 0 ∧ s.fld o 6 4 = t.fld o 6 4 ∧ s.fld o 11 8 = t.fld o 11 8) →
       (t.port p.val).st = (if bits v.toNat 3 0 = 0 then .down else .training) ∧ (t.port p.val).rate = 0 ∧ (t.port p.val).paused = false ∧
       (t.port p.val).frames = [] ∧ (bits v.toNat 3 0 = 0 → ∀ x ∈ t.openTx, x.port ≠ some p.val) ∧
       (∀ q, q ≠ p.val → (t.port q).st = (s.port q).st))) ∧
    s.SameMem t ∧ s.SameTables t

/-- A write of a pending field that is accepted is stored and held for the next warm reset, and changes nothing that is in force (17 R529,
14 R473, 11 R367); other registers hold no pending field. -/
def Obligations.PendingFieldsAreHeld : Prop :=
  ∀ (s : State) (r : Requester), s.openRegs →
    (∀ (n : Fin 8) (v : W32), s.fld 0x180040 0 0 = 0 → bits v.toNat 8 0 ≤ 383 → ∃ t, exec (.pendingFieldWrite r (0x180020 + 4 * n.val) v) s = .next t ∧
      t.fld (0x180020 + 4 * n.val) 31 31 = bits v.toNat 31 31 ∧ t.fld (0x180020 + 4 * n.val) 8 0 = bits v.toNat 8 0 ∧
      fieldId (0x180020 + 4 * n.val) 31 ∈ t.heldFields ∧ fieldId (0x180020 + 4 * n.val) 0 ∈ t.heldFields ∧
      (∀ k ∈ s.heldFields, k ∈ t.heldFields) ∧ s.OnlyRegs t [0x180020 + 4 * n.val] ∧
      { t with regs := s.regs, heldFields := s.heldFields } = s.setStage r none) ∧
    (∀ v : W32, s.fld 0x220048 0 0 = 0 → 1000000 ≤ v.toNat → v.toNat ≤ 1000000000 → (s.reg 0x220024).toNat < v.toNat → ∃ t,
      exec (.pendingFieldWrite r 0x220020 v) s = .next t ∧ t.reg 0x220020 = v ∧ fieldId 0x220020 0 ∈ t.heldFields ∧
      (∀ k ∈ s.heldFields, k ∈ t.heldFields) ∧ s.OnlyRegs t [0x220020] ∧ { t with regs := s.regs, heldFields := s.heldFields } = s.setStage r none) ∧
    (∀ v : W32, s.fld 0x220048 0 0 = 0 → v.toNat < (s.reg 0x220020).toNat → ∃ t, exec (.pendingFieldWrite r 0x220024 v) s = .next t ∧
      t.reg 0x220024 = v ∧ fieldId 0x220024 0 ∈ t.heldFields ∧ (∀ k ∈ s.heldFields, k ∈ t.heldFields) ∧ s.OnlyRegs t [0x220024] ∧
      { t with regs := s.regs, heldFields := s.heldFields } = s.setStage r none) ∧
    (∀ off v, (∀ f ∈ pendingFields, f.1 ≠ off) → exec (.pendingFieldWrite r off v) s = .next s)

/-- Profiles (15 R476, R477): a write of REQ with a new profile starts a switch and shows it; while one is in progress the write is ignored; the
switch's end puts the profile in force, records it and counts the commands that were running. -/
def Obligations.ProfileSwitch : Prop :=
  ∀ (s : State),
    (∀ (r : Requester) (v : W32), s.openRegs → s.fld 0x260050 0 0 = 0 →
      (s.switching = false → bits v.toNat 1 0 ≤ 2 → bits v.toNat 1 0 ≠ s.fld 0x260000 1 0 → ∃ t, exec (.profileReq r v) s = .next t ∧
        t.fld 0x260000 1 0 = bits v.toNat 1 0 ∧ t.switching = true ∧ t.switchTo = some (bits v.toNat 1 0) ∧ t.profile = s.profile ∧
        s.OnlyRegs t [0x260000, 0x260004] ∧ { t with regs := s.regs, switchTo := s.switchTo } = s.setStage r none) ∧
      (s.switching = true → ∃ t, exec (.profileReq r v) s = .next t ∧ (∀ o, t.reg o = s.reg o) ∧
        { t with regs := s.regs } = s.setStage r none)) ∧
    (∀ v, s.switchTo = some v → v ≤ 2 → s.upkeep = true → s.switching = true → s.portHeld (srcHub 0) = false → ∃ t, exec (.profileSwitchDone .none) s = .next t ∧
      t.profile = v ∧ t.switching = false ∧ t.switchTo = none ∧ t.sb.nextSeq = s.sb.nextSeq + 1 ∧ t.cmds.length = s.cmds.length ∧
      s.Counted t 0x260008 (s.cmds.filter fun c => c.begun && !c.phase.completed && c.phase != .ended && c.phase != .signalled &&
        !c.straddled).length ∧
      (∀ p, p < 4 → t.fld (0x280100 + 0x10 * p) 11 0 = t.panelClock p % 4096) ∧
      { t with regs := s.regs, switchTo := s.switchTo, sb := s.sb, cmds := s.cmds } = s)

/-! ## Reset, life cycle, primer (17) -/

/-- Every reset cause leaves the module as started anew, with its cause shown (17 R520, R521, R537, R539); a power-on forgets the held fields and
program slots. While RESET_N is asserted every unit is stopped, a power-on is kept for its deassertion and the other causes are held off. -/
def Obligations.ResetsStartTheModuleAnew : Prop :=
  ∀ s : State, s.lc.marker = none →
    (s.held = false → (∃ t, exec .powerOn s = .next t ∧ s.Rebooted t 0 ∧ t.heldFields = [] ∧ t.progs = []) ∧
      (∃ t, exec .perst s = .next t ∧ s.Rebooted t 1 ∧ t.heldFields = s.heldFields) ∧
      (∃ t, exec .hotReset s = .next t ∧ s.Rebooted t 6 ∧ t.heldFields = s.heldFields) ∧ exec .resetN s = .next s) ∧
    (s.held = true → (∃ t, exec .resetN s = .next t ∧ s.Rebooted t 2 ∧ t.coldPend = false ∧
        t.heldFields = if s.coldPend then [] else s.heldFields) ∧
      exec .powerOn s = .next { s with coldPend := true } ∧ exec .perst s = .next s ∧ exec .hotReset s = .next s) ∧
    (∃ t, exec .resetNAssert s = .next t ∧ t.held = true ∧ t.ready = false ∧ t.cmds = [] ∧ t.sch.units = [] ∧ t.openTx = [] ∧
      t.power.stopped = true ∧ s.SameMem t ∧ s.SameTables t ∧ t.regs = s.regs ∧ t.objs = s.objs) ∧
    (∀ (r : Requester) (v : W32), s.accepts 0x100 = true →
      (bits v.toNat 0 0 = 1 ∧ bits v.toNat 15 8 = 0xA5 → ∃ t, exec (.resetCtl r v) s = .next t ∧
        s.Rebooted t (match r with | .pcie => 3 | .mgmt => 4)) ∧
      (¬(bits v.toNat 0 0 = 1 ∧ bits v.toNat 15 8 = 0xA5) → exec (.resetCtl r v) s = .next (s.setStage r none)))

/-- LC_GO (17 R534, R535, 11 R364): a request that fails a check changes nothing but RESULT and the nonce; one that passes runs its transition to
the end: the new state with its keys, or RETURN without keys where the scrape does not verify, one transition counted, flash and both primer
slots erased, and the module READY after its reset. Whether the scrape verifies is a free value (log entry 42). -/
def Obligations.LifeCycleRequest : Prop :=
  ∀ (s : State) (r : Requester), s.accepts 0x1010 = true →
    (∀ e, s.lcCheck = .error e → exec (.lcGo r) s =
      .next { s.setStage r none with lc := { s.lc with result := e }, nonceCtr := s.nonceCtr + 1 }) ∧
    (∀ m, s.lcCheck = .ok m → ∃ t, exec (.lcGo r) s = .next t ∧ t.lc.marker = none ∧
      t.lc.transitions = min (s.lc.transitions + 1) (2 ^ 32 - 1) ∧
      (Config.scrapeFails s.nonceCtr = 0 → t.lc.st = m.target ∧ t.lc.issuer = m.issuer ∧ t.lc.owner = m.owner ∧ t.lc.result = 2) ∧
      (Config.scrapeFails s.nonceCtr ≠ 0 → t.lc.st = .ret ∧ t.lc.issuer = [] ∧ t.lc.owner = [] ∧ t.lc.result = 7) ∧
      t.flash = [] ∧ t.slotA = {} ∧ t.slotB = {} ∧ t.cmds = [] ∧ t.heldFields = [] ∧ t.ready = true ∧ t.reg 0x104 = 5 ∧ t.host = s.host)

/-- The primer's slots (17 R530): a slot operation starts in ISSUED and OWNED unless one is BUSY, is refused in the other states and under the
lock, and its end shows the slot's check: ERASE leaves the slot erased, WRITE what the source held, VALIDATE the slot as it was. -/
def Obligations.PrimerSlots : Prop :=
  (∀ (s : State) (r : Requester) (b : Bool), s.accepts 0x2020 = true → s.fld 0x2024 3 0 ≠ 1 → ∀ (i : Instr) (op : Nat),
    (i, op) ∈ [(Instr.primerWrite r b, 0), (.primerErase r b, 1), (.primerValidate r b, 2)] → ∃ t, exec i s = .next t ∧
    s.OnlyRegs t [0x2020, 0x2024] ∧ { t with regs := s.regs, primerJob := s.primerJob } = s.setStage r none ∧
    (s.lc.st = .blank ∨ s.lc.st = .ret → t.fld 0x2024 3 0 = 3 ∧ t.primerJob = s.primerJob) ∧
    (s.lc.st = .issued ∨ s.lc.st = .owned →
      (r = .pcie ∧ s.fld 0x2028 0 0 = 1 ∨ r = .mgmt ∧ op = 0 → t.fld 0x2024 3 0 = 4 ∧ t.primerJob = s.primerJob) ∧
      (¬(r = .pcie ∧ s.fld 0x2028 0 0 = 1) → ¬(r = .mgmt ∧ op = 0) →
        t.fld 0x2024 3 0 = 1 ∧ t.primerJob = some { op := op, slotB := b, req := r }))) ∧
  (∀ (s : State) (j : PrimerJob), s.ready = true → s.primerJob = some j → ∃ t, exec .primerOpDone s = .next t ∧ t.primerJob = none ∧
    t.fld 0x2024 15 8 = t.slotCheck (t.slot j.slotB) ∧ t.slot (!j.slotB) = s.slot (!j.slotB) ∧ s.OnlyRegs t [0x2024] ∧
    (j.op = 0 → ∀ bs, s.primerSource = some bs → t.slot j.slotB = { bytes := bs } ∧ t.fld 0x2024 3 0 = 2) ∧
    (j.op = 0 → s.primerSource = none → t.fld 0x2024 3 0 = 5) ∧
    (j.op = 1 → t.slot j.slotB = {} ∧ t.fld 0x2024 3 0 = 2) ∧ (2 ≤ j.op → t.slot j.slotB = s.slot j.slotB ∧ t.fld 0x2024 3 0 = 2) ∧
    { t with regs := s.regs, primerJob := s.primerJob, slotA := s.slotA, slotB := s.slotB, freeCtr := s.freeCtr } = s)

/-! ## Queues, objects and windows of other blocks (11, 12, 13, 15) -/

/-- A queue's registers (12 R375-R377): ENABLE starts a DISABLED queue afresh and is ignored otherwise, DISABLE leaves an ENABLED one DRAINING,
which becomes DISABLED once no command of it is left; a doorbell in its range moves its index, and one out of it sets DB_ERROR. -/
def Obligations.QueueRegisters : Prop :=
  ∀ (s : State) (r : Requester) (q : Fin 512),
    (s.accepts (qBase q.val) = true →
      ((s.queue q.val).st = .disabled → ∃ t, exec (.qEnable r q) s = .next t ∧
        t.queue q.val = { s.queue q.val with st := .enabled, sqHead := 0, sqTail := 0, cqWrite := 0, phase := true, readIdx := 0, unread := 0 } ∧
        (∀ k, k ≠ q.val → t.queue k = s.queue k) ∧ t.reg64 (qBase q.val + 0x28) = 0 ∧
        s.OnlyRegs t [qBase q.val + 0x28, qBase q.val + 0x2C] ∧ { t with regs := s.regs, queues := s.queues } = s.setStage r none) ∧
      ((s.queue q.val).st ≠ .disabled → exec (.qEnable r q) s = .next (s.setStage r none)) ∧
      ((s.queue q.val).st = .enabled → ∃ t, exec (.qDisable r q) s = .next t ∧ t.queue q.val = { s.queue q.val with st := .draining } ∧
        (∀ k, k ≠ q.val → t.queue k = s.queue k) ∧ { t with queues := s.queues } = s.setStage r none) ∧
      ((s.queue q.val).st ≠ .enabled → exec (.qDisable r q) s = .next (s.setStage r none))) ∧
    (∀ v : W32, s.accepts (0x18000 + 8 * q.val) = true → ∃ t, exec (.sqTailDb r q v) s = .next t ∧
      ((s.queue q.val).st = .enabled ∧ v.toNat % 65536 < s.sqSize q.val → t.queue q.val = { s.queue q.val with sqTail := v.toNat % 65536 } ∧
        t.regs = s.regs) ∧
      (¬((s.queue q.val).st = .enabled ∧ v.toNat % 65536 < s.sqSize q.val) → t.fld (qBase q.val + 4) 2 2 = 1 ∧ t.queues = s.queues) ∧
      (∀ k, k ≠ q.val → t.queue k = s.queue k) ∧ s.OnlyRegs t [qBase q.val + 4] ∧
      { t with regs := s.regs, queues := s.queues } = s.setStage r none) ∧
    (∀ v : W32, s.accepts (0x18004 + 8 * q.val) = true → ∃ t, exec (.cqHeadDb r q v) s = .next t ∧
      (let n := s.cqSize q.val
       let h := v.toNat % 65536
       let x := s.queue q.val
       let used := if h = x.readIdx then (if x.unread = n then n else 0) else (h + n - x.readIdx) % n
       (h < n ∧ used ≤ x.unread → t.queue q.val = { x with readIdx := h, unread := x.unread - used } ∧ t.regs = s.regs) ∧
       (¬(h < n ∧ used ≤ x.unread) → t.fld (qBase q.val + 4) 2 2 = 1 ∧ t.queues = s.queues)) ∧
      (∀ k, k ≠ q.val → t.queue k = s.queue k) ∧ s.OnlyRegs t [qBase q.val + 4] ∧
      { t with regs := s.regs, queues := s.queues } = s.setStage r none) ∧
    (s.live = true → (s.queue q.val).st = .draining →
      ((∀ c ∈ s.cmds, c.qid ≠ q.val) → ∃ t, exec (.queueDrained q) s = .next t ∧ t.queue q.val = { s.queue q.val with st := .disabled } ∧
        (∀ k, k ≠ q.val → t.queue k = s.queue k) ∧ { t with queues := s.queues } = s) ∧
      ((∃ c ∈ s.cmds, c.qid = q.val) → exec (.queueDrained q) s = .next s))

/-- Adds to one object (13 R405) are atomic: VALUE moves once by their sum; one that would carry it past 2^64 - 1 leaves it there and sets
SATURATED; it never wraps. -/
def Obligations.AddsSaturate : Prop :=
  ∀ (s : State) (i a b : Nat), ((s.obj i).value < 2 ^ 64 → ((s.addObj i a).obj i).value =
      (if 2 ^ 64 - 1 < (s.obj i).value + a then 2 ^ 64 - 1 else (s.obj i).value + a) ∧ ((s.addObj i a).obj i).value < 2 ^ 64 ∧
      ((s.addObj i a).obj i).sat = ((s.obj i).sat || decide (2 ^ 64 - 1 < (s.obj i).value + a)) ∧
      ((s.addObj i a).addObj i b).obj i = (s.addObj i (a + b)).obj i) ∧
    (∀ j, j ≠ i → (s.addObj i a).obj j = s.obj j) ∧ ((s.addObj i a).obj i).config = (s.obj i).config

/-- A write of an object's VALUE stores it; waits on it are judged again (13 R406). -/
def Obligations.ObjectValueWrite : Prop :=
  ∀ (s : State) (r : Requester) (n : Fin 16384) (v : W64), s.openRegs → ∃ t, exec (.objValueWrite r n v) s = .next t ∧
    t.obj n.val = { s.obj n.val with value := v.toNat } ∧ (∀ k, k ≠ n.val → t.obj k = s.obj k) ∧ t.cmds.length = s.cmds.length ∧
    (∀ k c, s.cmd k = some c → c.phase = .wait → c.waitEn = true → c.waitObj = n.val → v.toNat < c.waitValue →
      ∃ d, t.cmd k = some d ∧ d.phase = .wait) ∧
    { t with objs := s.objs, cmds := s.cmds } = s.setStage r none

/-- Windows on other blocks' tables: GRANULE_QUERY latches the granule's entry, all ones above the range (11 R370); SB_READ latches a record or says
why not, in every state of the module, SB_NOTE writes one (15 R497, R500); SB_DRAIN moves the oldest records of MRAM to flash (R495); POOL_APPLY
puts the pool's registers in force unless a scene is open, and leaves its bookkeeping zero once its granules can be written, BUSY before
(07 R243). -/
def Obligations.QueriesAndNotes : Prop :=
  ∀ (s : State) (r : Requester),
    (s.openRegs → ∀ v : W64, ∃ t, exec (.granuleQuery r v) s = .next t ∧ t.reg64 0x182040 = v.toNat ∧
      (dvaEnd ≤ v.toNat → t.reg64 0x182048 = 2 ^ 64 - 1) ∧
      (v.toNat < dvaEnd → (s.granule (v.toNat / gBytes)).resident = true →
        t.reg64 0x182048 = (s.granule (v.toNat / gBytes)).entry (s.granule (v.toNat / gBytes)).frame % 2 ^ 64) ∧
      (v.toNat < dvaEnd → bits (t.reg64 0x182048) 39 39 = if (s.granule (v.toNat / gBytes)).resident then 1 else 0) ∧
      s.OnlyRegs t [0x182040, 0x182044, 0x182048, 0x18204C] ∧ { t with regs := s.regs, freeCtr := s.freeCtr } = s.setStage r none) ∧
    (∀ v : W64, ∃ t, exec (.sbRead r v) s = .next t ∧ t.reg64 0x3020 = v.toNat ∧
      t.fld 0x3028 1 0 = (s.sbFind (v.toNat / 2 ^ 63 % 2) (v.toNat % 2 ^ 63)).1 ∧
      (∀ n, n < 16 → t.reg (0x3100 + 4 * n) = BitVec.ofNat 32 (leNat
        ((padTo 64 (s.sbFind (v.toNat / 2 ^ 63 % 2) (v.toNat % 2 ^ 63)).2).drop (4 * n) |>.take 4))) ∧
      { t with regs := s.regs } = s.setStage r none) ∧
    (s.ready = true → ∀ v : W64, ∃ t, exec (.sbNote r v) s = .next t ∧ t.sb.nextSeq = s.sb.nextSeq + 1 ∧
      (s.sb.mram.length < 64512 → ∃ x, t.sb.mram = s.sb.mram ++ [x] ∧ x.seq = s.sb.nextSeq ∧ x.bytes.getD 16 0 = 0x80 ∧
        (x.bytes.drop 24).take 8 = leBytes 8 v.toNat) ∧
      { t with sb := s.sb } = s.setStage r none) ∧
    (s.upkeep = true → s.sb.dropRun = none → ∃ t, exec .sbDrain s = .next t ∧ t.sb.mram = s.sb.mram.drop 256 ∧
      t.sb.nextSeq = s.sb.nextSeq ∧ (s.sb.ring.length + 256 ≤ ringRecords → t.sb.ring = s.sb.ring ++ s.sb.mram.take 256) ∧
      s.sb.head <+: t.sb.head ∧ { t with sb := s.sb } = s) ∧
    (s.openRegs → s.fld 0x148838 0 0 = 0 →
      (s.fld 0x148804 3 0 = 1 → exec (.poolApply r) s = .next (s.setStage r none)) ∧
      (s.fld 0x148804 3 0 ≠ 1 →
        ((∃ e ∈ s.scenes, e.2.isSome = true) → ∃ t, exec (.poolApply r) s = .next t ∧ t.fld 0x148804 3 0 = 3 ∧ s.OnlyRegs t [0x148804] ∧
          { t with regs := s.regs } = s.setStage r none) ∧
        ((∀ e ∈ s.scenes, e.2 = none) → 14 ≤ s.poolRegs.pageLog2 → s.poolRegs.pageLog2 ≤ 16 → 12 ≤ s.poolRegs.dirLog2 →
          s.poolRegs.dirLog2 ≤ 28 → s.poolRegs.base % 2097152 = 0 →
          (s.poolRegs.pages = 0 → ∃ t, exec (.poolApply r) s = .next t ∧ t.fld 0x148804 3 0 = 2 ∧ t.fld 0x148804 8 8 = 0 ∧
            t.pool = s.poolRegs ∧ s.OnlyRegs t [0x148804, 0x148818, 0x14881C] ∧
            { t with regs := s.regs, pool := s.pool } = s.setStage r none) ∧
          (0 < s.poolRegs.pages → s.poolRegs.pages ≤ 0xFF0000 → s.poolRegs.last ≤ dvaEnd →
            (let gs := (List.range ((s.poolRegs.scales - s.poolRegs.base) / gBytes)).map (· + s.poolRegs.base / gBytes)
             ((∀ g ∈ gs, (s.granule g).resident = true ∧ (s.granule g).move = 0) → ∃ t, exec (.poolApply r) s = .next t ∧
               t.fld 0x148804 3 0 = 2 ∧ t.fld 0x148804 8 8 = 1 ∧ t.pool = s.poolRegs ∧ t.fld 0x148818 23 0 = s.poolRegs.pages ∧
               t.fld 0x14881C 23 0 = s.poolRegs.pages ∧ s.OnlyRegs t [0x148804, 0x148818, 0x14881C] ∧
               (∀ g ∈ gs, ∀ k, gBytes * (s.granule g).frame ≤ k → k < gBytes * (s.granule g).frame + gBytes →
                 SMap.get (fun _ => 0) t.hbm k = 0) ∧ (∀ g, g ∉ gs → t.granule g = s.granule g) ∧
               { t with regs := s.regs, pool := s.pool, hbm := s.hbm, badLines := s.badLines, gran := s.gran } = s.setStage r none) ∧
             (s.ftlState = 1 → ∀ g l, gs = g :: l → (s.granule g).resident = false → ∃ t, exec (.poolApply r) s = .next t ∧
               t.fld 0x148804 3 0 = 1 ∧ t.fld 0x148804 8 8 = 0 ∧ t.pool = s.poolRegs ∧ s.OnlyRegs t [0x148804] ∧
               { t with regs := s.regs, pool := s.pool } = s.setStage r none))))))

/-! ## Tiles, repair and diagnostics (04, 19) -/

/-- TILE_CONTROL and field repair (04 R125-R130, R134): an IDLE tile is quarantined at once and leaves burn work, a RUNNING or REPLAYING one when
its execution ends; RELEASE returns a QUARANTINED one to IDLE; a commit runs on a QUARANTINED tile alone, and its end burns the staged record
or, for a retirement, the retire fuse, and is recorded. A tile whose retire fuse is burned takes no TILE_CONTROL. -/
def Obligations.TileControlAndRepair : Prop :=
  ∀ (s : State) (r : Requester) (k : Fin 64),
    (s.openRegs →
      ((s.tile k.val).retireFuse = true → exec (.tileQuarantine r k) s = .next (s.setStage r none) ∧
        exec (.tileRelease r k) s = .next (s.setStage r none)) ∧
      ((s.tile k.val).st = .idle → (s.tile k.val).retireFuse = false → ∃ t, exec (.tileQuarantine r k) s = .next t ∧ t.tile k.val = { s.tile k.val with st := .quarantined } ∧
        (∀ j, j ≠ k.val → t.tile j = s.tile j) ∧ t.fld (adaptReg k.val) 1 1 = 0 ∧ s.OnlyRegs t [adaptReg k.val, 0x280000] ∧
        { t with tiles := s.tiles, regs := s.regs } = s.setStage r none) ∧
      ((s.tile k.val).st = .running ∨ (s.tile k.val).st = .replaying → (s.tile k.val).retireFuse = false → ∃ t, exec (.tileQuarantine r k) s = .next t ∧
        t.tile k.val = { s.tile k.val with quarPending := true } ∧ (∀ j, j ≠ k.val → t.tile j = s.tile j) ∧
        { t with tiles := s.tiles } = s.setStage r none) ∧
      ((s.tile k.val).st = .quarantined → (s.tile k.val).retireFuse = false → ∃ t, exec (.tileRelease r k) s = .next t ∧ t.tile k.val = { s.tile k.val with st := .idle } ∧
        (∀ j, j ≠ k.val → t.tile j = s.tile j) ∧ { t with tiles := s.tiles } = s.setStage r none) ∧
      ((s.tile k.val).st ≠ .quarantined → exec (.tileRelease r k) s = .next (s.setStage r none)) ∧
      (s.fld (0x100288 + 0x1000 * k.val) 3 0 ≠ 1 → s.fld (0x10028C + 0x1000 * k.val) 0 0 = 0 → ∃ t, exec (.repairGo r k) s = .next t ∧
        s.OnlyRegs t [0x100288 + 0x1000 * k.val] ∧ { t with tiles := s.tiles, regs := s.regs } = s.setStage r none ∧
        (∀ j, j ≠ k.val → t.tile j = s.tile j) ∧
        ((s.tile k.val).st ≠ .quarantined → t.fld (0x100288 + 0x1000 * k.val) 3 0 = 4 ∧ t.tiles = s.tiles) ∧
        (let w := (s.reg (0x100280 + 0x1000 * k.val)).toNat
         (s.tile k.val).st = .quarantined → bits w 30 28 ≤ 4 → (bits w 30 28 = 4 ∨ bits w 3 0 < 8 ∨ bits w 3 0 = 15) →
           spareRefused (s.tile k.val) w = false →
           t.fld (0x100288 + 0x1000 * k.val) 3 0 = 1 ∧ t.tile k.val = { s.tile k.val with staged := some w }))) ∧
    (s.ready = true → ∀ w, (s.tile k.val).staged = some w → ∀ ok, ∃ t, exec (.repairDone k ok) s = .next t ∧ (t.tile k.val).staged = none ∧
      t.sb.nextSeq = s.sb.nextSeq + 1 ∧ (∀ j, j ≠ k.val → t.tile j = s.tile j) ∧ s.OnlyRegs t [0x100288 + 0x1000 * k.val] ∧
      (bits w 30 28 = 4 → (t.tile k.val).retireFuse = true ∧ (t.tile k.val).st = .retired ∧ t.fld (0x100288 + 0x1000 * k.val) 3 0 = 3 ∧
        (s.sch.tilesWin ≠ some (s.winOf s.itNow) → t.sch = { s.sch with tilesWin := some (s.winOf s.itNow), winTiles := s.healthyTiles }) ∧
        (s.sch.tilesWin = some (s.winOf s.itNow) → t.sch = s.sch)) ∧
      (∀ n, bits w 30 28 ≤ 1 → stageSpare (s.tile k.val) w = some n → (s.tile k.val).recs.length < 16 → ok = true →
        (t.tile k.val).recs = (s.tile k.val).recs ++ [{ kind := bits w 30 28, logical := bits w 15 8, spare := n }] ∧
        t.fld (0x100288 + 0x1000 * k.val) 3 0 = 2 ∧ t.sch = s.sch) ∧
      { t with tiles := s.tiles, regs := s.regs, sb := s.sb, sch := s.sch } = s)

/-- Diagnostics (19 R566-R574): a self-test runs on a QUARANTINED tile, which it returns to QUARANTINED with its result, a failure being recorded;
HBM margining runs in safe state alone, an eye measurement on an UP port alone, and each ends with its result. -/
def Obligations.Diagnostics : Prop :=
  ∀ (s : State) (r : Requester), s.ready = true → s.fld 0x2C0004 0 0 = 0 →
    (∀ (k : Fin 64) (v : W32), s.testResult k.val ≠ 1 → ∃ t, exec (.tileTestGo r k v) s = .next t ∧ (∀ j, j ≠ k.val → t.tile j = s.tile j) ∧
      { t with tiles := s.tiles, regs := s.regs } = s.setStage r none ∧
      ((s.tile k.val).st = .quarantined → bits v.toNat 11 8 ≤ 4 → t.testResult k.val = 1 ∧ t.fld (testCtl k.val) 0 0 = 1 ∧
        t.tile k.val = { s.tile k.val with st := .selfTest }) ∧
      ((s.tile k.val).st ≠ .quarantined → t.testResult k.val = 4 ∧ t.tiles = s.tiles)) ∧
    (∀ (k : Fin 64) (fails : List (Nat × Nat)), s.testResult k.val = 1 → (∀ c ∈ s.cmds, c.op ≠ 0x0700) → ∃ t,
      exec (.tileTestDone k fails) s = .next t ∧
      t.tile k.val = { s.tile k.val with st := if (s.tile k.val).retireFuse then .retired else .quarantined } ∧
      t.testResult k.val = (if fails = [] then 2 else 3) ∧ t.fld (testCtl k.val) 0 0 = 0 ∧
      (t.reg (testCtl k.val + 8)).toNat = min fails.length (2 ^ 32 - 1) ∧
      t.sb.nextSeq = s.sb.nextSeq + (if fails = [] then 0 else 1) ∧ (∀ j, j ≠ k.val → t.tile j = s.tile j) ∧
      s.OnlyRegs t [testCtl k.val, testCtl k.val + 4, testCtl k.val + 8] ∧
      { t with tiles := s.tiles, regs := s.regs, sb := s.sb, freeCtr := s.freeCtr } = s) ∧
    (∀ v : W32, s.fld 0x2C0104 31 28 ≠ 1 → ∃ t, exec (.hbmMarginGo r v) s = .next t ∧ s.OnlyRegs t [0x2C0100, 0x2C0104] ∧
      { t with regs := s.regs } = s.setStage r none ∧ (s.safe = false → t.fld 0x2C0104 31 28 = 3) ∧
      (s.safe = true → bits v.toNat 15 12 ≤ 11 → bits v.toNat 9 8 ≤ 2 → t.fld 0x2C0104 31 28 = 1 ∧ t.fld 0x2C0100 0 0 = 1)) ∧
    (∀ (l : Fin 32) lo hi, s.fld 0x2C0104 31 28 = 1 → ∃ t, exec (.hbmMarginDone l lo hi) s = .next t ∧ t.fld 0x2C0104 31 28 = 2 ∧
      t.fld 0x2C0104 24 16 = 32 * s.fld 0x2C0100 15 12 + l.val ∧ t.fld 0x2C0104 15 8 = min lo 255 ∧ t.fld 0x2C0104 7 0 = min hi 255 ∧ t.fld 0x2C0100 0 0 = 0 ∧
      s.OnlyRegs t [0x2C0100, 0x2C0104] ∧ { t with regs := s.regs } = s) ∧
    (∀ (p : Fin 12) (v : W32), s.eyeResult p.val ≠ 1 → ∃ t, exec (.eyeGo r p v) s = .next t ∧
      t.eyeResult p.val = (if s.portUp p.val then 1 else 3) ∧ s.OnlyRegs t [eyeCtl p.val, eyeCtl p.val + 4] ∧
      { t with regs := s.regs } = s.setStage r none) ∧
    (∀ (p : Fin 12) w h, s.eyeResult p.val = 1 → (∀ c ∈ s.cmds, c.op ≠ 0x0701) → ∃ t, exec (.eyeMeasureDone p w h) s = .next t ∧
      t.eyeResult p.val = 2 ∧ t.fld (eyeCtl p.val + 4) 23 16 = min w 255 ∧ t.fld (eyeCtl p.val + 4) 15 8 = min h 255 ∧
      t.fld (eyeCtl p.val) 0 0 = 0 ∧ s.OnlyRegs t [eyeCtl p.val, eyeCtl p.val + 4] ∧ { t with regs := s.regs } = s)

/-! ## Time (14) -/

/-- Installation time (14 R462-R464): a pulse with its message is an update of the loop, and so is a PTP message of the module's domain; a pulse
without a message is one only while LOCKED; a time-of-day message gives the next edge's IT or is counted as bad; LOCKED without an update for
3 ms becomes HOLDOVER. -/
def Obligations.InstallationTime : Prop :=
  ∀ (s : State) (it : Nat), s.ready = true →
    (s.timeSource = 0 → ∃ t, exec (.timeInPulse it) s = .next t ∧ t.time.edgeAt = some t.itNow ∧ t.time.tod = none ∧
      (∀ v, s.time.tod = some v → (s.advance it).Disciplined t (v + s.fld 0x22004C 15 0) ∧ t.time.lastPulse = some v) ∧
      (s.time.tod = none → s.time.st = 2 → ∀ v, s.time.lastPulse = some v →
        (s.advance it).Disciplined t (v + 1000000 + s.fld 0x22004C 15 0) ∧ t.time.lastPulse = some (v + 1000000)) ∧
      (s.time.tod = none → s.time.st ≠ 2 → { t with time := s.time } = s.advance it ∧ t.time.st = s.time.st)) ∧
    (s.timeSource = 1 → ∀ tai, ∃ t, exec (.ptpMessage (s.fld 0x220008 31 24) tai it) s = .next t ∧
      (s.advance it).Disciplined t ((tai + 2 ^ 64 - s.reg64 0x220018) % 2 ^ 64)) ∧
    (∀ d tai, d ≠ s.fld 0x220008 31 24 → exec (.ptpMessage d tai it) s = .next (s.advance it)) ∧
    (∀ bs, ∃ t, exec (.todMessage bs) s = .next t ∧
      (s.todOk bs = true → t.time.tod = some (leNat (bs.take 8)) ∧ { t with time := s.time } = s ∧ t.time.st = s.time.st) ∧
      (s.todOk bs = false → s.Counted t 0x220040 1 ∧ s.OnlyRegs t [0x220040] ∧ { t with regs := s.regs } = s)) ∧
    (s.time.st = 2 → s.timeSource = 1 ∨ s.time.lastUpdate + 3000000 ≤ max s.itNow (it % 2 ^ 64) → ∃ t,
      exec (.holdoverTimeout it) s = .next t ∧ t.time.st = 3 ∧ t.sb.nextSeq = s.sb.nextSeq + 1 ∧ t.itNow = max s.itNow (it % 2 ^ 64) ∧
      { t with time := s.time, sb := s.sb, itNow := s.itNow } = s)

/-- The lowest open cadence window closes once IT has reached its end and the guard (14 R469), and not before; every granule's access count
halves (11 R339), and the average input power is shown (16 R512). -/
def Obligations.CadenceWindowCloses : Prop :=
  ∀ (s : State) (it : Nat), s.live = true →
    (((max s.itNow (it % 2 ^ 64) : Nat) : Int) < s.winEnd s.openWin + ((s.reg 0x220028).toNat : Int) →
      exec (.cadenceWindowClose it) s = .next (s.advance it)) ∧
    (s.winEnd s.openWin + ((s.reg 0x220028).toNat : Int) ≤ ((max s.itNow (it % 2 ^ 64) : Nat) : Int) → ∃ t,
      exec (.cadenceWindowClose it) s = .next t ∧ t.time = { s.time with closedTo := some (s.openWin + 1) } ∧
      t.itNow = max s.itNow (it % 2 ^ 64) ∧ t.power = { s.power with pinSum := 0, pinCnt := 0 } ∧
      t.fld 0x28000C 15 0 = min (if s.power.pinCnt = 0 then s.fld 0x280008 15 0 else s.power.pinSum / s.power.pinCnt) 65535 ∧
      (SMap.wf (fun _ => ({} : Granule)) s.gran = true → s.fld 0x20018 31 31 = 0 →
        (∀ g, t.granule g = { s.granule g with access := (s.granule g).access / 2 }) ∧ s.SameMem t) ∧
      t.cmds = s.cmds ∧ t.streams = s.streams ∧ t.scenes = s.scenes ∧ t.tiles = s.tiles ∧ t.objs = s.objs ∧ t.queues = s.queues)

/-! ## Commands and the scheduler (12, 13) -/

/-- NOP, FENCE, WAIT and SIGNAL (12 R386) end with OK as soon as they may begin, and change nothing of their own; while they may not begin
nothing happens. -/
def Obligations.QueueControlCommands : Prop :=
  ∀ (s : State) (tok : Nat) (i : Instr) (op : Nat), (i, op) ∈ [(Instr.nop tok, 0), (.fence tok, 1), (.wait tok, 2), (.signal tok, 3)] →
    ((s.mayBegin tok op).isSome = true → exec i s = .next (s.endedAt tok 0 0)) ∧ (s.mayBegin tok op = none → exec i s = .next s)

/-- Fetch (12 R376, R381, R387): the packet at a queue's head becomes a command and its slot is passed; a packet that a check refuses has its
record with INVALID_PACKET instead; a fetch that a bound defers is counted, whether or not another queue is served (that such a row counts
once is log entry 82), and with no packet nothing happens. -/
def Obligations.PacketFetch : Prop :=
  ∀ (s : State), s.live = true → s.switching = false → s.portHeld (srcHub 0) = false → (∀ c ∈ s.cmds, c.tok < s.nextTok) →
    (s.pickQueue = none → (∀ q, q < 512 → s.hasPacket q = false) → exec (.packetFetch .none) s = .next s) ∧
    (s.pickQueue = none → (∃ q, q < 512 ∧ s.hasPacket q = true) → ∃ t, exec (.packetFetch .none) s = .next t ∧ s.Counted64 t 0x1A008 1 ∧
      s.OnlyRegs t [0x1A008, 0x1A00C] ∧ { t with regs := s.regs } = s) ∧
    (∀ u q bs a, s.pickQueue = some (u, q) → (locH (s.reg64 (qBase q + 8))).plus (128 * (s.queue q).sqHead) = .host a →
      s.bytesAt (.host a) 128 = .ok bs → ∃ t, exec (.packetFetch .none) s = .next t ∧ t.nextTok = s.nextTok + 1 ∧
      (s.deferred = true → s.Counted64 t 0x1A008 1) ∧ (s.deferred = false → t.reg64 0x1A008 = s.reg64 0x1A008) ∧
      (t.queue q).sqHead = ((s.queue q).sqHead + 1) % s.sqSize q ∧ (∀ k, k ≠ q → t.queue k = s.queue k) ∧
      (∀ k c, s.cmd k = some c → ∃ d, t.cmd k = some d ∧ (d = c ∨ d.phase.held = true)) ∧
      (fetchCheck q (wordsOf 32 bs) = none → t.cmds.length = s.cmds.length + 1 ∧ s.SameMem t ∧ s.SameTables t ∧ ∃ c, t.cmds.getLast? = some c ∧
        c.tok = s.nextTok ∧ c.qid = q ∧ c.op = pktW (wordsOf 32 bs) 0 % 65536 ∧ c.par = (wordsOf 32 bs).drop 16 ∧ c.phase.held = true) ∧
      (∀ o, fetchCheck q (wordsOf 32 bs) = some o → s.Counted t 0x1A010 1 ∧
        ∀ c, t.cmd s.nextTok = some c → c.phase = .recordWait ∧ c.status = 0x1005 ∧ c.detail = o))

/-- Dispatch and NOT_BEFORE (12 R374, R382-R384, R389, R390): a queue's ready head is dispatched with the lists it has read, the class its queue has
and the next place in the order, and a PREEMPT's queues are suspended (13 R431); a count out of its range is refused with INVALID_ARGUMENT and its
offset, a device-virtual field with bit 63 set with ADDR_UNMAPPED; a head whose NOT_BEFORE has come is ready. -/
def Obligations.DispatchAndNotBefore : Prop :=
  ∀ s : State, s.live = true →
    (∀ (q : Fin 512) c, s.switching = false → s.portHeld (srcHub 0) = false → (s.queue q.val).suspended = false → s.readyHead q.val = some c →
      (∀ d ∈ s.cmds, d.tok = c.tok → d = c) →
      (∀ s1 c1 s2 c2, c.countBad = none → s.syncBad c = none → c.dvaBad = false → s.readLists c = .ok (s1, c1) → s.syncBad c1 = none →
        s1.readShared c1 = .ok (s2, c2) → (∀ d ∈ s2.cmds, d.tok = c.tok → d = c) → c ∈ s2.cmds → ∃ t,
        exec (.commandDispatch q .none) s = .next t ∧
        t.cmd c.tok = some { c2 with phase := .dispatched, lc := s2.isLc c.qid, order := s2.sch.nextOrder } ∧
        t.sch.nextOrder = s2.sch.nextOrder + 1 ∧ t.objs = s2.objs ∧ s2.SameMem t ∧ s2.SameTables t ∧
        (c.op ≠ 0x0600 → t.queues = s2.queues) ∧ (c.op = 0x0600 → ∀ k ∈ c.maskQueues, (t.queue k).suspended = true)) ∧
      (c.countBad = none → s.syncBad c = none → c.dvaBad = true → ∃ t d, exec (.commandDispatch q .none) s = .next t ∧
        t.cmd c.tok = some d ∧ d.phase = .ended ∧ d.status = 0x1006 ∧ s.SameMem t ∧ s.SameTables t ∧ t.objs = s.objs) ∧
      (∀ o, c.countBad = some o → ∃ t d, exec (.commandDispatch q .none) s = .next t ∧ t.cmd c.tok = some d ∧ d.phase = .ended ∧
        d.status = 0x1001 ∧ d.detail = o ∧ s.SameMem t ∧ s.SameTables t ∧ t.objs = s.objs)) ∧
    (∀ tok it c, s.cmd tok = some c → c.phase = .time → tok ∈ heads [] s.cmds → c.notBefore ≤ max s.itNow (it % 2 ^ 64) → ∃ t d,
      exec (.notBeforeReached tok it) s = .next t ∧ t.cmd tok = some d ∧ d.phase = .ready ∧ d.readyAt = t.itNow ∧
      t.itNow = max s.itNow (it % 2 ^ 64) ∧ { t with cmds := s.cmds, itNow := s.itNow } = s)

/-- Completion (12 R377, R382, R385, R387): an ended command that waits for no remote operation makes its completion signal and is counted by its
queue; with QUIET and OK it leaves at once, and otherwise its record is written to the next free entry, with the phase bit, and its token
is free. -/
def Obligations.CommandCompletes : Prop :=
  ∀ (s : State) (tok : Nat) (c : Cmd), s.live = true → s.cmd tok = some c → (∀ d ∈ s.cmds, d.tok = tok → d = c) →
    (∀ d ∈ s.cmds, d.qid = c.qid → d.phase ≠ .recordWait ∨ d.tok = tok) → c.rfail = none →
    (let x := s.queue c.qid
     let recorded (t : State) : Prop := t.cmd tok = none ∧
       t.queue c.qid = { x with cqWrite := (x.cqWrite + 1) % s.cqSize c.qid, unread := x.unread + 1
                                phase := if (x.cqWrite + 1) % s.cqSize c.qid = 0 then !x.phase else x.phase } ∧
       ∀ a, (locH (s.reg64 (qBase c.qid + 0x10))).plus (32 * x.cqWrite) = .host a → s.hostOk a 32 = true →
         CopiedTo t.host s.host a (cellsOf (recordBytes c x.phase)) 0 32
     let room : Prop := x.unread < s.cqSize c.qid ∧ ∃ a, (locH (s.reg64 (qBase c.qid + 0x10))).plus (32 * x.cqWrite) = .host a
     (c.phase = .ended → c.remotes = 0 → c.check = none →
       (c.signalEn = true → statusGood c.status = true ∨ c.signalAlways = true → bits (s.obj c.signalObj).config.toNat 31 31 = 0) → ∃ t,
       exec (.commandCompletion tok) s = .next t ∧ s.Counted64 t (qBase c.qid + 0x28) 1 ∧
       (c.signalEn = true → statusGood c.status = true ∨ c.signalAlways = true →
         (t.obj c.signalObj).value = min ((s.obj c.signalObj).value + c.signalValue) (2 ^ 64 - 1) ∨ c.signalValue = 0 ∧ t.objs = s.objs) ∧
       (c.signalEn = false ∨ statusGood c.status = false ∧ c.signalAlways = false → t.objs = s.objs) ∧
       (c.quiet = true → c.status / 256 = 0 → t.cmd tok = none ∧ t.queues = s.queues ∧ s.SameMem t ∧ s.SameTables t) ∧
       (c.quiet = false ∨ c.status / 256 ≠ 0 → (room → recorded t ∧ s.SameTables t) ∧
         (s.cqSize c.qid ≤ x.unread → ∃ d, t.cmd tok = some d ∧ d.phase = .recordWait ∧ d.status = c.status))) ∧
     (c.phase = .recordWait → room → ∃ t, exec (.completionRecordWrite tok) s = .next t ∧ recorded t ∧ t.objs = s.objs ∧ s.SameTables t) ∧
     (c.phase = .recordWait → s.cqSize c.qid ≤ x.unread → exec (.completionRecordWrite tok) s = .next s))

/-- Grants, caps and quanta (13 R415-R421): a free resource goes to the first waiting latency-critical unit of its kind, and without one to the
best-effort unit served first; tiles granted run; a kind at its cap is capped for the window; boundaries of the quantum that IT has passed are
acted on once, and stop commands for the units of clients owed more only where pre-emption is on. -/
def Obligations.SchedulerGrants : Prop :=
  ∀ s : State, s.live = true →
    (∀ (kind : Fin 10) (u : SUnit) (l : List SUnit) (i : Nat) (c : Cmd) (lc : Bool),
      (lc = true ∧ ((s.waitingUnits kind.val).filter fun u => !s.beUnit u) = u :: l ∧ s.freeInst u = some i ∨
        lc = false ∧ ((s.waitingUnits kind.val).filter fun u => !s.beUnit u) = [] ∧
          ∃ m, ((s.waitingBe kind.val).filterMap fun u => (s.freeInst u).map fun i => (u, i)) = (u, i) :: m) →
      s.cmd u.tok = some c → c.phase = .running → (∀ d ∈ s.cmds, d.phase ≠ .saved) → (u.kind = 0 → s.blockedTile u.tiles = none) →
      ∃ t, exec (.unitGrant kind) s = .next t ∧
      t.sch.units = (s.sch.units.map fun v =>
        if v.id = u.id then { v with held := true, inst := i, since := s.itNow, asLc := lc } else v) ∧
      (u.kind ≠ 0 → t.tiles = s.tiles) ∧
      (u.kind = 0 → (∀ k, k ∈ u.tiles → t.tile k = { s.tile k with st := .running }) ∧ ∀ k, k ∉ u.tiles → t.tile k = s.tile k) ∧
      { t with sch := s.sch, regs := s.regs, tiles := s.tiles } = s) ∧
    (∀ kind : Fin 10, s.waitingUnits kind.val = [] → exec (.unitGrant kind) s = .next s) ∧
    (∀ (kind : Fin 10) it,
      (let u := (s.advance it).chargeKind kind.val
       let used := SMap.get (fun _ => 0) u.sch.lcUse ((u.winOf u.itNow).toNat % 4 * 16 + kind.val) * 100
       (u.lcCap = 100 ∨ used < u.lcCap * u.capacity kind.val → exec (.lcCapReached kind it) s = .next u) ∧
       (u.lcCap ≠ 100 → u.cappedNow kind.val = false → u.lcCap * u.capacity kind.val ≤ used → ∃ t, exec (.lcCapReached kind it) s = .next t ∧
         t.cappedNow kind.val = true ∧ t.sch.units = u.sch.units ∧ { t with sch := u.sch } = u))) ∧
    (∀ it,
      (let q := max 1 (s.reg 0x20004).toNat
       (it % 2 ^ 64 / q ≤ s.sch.lastQuantum / q → exec (.quantumBoundary it) s = .next (s.advance it)) ∧
       (s.sch.lastQuantum / q < it % 2 ^ 64 / q → ∃ t, exec (.quantumBoundary it) s = .next t ∧ t.sch.lastQuantum = it % 2 ^ 64 ∧ t.itNow = max s.itNow (it % 2 ^ 64) ∧
         (s.fld 0x20000 0 0 = 0 → t.cmds = s.cmds) ∧
         (∀ k c, s.cmd k = some c → ∃ d, t.cmd k = some d ∧ (d = c ∨ d.phase = .stopping)) ∧ t.tiles = s.tiles ∧ s.SameMem t ∧
         s.SameTables t)))

/-- Pre-emption (13 R423-R434): a stopping command that is quiescent drains, is saved and gives its units up, is restored and runs on; a failure
met while it drains, or DISCARD, ends it instead. PREEMPT stops the commands of its queues, which its dispatch suspended, and ends when all are
saved or done; RESUME ends the suspension. -/
def Obligations.Preemption : Prop :=
  ∀ s : State, s.live = true →
    (∀ tok c, s.cmd tok = some c →
      (c.phase = .stopping → c.stop = none → s.quiescent c = true → ∃ t, exec (.quiescentPoint tok) s = .next t ∧
        t.cmd tok = some { c with phase := .draining, readyAt := s.itNow, waitedFor := 0 } ∧ s.SameOthers t tok ∧ s.Counted64 t 0x20028 1 ∧
        { t with cmds := s.cmds, sch := s.sch, regs := s.regs } = s) ∧
      (c.phase = .draining → c.remotes = 0 → c.drainFail = false ∨ c.rfail = none → c.discard = false → ∃ t, exec (.drainEnd tok) s = .next t ∧
        t.cmd tok = some { c with phase := .saving } ∧ s.SameOthers t tok ∧ { t with cmds := s.cmds, sch := s.sch } = s) ∧
      (∀ st d, c.phase = .draining → c.remotes = 0 → c.rfail = some (st, d) → c.drainFail = true → st ≠ 0x4002 → st ≠ 0x1002 → c.run = none →
        c.fork = none → ∃ t e, exec (.drainEnd tok) s = .next t ∧ t.cmd tok = some e ∧ e.phase = .ended ∧ e.status = st ∧ e.detail = d ∧ s.SameOthers t tok ∧
        (∀ u ∈ t.sch.units, u.tok ≠ tok) ∧ { t with cmds := s.cmds, sch := s.sch } = s) ∧
      (c.phase = .draining → c.remotes = 0 → c.rfail = none → c.discard = true → c.preBy = 0 → c.begun = true → c.run = none →
        c.rtc = none → c.fork = none → c.movesGranules = false → ∃ t e, exec (.drainEnd tok) s = .next t ∧ t.cmd tok = some e ∧
        e.phase = .ended ∧ e.status = 0x6001 ∧ s.SameOthers t tok ∧ (∀ u ∈ t.sch.units, u.tok ≠ tok) ∧
        { t with cmds := s.cmds, sch := s.sch } = s) ∧
      (c.phase = .saving → c.preBy = 0 → c.discard = false → ∃ t e, exec (.contextSaveDone tok) s = .next t ∧ t.cmd tok = some e ∧ e.phase = .saved ∧
        s.SameOthers t tok ∧ (∀ u ∈ t.sch.units, u.tok = tok → u.held = false) ∧
        (∀ k, k ∈ c.physTiles → (t.tile k).st ≠ .running ∧ (t.tile k).st ≠ .replaying) ∧
        { t with cmds := s.cmds, sch := s.sch, tiles := s.tiles, links := s.links } = s) ∧
      (c.phase = .restoring → c.savedPal = [] → c.preNext = false → ∃ t e, exec (.contextRestoreDone tok) s = .next t ∧ t.cmd tok = some e ∧
        e.phase = .running ∧ e.preBy = 0 ∧ s.SameOthers t tok ∧
        { t with cmds := s.cmds, sch := s.sch, links := s.links, regs := s.regs } = s)) ∧
    (∀ tok c, s.Begins tok 0x0600 c → ∀ (i : Instr) (b : Bool), (i, b) ∈ [(Instr.preempt tok, false), (.preemptDiscard tok, true)] →
      c.flag 0 = b →
      (c.f 0x44 7 0 = 0 → exec i s = .next (s.endedAt tok 0x0101 0)) ∧
      (c.f 0x44 7 0 ≠ 0 → (∀ d ∈ s.cmds, d.phase ≠ .saved ∧ (d.phase = .dispatched → d.begun = false)) → ∃ t d, exec i s = .next t ∧ t.cmd tok = some d ∧ d.phase = .running ∧ d.targets = s.preTargets c.maskQueues b ∧
        t.queues = s.queues ∧
        (∀ k e, s.preTargets c.maskQueues b = [k] → s.cmd k = some e → (∀ d ∈ s.cmds, d.tok = k → d = e) → e.phase = .running →
          s.hasPoint e = true → s.saveTaken k = false → ∃ f, t.cmd k = some f ∧ f.phase = .stopping ∧ f.discard = b))) ∧
    (∀ tok c, s.Runs tok c → c.op = 0x0600 → s.preDone c = true → ∀ (i : Instr) (b : Bool),
      (i, b) ∈ [(Instr.preempt tok, false), (.preemptDiscard tok, true)] → c.flag 0 = b → s.mayBegin tok 0x0600 = none → ∃ t d,
      exec i s = .next t ∧ t.cmd tok = some d ∧ d.phase = .ended ∧ d.status = 0 ∧ d.detail = c.total ∧ s.SameOthers t tok ∧
      { t with cmds := s.cmds } = s) ∧
    (∀ tok c, s.Begins tok 0x0601 c →
      ((∀ q ∈ c.maskQueues, (s.queue q).suspended = false) → exec (.resume tok) s = .next (s.endedAt tok 0x0101 0)) ∧
      ((∃ q ∈ c.maskQueues, (s.queue q).suspended = true) → ∃ t d, exec (.resume tok) s = .next t ∧ t.cmd tok = some d ∧ d.phase = .ended ∧
        d.status = 0 ∧ (∀ q ∈ c.maskQueues, (t.queue q).suspended = false) ∧ (∀ q, q ∉ c.maskQueues → t.queue q = s.queue q) ∧
        { t with cmds := s.cmds, queues := s.queues, sch := s.sch } = s))

/-! ## Scenes and streams (01) -/

/-- CLOSE of a scene that still holds any stream in a state other than FREE completes with SCENE_BUSY and changes nothing (01 R14). -/
def Obligations.CloseSceneBusy : Prop :=
  ∀ (s : State) (tok : Nat) (c : Cmd) (k : Nat), s.Begins tok 0x0206 c → c.flag 0 = true → (s.scene (c.f 0x40 4 0)).isSome = true →
    (s.strm k).st ≠ .free → (s.strm k).scene = c.f 0x40 4 0 → exec (.closeScene tok) s = .next (s.endedAt tok 0x2006 0)

/-- Scenes and streams open, park and close (01 R12-R14, R25, R26, R43, R44): SCENE_OPEN that passes its checks puts the scene it describes into
its slot; STREAM_OPEN makes a FREE identifier a READY stream of the scene at position 0; PARK and its RELEASE move between READY and PARKED;
CLOSE makes the stream FREE and no stream names it as its parent; CLOSE of an empty scene frees its slot. Each says why it refuses. -/
def Obligations.ScenesAndStreams : Prop :=
  ∀ (s : State) (tok : Nat) (c : Cmd),
    (s.Begins tok 0x0200 c →
      ((s.scene (c.f 0x40 4 0)).isSome = true → exec (.sceneOpen tok) s = .next (s.endedAt tok 0x2006 0)) ∧
      (s.scene (c.f 0x40 4 0) = none → s.programFor c (c.f 0x40 31 16) = none →
        exec (.sceneOpen tok) s = .next (s.endedAt tok 0x1003 (reject 0 0x13))) ∧
      (∀ p, s.scene (c.f 0x40 4 0) = none → s.programFor c (c.f 0x40 31 16) = some p → c.f 0x40 4 0 < 24 →
        (1 ≤ c.f 0x44 8 0 ∧ c.f 0x44 8 0 ≤ 256) → (1 ≤ c.f 0x44 24 16 ∧ c.f 0x44 24 16 ≤ 256) →
        (1 ≤ c.f 0x48 14 0 ∧ c.f 0x48 14 0 ≤ 16384) → c.q 0x50 % 4096 = 0 → c.f 0x48 14 0 * 2 * p.image.sBytes ≤ c.q 0x58 →
        s.scenes.foldl (fun n e => n + e.2.elim 0 (·.maxStreams)) 0 + c.f 0x48 14 0 ≤ 16384 →
        p.image.missingEntry = none → p.image.badChunk (c.f 0x44 8 0 * c.f 0x44 24 16) = none →
        s.badAttention p (c.f 0x44 8 0 * c.f 0x44 24 16) = none → ∃ t : State, exec (.sceneOpen tok) s = .next (t.endedAt tok 0 0) ∧
        t.scene (c.f 0x40 4 0) = some { program := c.f 0x40 31 16, rows := c.f 0x44 8 0, cols := c.f 0x44 24 16
                                        maxStreams := c.f 0x48 14 0, stateBase := c.q 0x50, stateBytes := c.q 0x58
                                        condBase := c.q 0x60, condBytes := c.q 0x68, pageSync := c.f 0x48 29 16
                                        defQuota := c.f 0x4C 23 0 } ∧
        (∀ i, i ≠ c.f 0x40 4 0 → t.scene i = s.scene i) ∧ { t with scenes := s.scenes } = s)) ∧
    (s.Begins tok 0x0201 c →
      (s.scene (c.f 0x40 4 0) = none → exec (.streamOpen tok) s = .next (s.endedAt tok 0x2007 0)) ∧
      (∀ x, s.scene (c.f 0x40 4 0) = some x →
        (c.stream ≠ 0xFFFF → s.idFree c.stream = false → exec (.streamOpen tok) s = .next (s.endedAt tok 0x2005 0)) ∧
        (c.stream = 0xFFFF ∨ s.idFree c.stream = true → x.maxStreams ≤ (s.slotsUsed (c.f 0x40 4 0)).length →
          exec (.streamOpen tok) s = .next (s.endedAt tok 0x2004 0)) ∧
        (∀ i p u, (c.stream = 0xFFFF ∧ (s.freeIds 1)[0]? = some i ∨ c.stream ≠ 0xFFFF ∧ c.stream = i ∧ s.idFree i = true) →
          (s.slotsUsed (c.f 0x40 4 0)).length < x.maxStreams → s.sceneProg x = some p →
          s.openStream i (c.f 0x40 4 0) x p (if c.flag 0 then c.f 0x44 23 0 else x.defQuota) = .ok u → ∃ n,
          exec (.streamOpen tok) s = .next (u.updCmd tok fun d => { d.endedNow u 0 0 with recStream := i }) ∧
          u.strm i = { commitSeq := n, st := .ready, quota := if c.flag 0 then c.f 0x44 23 0 else x.defQuota, rootPage := rootOf i
                       scene := c.f 0x40 4 0, stateSlot := (s.freeSlots (c.f 0x40 4 0) 1).headD 0 }))) ∧
    (s.Begins tok 0x0205 c →
      (c.flag 0 = false →
        ((s.strm c.stream).st = .ready → ∃ t : State, exec (.park tok) s = .next (t.endedAt tok 0 0) ∧
          t.strm c.stream = { s.strm c.stream with st := .parked, parkReason := 1, commitSeq := ((s.strm c.stream).commitSeq + 1) % 256 } ∧
          (∀ k, k ≠ c.stream → t.strm k = s.strm k) ∧ { t with streams := s.streams } = s) ∧
        ((s.strm c.stream).st = .parked → exec (.park tok) s = .next (s.endedAt tok 0x0101 0)) ∧
        ((s.strm c.stream).st = .free → exec (.park tok) s = .next (s.endedAt tok 0x2005 0))) ∧
      (c.flag 0 = true →
        ((s.strm c.stream).st = .parked → (s.strm c.stream).parkReason ≠ 4 → ∃ t : State, exec (.parkRelease tok) s = .next (t.endedAt tok 0 0) ∧
          t.strm c.stream = { s.strm c.stream with st := .ready, parkReason := 0, commitSeq := ((s.strm c.stream).commitSeq + 1) % 256 } ∧
          (∀ k, k ≠ c.stream → t.strm k = s.strm k) ∧ { t with streams := s.streams } = s) ∧
        ((s.strm c.stream).st = .ready → exec (.parkRelease tok) s = .next (s.endedAt tok 0x0101 0)) ∧
        ((s.strm c.stream).st = .parked ∧ (s.strm c.stream).parkReason = 4 ∨ (s.strm c.stream).st = .free →
          exec (.parkRelease tok) s = .next (s.endedAt tok 0x2005 0)))) ∧
    (s.Begins tok 0x0206 c →
      (c.flag 0 = false →
        ((s.strm c.stream).st = .free → exec (.close tok) s = .next (s.endedAt tok 0x2005 0)) ∧
        (∀ u, (s.strm c.stream).st ≠ .free →
          (if s.poolActive then (s.showSt c.stream .closing 0).closeDir c.stream else .ok (s.showSt c.stream .closing 0)) = .ok u → ∃ (t : State) (n : Nat),
          exec (.close tok) s = .next (t.endedAt tok 0 0) ∧ t.strm c.stream = { commitSeq := n } ∧
          (∀ k, (u.strm k).hasParent = true → (u.strm k).parent = c.stream → (t.strm k).hasParent = false) ∧
          { t with streams := u.streams } = u)) ∧
      (c.flag 0 = true →
        (s.scene (c.f 0x40 4 0) = none → exec (.closeScene tok) s = .next (s.endedAt tok 0x2007 0)) ∧
        ((s.scene (c.f 0x40 4 0)).isSome = true → s.slotsUsed (c.f 0x40 4 0) = [] →
          SMap.get (fun _ => none) s.ingest (c.f 0x40 4 0) = none → ∃ t : State, exec (.closeScene tok) s = .next (t.endedAt tok 0 0) ∧
          t.scene (c.f 0x40 4 0) = none ∧ (∀ i, i ≠ c.f 0x40 4 0 → t.scene i = s.scene i) ∧ { t with scenes := s.scenes } = s)))

/-- FORK, STEP, INGEST_SEQ and the ends of their work (01 R27-R37, 12 R395): FORK whose reservation is made leaves its parent FORKING and copies;
its commit opens the children READY at the parent's position and gives the parent its state back. STEP and INGEST_SEQ that pass their checks
begin their streams' work, whose positions stand until each stream's commit adds what it processed. -/
def Obligations.StreamWork : Prop :=
  ∀ (s : State) (tok : Nat) (c : Cmd),
    (s.Begins tok 0x0202 c →
      ((s.strm c.stream).st = .free → exec (.fork tok) s = .next (s.endedAt tok 0x2005 0)) ∧
      (∀ sc p ts (u : State), (let n := c.f 0x40 8 0
          let children := if c.flag 0 then s.freeIds n else c.targets
          let quota := if c.flag 1 then c.f 0x44 23 0 else (s.strm c.stream).quota
          (s.strm c.stream).st = .ready ∨ (s.strm c.stream).st = .parked ∧ (s.strm c.stream).parkReason ≠ 4 →
          s.streamProg c.stream = some (sc, p) → (s.freeIds n).length = n → (s.slotsUsed (s.strm c.stream).scene).length + n ≤ sc.maxStreams →
          (∀ i ∈ children, s.idFree i = true) → children.eraseDups.length = children.length →
          (if s.poolActive then s.tailsOf (p.layers sc.f) c.stream else .ok (s, [])) = .ok ts → quota = 0 ∨ ts.2.length ≤ quota →
          n * ts.2.length ≤ ts.1.poolFree →
          ts.1.beginFork c sc p children (ts.1.freeSlots (s.strm c.stream).scene n) quota ts.2 = .ok u →
          exec (.fork tok) s = .next u ∧ (u.strm c.stream).st = .forking ∧ (u.strm c.stream).pos = (s.strm c.stream).pos ∧ ∃ d w,
            u.cmd tok = some d ∧ d.phase = .running ∧ d.fork = some w ∧ w.parent = c.stream ∧ w.prior = (s.strm c.stream).st ∧
            w.children = children ∧ w.quota = quota))) ∧
    (∀ (w : ForkWork) (v u : State), s.Runs tok c → c.fork = some w → c.pieces = [] →
      (if c.flag 0 then s.wr (locH (c.q 0x48)) (w.children.flatMap fun i => leBytes 2 i) else .ok s) = .ok v → v.commitFork w = .ok u →
      exec (.forkCommit tok) s = .next ((u.updCmd tok fun d => { d with fork := none }).endCmdS tok 0 0 w.parent) ∧
      (u.strm w.parent).st = w.prior ∧
      (v.poolActive = false → w.parent ∉ w.children → w.slots.length = w.children.length → ∀ i ∈ w.children,
        (u.strm i).st = .ready ∧ (u.strm i).pos = (v.strm w.parent).pos ∧ (u.strm i).scene = (v.strm w.parent).scene ∧
        (u.strm i).hasParent = true ∧ (u.strm i).parent = w.parent ∧ (u.strm i).quota = w.quota)) ∧
    (∀ h : Hazard, notAtHub h → s.portHeld (srcHub 0) = false → s.Begins tok 0x0203 c →
      (c.stageBase % mib2 ≠ 0 → c.f 0x40 12 0 = 0 → ∃ (t : State) (d : Cmd), exec (.step ⟨tok, h⟩) s = .next t ∧ t.cmd tok = some d ∧ d.phase = .ended ∧
        d.status = 0x1001 ∧ d.detail = 0x68 ∧ { t with cmds := s.cmds } = s) ∧
      (∀ i sc p (u : State), c.stageBase % mib2 = 0 →
        (c.items.map fun e => e.headD 0xFFFF).find? (fun i => decide (i < 16384) && (s.strm i).st != .free) = some i →
        s.streamProg i = some (sc, p) →
        p.image.badBinding 2 (c.stepBuf sc (max 1 (c.f 0x40 12 0))) = none → s.blockedTile (p.needed ((p.image.firstEntry 1).getD 0)) = none →
        s.launch c sc (s.strm i).scene p ((p.image.firstEntry 1).getD 0) 1 sc.f c.items c.syncs
          (p.bufs 2 (c.stepBuf sc (max 1 (c.f 0x40 12 0)))) h = .ok u → exec (.step ⟨tok, h⟩) s = .next u)) ∧
    (∀ h : Hazard, notAtHub h → s.portHeld (srcHub 0) = false → s.Begins tok 0x0204 c →
      (c.stageBase % mib2 ≠ 0 → exec (.ingestSeq ⟨tok, h⟩) s = .next (s.endedAt tok 0x1001 0x68)) ∧
      (c.stageBase % mib2 = 0 → (s.strm c.stream).st = .parked → exec (.ingestSeq ⟨tok, h⟩) s = .next (s.endedAt tok 0x2002 0)) ∧
      (∀ sc p (u : State), c.stageBase % mib2 = 0 → (s.strm c.stream).st = .ready → s.streamProg c.stream = some (sc, p) →
        1 ≤ c.w 0x40 → c.w 0x40 ≤ 2 ^ 20 → c.w 0x40 % sc.f = 0 →
        p.image.badBinding 2 (c.stepBuf sc 1) = none → s.blockedTile (p.needed ((p.image.firstEntry 2).getD 0)) = none →
        s.launch c sc (s.strm c.stream).scene p ((p.image.firstEntry 2).getD 0) 2 (c.w 0x40) [[c.stream, 0, 0]] c.syncs
          (p.bufs 2 (c.stepBuf sc 1)) h = .ok u → exec (.ingestSeq ⟨tok, h⟩) s = .next u)) ∧
    (∀ sc scIdx p entry syncs binds i h u, s.cmd tok = some c → c.tok = tok → i < 16384 → (s.strm i).st = .ready →
      (s.strm i).scene = scIdx → ((s.strm i).quota = 0 ∨ (s.strm i).pagesOwn ≤ (s.strm i).quota) → (s.strm i).pos + sc.f < 2 ^ 64 → p.layers sc.f = [] → p.image.rowsOver entry sc.f = none →
      p.image.boundsUsed entry = [] → c.f 0x40 12 0 ≤ 1 → 0 < c.w 0x44 →
      s.launch c sc scIdx p entry 1 sc.f [[i, 0, 0]] syncs binds h = .ok u →
      (u.strm i).pos = (s.strm i).pos ∧ ((u.strm i).st = .stepping ∧ (∃ d, u.cmd tok = some d ∧ d.phase = .running ∧
        d.run.isSome = true ∧ d.pieces ≠ []) ∨ (u.strm i).st = .ready ∧ ∃ d, u.cmd tok = some d ∧ d.phase = .ended)) ∧
    (∀ idx r x p (u : State), s.Runs tok c → c.run = some r → r.scattering = true → c.pieces = [] → c.rfail = none →
      (r.streams.find? fun x => x.listIdx == idx && x.passed && !x.committed && x.status == 0) = some x → s.runProg r = some p →
      s.commitStream tok (p.layers r.frame) r.frame (r.q c) x = .ok u → exec (.streamCommit tok idx) s = .next (u.tryEndStep tok) ∧ (u.strm x.stream).st = .ready ∧ (u.strm x.stream).pos = x.p0 + r.q c ∧
      (u.strm x.stream).bucket = bucketOf (contextOf (p.layers r.frame) r.frame (x.p0 + r.q c)) ∧
      (s.poolActive = false → (u.strm x.stream).half = 1 - (s.strm x.stream).half ∧ ∀ k, k ≠ x.stream → u.strm k = s.strm k))

/-! ## Programs and images (05, 15) -/

/-- LOAD_PROGRAM, RUN, UNLOAD_PROGRAM, CHECKPOINT and RESTORE (05 R141-R144, R159, R168-R172, 15 R487-R492): a load that its checks and its
placement admit copies its palette contents by the movers, then gives the lowest free slot a program of the next generation, and its handle; RUN starts an entry of kind 0 after its checks;
UNLOAD_PROGRAM of a program that no open scene names empties its slot and its reservations; CHECKPOINT clears the image's header and captures,
and counts when all of it has been written; RESTORE with CHECK_ONLY, or with an image that fails a
check, ends there with its status, and a good one is counted. -/
def Obligations.ProgramsAndImages : Prop :=
  ∀ (s : State) (tok : Nat) (c : Cmd),
    (s.Begins tok 0x0100 c → ∀ x, s.loadIn c = .ok x →
      (∀ e, x.2.refusal (c.w 0x48) = some e → exec (.loadProgram tok) s = .next (x.1.endedAt tok 0x1003 (reject e.2 e.1))) ∧
      (∀ slot, x.2.refusal (c.w 0x48) = none → x.1.freeSlot = some slot →
        (∀ d, x.1.place x.2.im (c.flag 0) = .error d → exec (.loadProgram tok) s = .next (x.1.endedAt tok 0x1004 d)) ∧
        (∀ w, x.1.place x.2.im (c.flag 0) = .ok w → ∃ p : Program, p.image = x.2.im ∧ p.map = w.map ∧ p.palBase = w.palBase ∧
          p.groupPanel = w.panel ∧ p.shrBase = w.shrBase ∧ p.statics = c.bufs ∧
          (let v := ((((x.1.zeroProgram p).copyCode p).begin_ tok).updCmd tok fun d => { d with load := some (slot, p) })
           (p.palInits ≠ [] → ∃ t : State, exec (.loadProgram tok) s = .next t ∧ (∃ l, t.sch.units = v.sch.units ++ l ∧
              l.length = min 16 p.palInits.length ∧ ∀ u ∈ l, u.tok = tok ∧ u.kind = 6 ∧ u.held = false) ∧
            t.cmds = (v.updCmd tok fun d => { d with pieces := p.palInits, total := p.palInits.length }).cmds ∧
            { t with cmds := v.cmds, sch := v.sch } = v) ∧
           (∀ u d, p.palInits = [] → v.wr (locH (c.q 0x58)) (((List.range 64).map fun i => w.map.getD i 0xFF).flatMap (leBytes 1)) = .ok u →
            u.cmd tok = some d → d.load = some (slot, p) → (∀ e ∈ u.cmds, e.tok = tok → e = d) → ∃ t : State,
            exec (.loadProgram tok) s = .next t ∧ t.cmd tok = some { d with
              load := none, phase := .ended, status := 0, detail := slot + 64 * nextGen (u.pslot slot).gen, itDone := u.itNow } ∧
            t.pslot slot = { gen := nextGen (u.pslot slot).gen, prog := some p } ∧ (∀ k, k ≠ slot → t.pslot k = u.pslot k) ∧
            u.SameOthers t tok ∧ { t with progs := u.progs, cmds := u.cmds } = u))))) ∧
    (∀ h : Hazard, notAtHub h → s.portHeld (srcHub 0) = false → s.Begins tok 0x0101 c →
      (s.programFor c (c.f 0x40 15 0) = none → exec (.run ⟨tok, h⟩) s = .next (s.endedAt tok 0x1003 (reject 0 0x13))) ∧
      (∀ p, s.programFor c (c.f 0x40 15 0) = some p →
        (p.image.entries[c.f 0x40 23 16]?.map (·.kind) ≠ some 0 →
          exec (.run ⟨tok, h⟩) s = .next (s.endedAt tok 0x1003 (reject (c.f 0x40 23 16) 0x11))) ∧
        (p.image.entries[c.f 0x40 23 16]?.map (·.kind) = some 0 →
          (∀ b, p.image.badBinding 1 (fun i => c.bufs[i]?) = some b →
            exec (.run ⟨tok, h⟩) s = .next (s.endedAt tok 0x1003 (reject b 0x12))) ∧
          (∀ k, p.image.badBinding 1 (fun i => c.bufs[i]?) = none → s.blockedTile (p.needed (c.f 0x40 23 16)) = some k →
            exec (.run ⟨tok, h⟩) s = .next (s.endedAt tok 0x4003 k)) ∧
          (∀ b, p.image.badBinding 1 (fun i => c.bufs[i]?) = none → s.blockedTile (p.needed (c.f 0x40 23 16)) = none →
            s.startBounds { p := p, binds := p.bufs 1 fun i => c.bufs[i]? } c.words 0 (c.f 0x40 23 16) h = .ok b → ∃ r : ProgRun,
            r.handle = c.f 0x40 15 0 ∧ r.entry = c.f 0x40 23 16 ∧ r.kind = 0 ∧ r.syncs = c.syncs ∧ r.bounds = b.2 ∧ r.started = false ∧
            exec (.run ⟨tok, h⟩) s = .next ((((b.1.begin_ tok).updCmd tok fun d => { d with run := some r }).startProgram tok).tryFinish tok))))) ∧
    (s.Begins tok 0x0102 c →
      (s.program (c.f 0x40 15 0) = none → exec (.unloadProgram tok) s = .next (s.endedAt tok 0x1003 (reject 0 0x13))) ∧
      (∀ p, s.program (c.f 0x40 15 0) = some p →
        ((∃ e ∈ s.scenes, ∃ x, e.2 = some x ∧ x.program = c.f 0x40 15 0) →
          exec (.unloadProgram tok) s = .next (s.endedAt tok 0x1003 (reject 0 0x14))) ∧
        ((∀ e ∈ s.scenes, ∀ x, e.2 = some x → x.program ≠ c.f 0x40 15 0) → ∃ t : State,
          exec (.unloadProgram tok) s = .next (t.endedAt tok 0 0) ∧ (t.pslot (c.f 0x40 15 0 % 64)).prog = none ∧
          (t.pslot (c.f 0x40 15 0 % 64)).gen = (s.pslot (c.f 0x40 15 0 % 64)).gen ∧
          (∀ k, k ≠ c.f 0x40 15 0 % 64 → t.pslot k = s.pslot k) ∧
          (∀ i l, p.image.ltiles[i]? = some l → ∀ n, n < l.resvBytes →
            SMap.get (fun _ => 0) t.pal (palBytes * p.phys i + p.palBase.getD i 0 + n) = 0) ∧
          { t with progs := s.progs, pal := s.pal, shr := s.shr } = s))) ∧
    (s.Begins tok 0x0800 c →
      (s.scene (c.f 0x40 4 0) = none → exec (.checkpoint tok) s = .next (s.endedAt tok 0x2007 0)) ∧
      (∀ sc p, s.scene (c.f 0x40 4 0) = some sc → s.sceneProg sc = some p →
        (let ss := if c.f 0x44 14 0 = 0 then s.sceneStreams (c.f 0x40 4 0) else c.targets
         ((∃ j ∈ ss, (s.strm j).st = .free ∨ (s.strm j).scene ≠ c.f 0x40 4 0 ∨ 16384 ≤ j) →
            exec (.checkpoint tok) s = .next (s.endedAt tok 0x2005 0)) ∧
         (∀ ps u, repeats ss = false → (∀ j ∈ ss, (s.strm j).st ≠ .free ∧ (s.strm j).scene = c.f 0x40 4 0 ∧ j < 16384) →
            c.q 0x50 % mib2 = 0 → s.allPages ss = .ok ps → imageSize ps.1.pool p.image.sBytes ss.length ps.2.length ≤ c.q 0x58 →
            (ps.1.begin_ tok).wr (.dva (c.q 0x50)) (List.replicate 64 0) = .ok u →
            exec (.checkpoint tok) s = .next (u.updCmd tok fun d => { d with targets := [], ck := some { todo := ss } }))))) ∧
    (∀ w, s.Runs tok c → c.phase = .running → s.mayBegin tok 0x0800 = none → c.ck = some w → (s.scene (c.f 0x40 4 0)).isSome = true →
      (∀ sc, s.scene (c.f 0x40 4 0) = some sc → (s.sceneProg sc).isSome = true) → w.todo = [] → w.written = true → w.send = [] →
      w.header = [] → c.remotes = 0 → c.targets = [] → c.rfail = none → c.status = 0 → ∃ (t : State) (d : Cmd),
      exec (.checkpoint tok) s = .next t ∧ t.cmd tok = some d ∧ d.phase = .ended ∧ d.status = 0 ∧ d.ck = none ∧ s.Counted t 0x260044 1 ∧
      s.OnlyRegs t [0x260044] ∧ s.SameOthers t tok ∧ { t with cmds := s.cmds, regs := s.regs } = s) ∧
    (s.Begins tok 0x0801 c → ∀ u,
      (∀ e, s.readImage c = .ok (u, .error e) → e.1 ≠ 0x4002 → exec (.restore tok) s = .next (u.endedAt tok e.1 e.2)) ∧
      (∀ cs, s.readImage c = .ok (u, .ok cs) →
        (c.flag 0 = true → exec (.restore tok) s = .next (u.endedAt tok 0 0)) ∧
        (c.flag 0 = false →
          (∀ e, u.restoreBad c cs = some e → exec (.restore tok) s = .next (u.endedAt tok e.1 e.2)) ∧
          (∀ v, u.restoreBad c cs = none → u.restore c cs = .ok v → ∃ t : State, exec (.restore tok) s = .next (t.endedAt tok 0 0) ∧
            v.Counted t 0x260048 1 ∧ v.OnlyRegs t [0x260048] ∧ { t with regs := v.regs } = v))))

/-! ## Movement (11, 19) -/

/-- COPY, DMA_PIECE, PREFETCH_WINDOW, SELF_TEST and MARGIN (11 R346-R349, 19 R570, R575): a command whose checks pass begins with its pieces on at
most 16 movers; each piece moves its bytes, counts them, and the last one ends the command. SELF_TEST and MARGIN with an empty mask are OK_NOOP; with another,
each named tile that is QUARANTINED and each named port that is up starts, each that is not is refused, and each that is BUSY is waited for. -/
def Obligations.Movement : Prop :=
  ∀ (s : State) (tok : Nat) (c : Cmd),
    (let starts (t : State) (ps : List Piece) : Prop :=
       t.cmd tok = some { c with phase := .running, begun := true, profile := s.profile, pieces := ps, total := ps.length } ∧
       s.SameOthers t tok ∧ (∃ l, t.sch.units = s.sch.units ++ l ∧ l.length = min 16 ps.length ∧
         ∀ u ∈ l, u.tok = tok ∧ u.kind = 6 ∧ u.held = false) ∧ { t with cmds := s.cmds, sch := s.sch } = s
     (s.Begins tok 0x0300 c →
       (c.copyCvt = 0 →
         (∀ e, s.plainChecks c = .error e → e.1 ≠ 0x4002 → exec (.copy tok) s = .next (s.endedAt tok e.1 e.2)) ∧
         (∀ a b, s.plainChecks c = .ok (a, b) → c.checkMode = 0 →
           (c.q 0x60 = 0 → exec (.copy tok) s = .next (s.endedAt tok 0 0)) ∧
           (0 < c.q 0x60 → ∃ t : State, exec (.copy tok) s = .next t ∧
             starts t (piecesOf (if b.remote.isSome then 11 else 1) 0 a.loc b.loc (c.q 0x60) none))) ∧
         (∀ a b, s.plainChecks c = .ok (a, b) → c.checkMode ≠ 0 → ∃ (t : State) (d : Cmd), exec (.copy tok) s = .next t ∧ t.cmd tok = some d ∧
           d.phase = .running ∧ d.pieces ≠ [] ∧ d.crcRun = (if c.f 0x68 25 25 = 1 then c.q 0x70 else c.checkAlg.init) ∧
           ∃ u ∈ t.sch.units, u.tok = tok ∧ u.kind = 9 ∧ u.entry = checkGroup a b)) ∧
       (c.copyCvt ≠ 0 →
         (∀ e, State.convChecks c = .error e → e.1 ≠ 0x4002 → exec (.copy tok) s = .next (s.endedAt tok e.1 e.2)) ∧
         (∀ r, State.convChecks c = .ok r → 0 < c.q 0x60 → ∃ t : State, exec (.copy tok) s = .next t ∧
           starts t (convPieces (locH (c.q 0x40)) (locH (c.q 0x50)) (c.q 0x60))))) ∧
     (s.Begins tok 0x0303 c →
       (∀ e, s.windowPieces c 0 c.items = .error e → e.1 ≠ 0x4002 → exec (.prefetchWindow tok) s = .next (s.endedAt tok e.1 e.2)) ∧
       (∀ ps, s.windowPieces c 0 c.items = .ok ps → ∃ t : State, exec (.prefetchWindow tok) s = .next t ∧ starts t ps))) ∧
    (∀ (m : Fin 16) u p ps r v, s.Runs tok c → c.phase = .running → c.checkMode = 0 → c.pieces = p :: ps → p.kind = 1 ∨ p.kind = 2 → p.sig = none →
      s.portHeld (srcUnit 6 m.val) = false → (s.sch.units.find? fun u => u.tok == tok && u.kind == 6 && u.held && u.inst == m.val) = some u →
      s.rdCells (p.kind != 2) p.src p.len = .ok r → r.1.wrCells p.dst p.len r.2 = .ok v →
      v.cmd tok = some c → (∀ e ∈ v.cmds, e.tok = tok → e = c) → ∃ (t : State) (d : Cmd),
      exec (.dmaPiece tok m .none) s = .next t ∧ t.cmd tok = some d ∧ d.pieces = ps ∧ v.SameOthers t tok ∧
      t.reg64 (0x15C008 + 0x1000 * m.val) = min (v.reg64 (0x15C008 + 0x1000 * m.val) + p.len) (2 ^ 64 - 1) ∧
      (ps = [] → d.phase = .ended ∧ d.status = c.status ∧ ∀ w ∈ t.sch.units, w.tok ≠ tok) ∧ (ps ≠ [] → d.phase = .running) ∧
      { t with cmds := v.cmds, sch := v.sch, regs := v.regs } = v ∧
      (∀ a b, p.src = .host a → p.dst = .host b → s.hostOk a p.len = true → s.hostOk b p.len = true → Memory.wf s.host →
        CopiedTo t.host s.host b s.host a p.len)) ∧
    (s.Begins tok 0x0700 c →
      (4 < c.f 0x48 3 0 → exec (.selfTest tok) s = .next (s.endedAt tok 0x1001 0)) ∧
      (c.f 0x48 3 0 ≤ 4 → c.q 0x40 = 0 → exec (.selfTest tok) s = .next (s.endedAt tok 0x0101 0)) ∧
      (let named (k : Nat) : Prop := k < 64 ∧ c.q 0x40 / 2 ^ k % 2 = 1
       c.f 0x48 3 0 ≤ 4 → (∃ k, named k ∧ ((s.tile k).st = .quarantined ∨ s.testResult k = 1)) → ∃ (t : State) (d : Cmd),
        exec (.selfTest tok) s = .next t ∧ t.cmd tok = some d ∧ d.phase = .running ∧
        (∀ k, named k → s.testResult k = 1 → k ∈ d.targets) ∧
        (∀ k, named k → s.testResult k ≠ 1 → (s.tile k).st = .quarantined →
          [k] ∈ d.items ∧ t.tile k = { s.tile k with st := .selfTest } ∧ t.testResult k = 1) ∧
        (∀ k, named k → s.testResult k ≠ 1 → (s.tile k).st ≠ .quarantined → t.tile k = s.tile k ∧ t.testResult k = 4) ∧
        (∀ k, ¬named k ∨ s.testResult k = 1 → t.tile k = s.tile k ∧ (k < 64 → t.testResult k = s.testResult k)) ∧
        s.OnlyRegs t ((List.range 64).map fun k => testCtl k + 4) ∧ s.SameOthers t tok ∧
        { t with cmds := s.cmds, regs := s.regs, tiles := s.tiles } = s)) ∧
    (s.Begins tok 0x0701 c →
      (c.f 0x40 11 0 = 0 → exec (.margin tok) s = .next (s.endedAt tok 0x0101 0)) ∧
      (let named (p : Nat) : Prop := p < 12 ∧ c.f 0x40 11 0 / 2 ^ p % 2 = 1
       (∃ p, named p ∧ (s.portUp p = true ∨ s.eyeResult p = 1)) → ∃ (t : State) (d : Cmd),
        exec (.margin tok) s = .next t ∧ t.cmd tok = some d ∧ d.phase = .running ∧
        (∀ p, named p → s.eyeResult p = 1 → ∀ l, l < 4 → 4 * p + l ∈ d.targets) ∧
        (∀ p, named p → s.eyeResult p ≠ 1 → s.portUp p = true →
          [4 * p] ∈ d.items ∧ (∀ l, 1 ≤ l → l < 4 → 4 * p + l ∈ d.targets) ∧ t.eyeResult p = 1) ∧
        (∀ p, named p → s.eyeResult p ≠ 1 → s.portUp p = false → t.eyeResult p = 3) ∧
        (∀ p, p < 12 → ¬named p ∨ s.eyeResult p = 1 → t.eyeResult p = s.eyeResult p) ∧
        s.OnlyRegs t ((List.range 12).map fun p => eyeCtl p + 4) ∧ s.SameOthers t tok ∧
        { t with cmds := s.cmds, regs := s.regs } = s))

/-! ## Retouch (10) -/

/-- UPDATE, ROOT_REFRESH and their work (10 R309-R318): each begins with its blocks on its units; claims are taken one by one in increasing
address order, up to one that another command holds, and kept while the command waits; the check pass admits the blocks or ends the command with
the first failure's index, and gives up its claims; each chunk's elements are counted; a refresh goes from its checks to its snapshot, iterates
each root, and flips it. -/
def Obligations.RetouchWork : Prop :=
  ∀ (s : State) (tok : Nat) (c : Cmd),
    (let starts (t : State) (n : Nat) : Prop :=
       t.cmd tok = some { c with phase := .running, begun := true, profile := s.profile, rtc := some { blocks := blocksOf c.items } } ∧
       s.SameOthers t tok ∧ (∃ l, t.sch.units = s.sch.units ++ l ∧ l.length = n ∧ ∀ u ∈ l, u.tok = tok ∧ u.kind = 5 ∧ u.held = false) ∧
       { t with cmds := s.cmds, sch := s.sch } = s
     (s.Begins tok 0x0400 c → ∃ t : State, exec (.update tok) s = .next t ∧ starts t (min 4 c.items.length)) ∧
     (s.Begins tok 0x0401 c → ∃ t : State, exec (.rootRefresh tok) s = .next t ∧ starts t 1)) ∧
    (∀ w i, s.rtcWork tok 0x0400 = some (c, w) → s.rtcInst tok = some i →
      (w.claimed = false →
        (let addrs := w.blocks.map (·.addr)
         (s.claims.length + addrs.length ≤ 16384 → ∃ t : State, exec (.retouchClaim tok) s = .next t ∧ s.claims <+: t.claims ∧
           (∀ e ∈ t.claims, e ∈ s.claims ∨ e.2 = tok ∧ e.1 ∈ addrs ∧ ∀ b ∈ addrs, s.claimedElse tok b = true → e.1 < b) ∧
           (∀ a ∈ addrs, (∀ b ∈ addrs, s.claimedElse tok b = true → a < b) → (a, tok) ∈ t.claims) ∧
           ((∀ a ∈ addrs, s.claimedElse tok a = false) → t.cmd tok = some { c with rtc := some { w with claimed := true } }) ∧
           ((∃ a ∈ addrs, s.claimedElse tok a = true ∧ (a, tok) ∉ s.claims) → t.cmds = s.cmds) ∧ s.SameOthers t tok ∧
           { t with cmds := s.cmds, claims := s.claims } = s) ∧
         (16384 ≤ s.claims.length → (∃ a ∈ addrs, (a, tok) ∉ s.claims) → exec (.retouchClaim tok) s = .next s))) ∧
      (w.claimed = true → w.checked = false → s.mayBegin tok 0x0400 = none →
        (let ended (t : State) (st detail : Nat) : Prop := (∀ e ∈ t.claims, e.2 ≠ tok) ∧ (∀ u ∈ t.sch.units, u.tok ≠ tok) ∧
           ∃ d, t.cmd tok = some d ∧ d.phase = .ended ∧ d.status = st ∧ d.detail = detail ∧ d.rtc = none
         (c.q 0x48 = 0 → ∃ t : State, exec (.update tok) s = .next t ∧ ended t 0x1001 0 ∧ s.SameOthers t tok ∧
           { t with cmds := s.cmds, claims := s.claims, sch := s.sch, regs := s.regs } = s) ∧
         (c.q 0x48 ≠ 0 → s.programFor c (c.f 0x40 15 0) = none → ∃ t : State, exec (.update tok) s = .next t ∧ ended t 0x1003 0) ∧
         (∀ p st d, c.q 0x48 ≠ 0 → s.programFor c (c.f 0x40 15 0) = some p → s.rd (locH (c.q 0x58)) 112 = .error (.err st d) →
           (s.noteRead c (srcUnit 5 i) st d).cmd tok = some c → ∃ t : State, exec (.update tok) s = .next t ∧ ended t 0x4002 0) ∧
         (∀ p r q k, c.q 0x48 ≠ 0 → s.programFor c (c.f 0x40 15 0) = some p → s.rd (locH (c.q 0x58)) 112 = .ok r →
           foldE (fun (a : State × List BlockRun) b => (a.1.readDesc b.addr).bind fun q => .ok (q.1, a.2 ++ [{ b with desc := q.2 }]))
             (r.1, []) w.blocks = .ok q → State.checkBlocks p (c.q 0x48) (c.flag 0) q.1 [] q.2 = k →
           (k.2 = none → exec (.update tok) s =
             .next (k.1.updRtc tok fun w => { w with blocks := q.2, scalars := wordsOf 28 r.2, checked := true })) ∧
           (∀ st e, k.2 = some (.ok st, e) → k.1.cmd tok = some c → ∃ t : State,
             exec (.update tok) s = .next t ∧ ended t st e.idx ∧
             (st = 0x3002 → t.sb.nextSeq = k.1.sb.nextSeq + 1) ∧ (st ≠ 0x3002 → t.sb = k.1.sb)))))) ∧
    (∀ w x u p b, s.portHeld (srcUnit 5 u.inst) = false → s.rtcWork tok 0x0400 = some (c, w) → w.checked = true → w.blocks.find? (fun y => y.idx == b) = some x → x.status = none →
      s.blockUnit tok w x = some u → s.program (c.f 0x40 15 0) = some p →
      (let y := { x with started := true, unit := u.entry }
       let s' := s.updBlock tok b fun _ => y
       (∀ v : State, dFlag x.desc 16 = true → s'.consumeFrozen c y u.inst = .ok v →
         exec (.retouchChunk tok b .none) s = .next (v.tryEndRetouch tok)) ∧
       (∀ k r, dFlag x.desc 16 = false → s'.evalCoef x.desc (c.q 0x48) y = .ok k → k.1.runChunk c w p k.2 = .ok r →
         (let n := (elemsOf x.desc x.next).length
          let next := if dFlag x.desc 18 then x.next + 1 else x.next + n
          let last := if dFlag x.desc 18 then decide (dNb x.desc ≤ next) else decide (dRows x.desc * dCols x.desc ≤ next)
          ∃ t : State, r.1.Counted64 t (rtcReg u.inst 8) n ∧ r.1.Counted t (rtcReg u.inst 0x28) r.2.bad ∧
            r.1.Counted t (rtcReg u.inst 0x2C) r.2.sat ∧
            r.1.OnlyRegs t [rtcReg u.inst 8, rtcReg u.inst 0xC, rtcReg u.inst 0x28, rtcReg u.inst 0x2C] ∧
            t.cmds = (r.1.updBlock tok b fun z => { z with next := next, wrote := true, coef := k.2.coef }).cmds ∧
            { t with cmds := r.1.cmds, regs := r.1.regs } = r.1 ∧
            (last = false → exec (.retouchChunk tok b .none) s = .next t) ∧
            (∀ v : State, last = true → t.commitBlock c k.2 u.inst = .ok v → (∀ e ∈ v.claims, e ≠ (x.addr, tok)) ∧
              exec (.retouchChunk tok b .none) s = .next (v.tryEndRetouch tok)))))) ∧
    (∀ w i b, s.rtcWork tok 0x0401 = some (c, w) → s.rtcWork tok 0x0400 = none → s.rtcInst tok = some i → w.blocks[w.cur]? = some b →
      s.mayBegin tok 0x0401 = none →
      (w.stage = .check → ∀ r, s.readDesc b.addr = .ok r →
        (dFlag r.2 18 = false → exec (.rootRefresh tok) s = .next (r.1.nextEntry tok b.idx 0x0101)) ∧
        (∀ v, dFlag r.2 18 = true → c.flag 0 = false ∨ dMark r.2 3 = true → r.1.descInvalid none b.addr r.2 = .ok v →
          (v.2 = true → exec (.rootRefresh tok) s = .next (v.1.nextEntry tok b.idx 0x3003)) ∧
          (v.2 = false → dMark r.2 0 = true → exec (.rootRefresh tok) s = .next (v.1.nextEntry tok b.idx 0x3004)) ∧
          (v.2 = false → dMark r.2 0 = false →
            (dFlag r.2 16 = true → exec (.rootRefresh tok) s = .next (v.1.nextEntry tok b.idx 0x3001)) ∧
            (dFlag r.2 16 = false → 32768 * dNb r.2 ≤ c.q 0x60 →
              exec (.rootRefresh tok) s = .next (v.1.updRtc tok fun w => { w with stage := .claimSnap }))))) ∧
      (∀ u : State, w.stage = .snap → s.refreshSnap c b = .ok u →
        exec (.rootRefresh tok) s = .next u ∧ ∀ e ∈ u.claims, e ≠ (b.addr, tok)) ∧
      (s.claimedElse tok b.addr = false → (b.addr, tok) ∉ s.claims → s.claims.length + 1 ≤ 16384 → w.stage = .claimSnap ∧ s.refreshing tok b.addr = false ∨
          w.stage = .claimFlip → ∃ (t : State) (g : RefreshStage), exec (.retouchClaim tok) s = .next t ∧
        t.claims = s.claims ++ [(b.addr, tok)] ∧ (w.stage = .claimSnap → g = .snap) ∧ (w.stage = .claimFlip → g = .flip) ∧
        t.cmd tok = some { c with rtc := some { w with stage := g } } ∧ s.SameOthers t tok ∧
        { t with cmds := s.cmds, claims := s.claims } = s) ∧
      (w.stage = .compute → ∀ st : State × Mat × Mat,
        (w.x = [] ∧ ∃ f, s.readMat (c.q 0x58 + 32768 * w.sub + 16384 * w.mat) = .ok f ∧
            st = (f.1, newtonStart (eF b.desc 0xC 27 24) (dec32 (eW b.desc 0x7C)) f.2)) ∨
          w.x ≠ [] ∧ st = (s, w.x.map dec32, w.m.map dec32) →
        (let xm := newton (eF b.desc 0xC 27 24) st.2.1 st.2.2
         (w.it + 1 < eF b.desc 0xC 23 16 → exec (.newtonIteration tok) s =
           .next (st.1.updRtc tok fun w => { w with it := w.it + 1, x := xm.1.map enc32, m := xm.2.map enc32 })) ∧
         (∀ u : State, eF b.desc 0xC 23 16 ≤ w.it + 1 → st.1.endRoot c w b i xm.1 xm.2 = .ok u →
           exec (.newtonIteration tok) s = .next u))) ∧
      (w.stage = .flip → ∀ r, s.readDesc b.addr = .ok r →
        (dMark r.2 0 = true → exec (.rootFlip tok) s = .next ((r.1.unclaim tok b.addr).nextEntry tok b.idx 0x3004)) ∧
        (dMark r.2 0 = false → dFlag r.2 16 = true →
          exec (.rootFlip tok) s = .next ((r.1.unclaim tok b.addr).nextEntry tok b.idx 0x3001)) ∧
        (∀ v : State, dMark r.2 0 = false → dFlag r.2 16 = false →
          r.1.wr (.dva (b.addr + 0xC0)) (descLine (eQ r.2 0xC0) w.snap (eQ r.2 0xD0) (eQ r.2 0xD8)
            (marksOf false true (!dMark r.2 2) (dueAt r.2 true w.snap (eQ r.2 0xC0)))) = .ok v → ∃ t : State,
          exec (.rootFlip tok) s = .next ((t.unclaim tok b.addr).nextEntry tok b.idx 0) ∧ v.Counted64 t (rtcReg i 0x38) (dNb r.2) ∧
          { t with regs := v.regs } = v)))

/-! ## Ingest (09) -/

/-- Ingest (09 R275-R290): INGEST_OPEN gives a scene its context after its checks and INGEST_CLOSE takes it away; INGEST_VIDEO, INGEST_STILL and
INGEST_SCAN begin on a unit for a sensor of their KIND; INGEST_SEAL seals and releases slots, SLOT_SEAL seals the lowest one once IT has passed
its end and the guard; each frame and each packet is taken in turn, and the last one ends the command. -/
def Obligations.IngestWork : Prop :=
  ∀ (s : State) (tok : Nat) (c : Cmd),
    (s.Begins tok 0x0500 c →
      (c.w 0x50 < 1000000 ∨ 1000000000 < c.w 0x50 ∨ c.f 0x54 12 0 < 2 ∨ 4096 < c.f 0x54 12 0 ∨ c.w 0x60 % 4096 ≠ 0 ∨ c.f 0x44 5 0 = 0 ∨
          32 < c.f 0x44 5 0 ∨ c.w 0x64 < 2 ∨ 1048576 < c.w 0x64 →
        exec (.ingestOpen tok) s = .next (s.endedAt tok 0x1001 0)) ∧
      (∀ r, 1000000 ≤ c.w 0x50 → c.w 0x50 ≤ 1000000000 → 2 ≤ c.f 0x54 12 0 → c.f 0x54 12 0 ≤ 4096 → c.w 0x60 % 4096 = 0 →
        1 ≤ c.f 0x44 5 0 → c.f 0x44 5 0 ≤ 32 → 2 ≤ c.w 0x64 → c.w 0x64 ≤ 1048576 → s.rd (.dva (c.q 0x68)) (128 * c.f 0x44 5 0) = .ok r →
        (let es := (List.range (c.f 0x44 5 0)).map fun i => wordsOf 32 ((r.2.drop (128 * i)).take 128)
         let xs := es.map Sensor.ofWords
         ((∃ e ∈ es, sensorBad e = true) ∨ sensorsClash (c.w 0x60) xs = true →
           exec (.ingestOpen tok) s = .next (r.1.endedAt tok 0x1001 0)) ∧
         ((∀ e ∈ es, sensorBad e = false) → sensorsClash (c.w 0x60) xs = false →
           ((r.1.ing c.ingScene).isSome = true → exec (.ingestOpen tok) s = .next (r.1.endedAt tok 0x2006 0)) ∧
           (r.1.ing c.ingScene = none → r.1.scene c.ingScene = none → exec (.ingestOpen tok) s = .next (r.1.endedAt tok 0x2007 0)) ∧
           (r.1.ing c.ingScene = none → (r.1.scene c.ingScene).isSome = true → ∃ t : State,
             exec (.ingestOpen tok) s = .next (t.endedAt tok 0 0) ∧
             t.ing c.ingScene = some { epoch := c.q 0x48, period := c.w 0x50, ringBase := c.q 0x58, ringSlots := c.f 0x54 12 0
                                       slotBytes := c.w 0x60, sensors := xs, poseBase := c.q 0x70, poseCount := c.w 0x64
                                       live := c.flag 0, sealSync := c.f 0x44 29 16 } ∧
             (∀ k, k ≠ c.ingScene → t.ing k = r.1.ing k) ∧ { t with ingest := r.1.ingest } = r.1))))) ∧
    (s.Begins tok 0x0501 c → ∃ t : State, exec (.ingestClose tok) s = .next (t.endedAt tok 0 0) ∧ t.ing c.ingScene = none ∧
      (∀ k, k ≠ c.ingScene → t.ing k = s.ing k) ∧ { t with ingest := s.ingest } = s) ∧
    (∀ (i : Instr) (op kind unit : Nat), (i, op, kind, unit) ∈
        [(Instr.ingestVideo tok, 0x0502, 1, 7), (.ingestStill tok, 0x0503, 2, 7), (.ingestScan tok, 0x0504, 3, 8)] → s.Begins tok op c →
      ((∀ x sn, s.ing c.ingScene = some x → x.sensors[c.f 0x40 12 8]? = some sn → sn.kind ≠ kind) →
        exec i s = .next (s.endedAt tok 0x1001 0)) ∧
      (∀ x sn, s.ing c.ingScene = some x → x.sensors[c.f 0x40 12 8]? = some sn → sn.kind = kind →
        (dvaEnd < c.q 0x48 + c.q 0x50 → exec i s = .next (s.endedAt tok 0x1006 0)) ∧
        (c.q 0x48 + c.q 0x50 ≤ dvaEnd → 0 < c.q 0x50 → ∃ (t : State) (u : SUnit), exec i s = .next t ∧
          t.cmd tok = some { c with phase := .running, begun := true, profile := s.profile, targets := [0] } ∧ s.SameOthers t tok ∧
          t.sch.units = s.sch.units ++ [u] ∧ u.tok = tok ∧ u.kind = unit ∧ u.held = false ∧ { t with cmds := s.cmds, sch := s.sch } = s))) ∧
    (∀ x, s.Begins tok 0x0505 c → s.ing c.ingScene = some x →
      (c.flag 0 = false → ∀ (i : Instr), i = .ingestSeal tok ∧ c.flag 1 = false ∨ i = .ingestRelease tok ∧ c.flag 1 = true → ∃ t : State,
        exec i s = .next (t.endedAt tok 0 0) ∧ t.ing c.ingScene = some (if c.flag 1 then x.release (c.q 0x50) else x) ∧
        (∀ k, k ≠ c.ingScene → t.ing k = s.ing k) ∧ { t with ingest := s.ingest } = s) ∧
      (c.flag 0 = true → c.flag 1 = false →
        (x.live = true → exec (.ingestSeal tok) s = .next (s.endedAt tok 0 0)) ∧
        (∀ r q, x.live = false → (s.begin_ tok).ingestBefore c = false →
          State.sealTo c.ingScene (c.q 0x48) (c.q 0x48 + 1 - x.sealedTo) (s.begin_ tok) x = .ok r →
          State.sealTo c.ingScene (c.q 0x48) (c.q 0x48 + 1 - r.2.sealedTo) r.1 r.2 = .ok q →
          exec (.ingestSeal tok) s = .next (if c.q 0x48 < q.2.sealedTo then q.1.endCmd tok 0 0 else q.1)))) ∧
    (∀ (k : Fin 24) it x, s.live = true → s.ing k.val = some x →
      (x.live = false ∨ max s.itNow (it % 2 ^ 64) < x.epoch + (x.sealedTo + 1) * x.period + (s.reg 0x300018).toNat →
        exec (.slotSeal k it) s = .next (s.advance it)) ∧
      (∀ r, x.live = true → x.epoch + (x.sealedTo + 1) * x.period + (s.reg 0x300018).toNat ≤ max s.itNow (it % 2 ^ 64) →
        (s.advance it).sealNext k.val x = .ok r →
        exec (.slotSeal k it) s = .next r.1 ∧ r.1.ing k.val = some r.2 ∧ r.2.sealedTo = x.sealedTo + 1 ∧ r.2.releasedTo = x.releasedTo)) ∧
    (∀ u x i sn used frame r v, s.ingWork tok 7 = some (c, u, x, i, sn) →
      s.rdCells true (.dva (c.q 0x48 + c.targets.headD 0)) (min used (c.q 0x50 - c.targets.headD 0)) = .ok r →
      r.1.takeFrameOf c x i sn ((c.items.getD c.total []).headD 0) (frame.filter fun p => c.decodes p sn) = .ok v → ∃ t : State,
      t = v.updCmd tok (fun d => { d with
        total := d.total + 1
        targets := [c.targets.headD 0 + min used (c.q 0x50 - c.targets.headD 0), if (frame.filter fun p => c.decodes p sn).isNone then 1 else 0] }) ∧
      (c.total + 1 < c.items.length → exec (.videoFrame tok used frame) s = .next t) ∧
      (c.items.length ≤ c.total + 1 → exec (.videoFrame tok used frame) s = .next (t.endIngest tok))) ∧
    (∀ u x i sn, s.ingWork tok 8 = some (c, u, x, i, sn) →
      (c.q 0x50 < c.targets.headD 0 + 32 → ∃ (t : State) (d : Cmd), exec (.scanPacket tok) s = .next t ∧ t.cmd tok = some d ∧
        d.phase = .ended ∧ d.status = (if c.detail = 0 then 0 else 0x0103) ∧ d.detail = c.detail ∧ (∀ w ∈ t.sch.units, w.tok ≠ tok)) ∧
      (∀ h body poses v, (let off := c.targets.headD 0
          let n := cU h.2 6 2
          off + 32 + 16 * n ≤ c.q 0x50 → 1 ≤ n → n ≤ 4096 → s.rdCells true (.dva (c.q 0x48 + off)) 32 = .ok h →
          h.1.rd (.dva (c.q 0x48 + off + 32)) (16 * n) = .ok body → cW h.2 0 = 0x31534356 → cU h.2 4 2 = i → cW h.2 0x14 = crc32c body.2 →
          body.1.rdCells true (.dva x.poseBase) (48 * x.poseCount) = .ok poses →
          foldE (fun (s : State) p => s.takePoint c i sn poses.2 p) poses.1
            ((List.range n).map fun j => ScanPt.ofWords (cU h.2 8 8) (wordsOf 4 ((body.2.drop (16 * j)).take 16))) = .ok v → ∃ t : State,
          t = v.updCmd tok (fun d => { d with targets := [off + 32 + 16 * n] }) ∧
          (off + 32 + 16 * n + 32 ≤ c.q 0x50 → exec (.scanPacket tok) s = .next t) ∧
          (c.q 0x50 < off + 32 + 16 * n + 32 → exec (.scanPacket tok) s = .next (t.endIngest tok)))))

/-! ## Tiles and engines (04-08) -/

/-- A tile's instructions (04 R97-R121, 05 R150-R163): NOP, a satisfied WAIT and SIGNAL go on to the next one; a WAIT that is not satisfied keeps
the tile; END ends the tile's part, and the RUN with the last one; FWD and STAGE move their rows; an MMA runs its m-groups and releases its
blocks in order; a first mismatch event discards the m-group for a replay, a second one quarantines the tile. -/
def Obligations.TileInstructions : Prop :=
  ∀ (s : State) (tok : Nat) (t : Fin 64) (o : OnTile), s.onTile tok t.val = some o → s.portHeld (srcUnit 0 t.val) = false →
    (let x := o.r.ctx o.p
     let upd (f : TileRun → TileRun) : ProgRun := { o.r with tiles := o.r.tiles.map fun y => if y.phys = t.val then f y else y }
     let past := upd fun y => { y with pc := y.pc + 1, mma := none, waitObj := none, waitMet := false }
     let keeps (u : State) (r : ProgRun) : Prop := u.cmd tok = some { o.c with run := some r } ∧ s.SameOthers u tok ∧
       { u with cmds := s.cmds, tiles := s.tiles } = s ∧ ∀ j, j ≠ t.val → u.tile j = s.tile j
     ((s.tile t.val).quarPending = false → o.mayIssue s = true →
       (o.instr = some .nop → ∃ u : State, exec (.tileNop tok t) s = .next u ∧ keeps u past ∧
         u.tile t.val = { s.tile t.val with residueOn := s.profile == 2 }) ∧
       (∀ sy n, o.instr = some (.signal sy n) → 1 ≤ n → bits (s.obj (o.r.syncObj sy)).config.toNat 31 31 = 0 → ∃ u : State,
         exec (.tileSignal tok t) s = .next u ∧ (u.obj (o.r.syncObj sy)).value = min ((s.obj (o.r.syncObj sy)).value + n) (2 ^ 64 - 1) ∧
         (∀ k, k ≠ o.r.syncObj sy → u.obj k = s.obj k) ∧ s.SameMem u ∧ s.SameTables u) ∧
       (∀ sy v w, o.instr = some (.wait sy v w) → bits w 31 31 = 0 → o.t.waitMet = false → o.t.waitObj = none →
         (v ≤ (s.obj (o.r.syncObj sy)).value → ∃ u : State, exec (.tileWait ⟨tok, .none⟩ t) s = .next u ∧ keeps u past) ∧
         ((s.obj (o.r.syncObj sy)).value < v → ∃ u : State, exec (.tileWait ⟨tok, .none⟩ t) s = .next u ∧
           keeps u (upd fun y => { y with waitObj := some (o.r.syncObj sy, v), waitMet := false }))) ∧
       (o.instr = some .fin →
         (let r := upd fun y => { y with ended := true }
          (r.allDone = false → ∃ u : State, exec (.endTile tok t) s = .next u ∧ keeps u r) ∧
          (r.allDone = true → o.r.kind = 0 → o.r.scattering = false → ∃ (u : State) (d : Cmd), exec (.endTile tok t) s = .next u ∧
            u.cmd tok = some d ∧ d.phase = .ended ∧ d.status = (if o.r.wrote then 0 else 0x0101) ∧ d.detail = 0 ∧ s.SameOthers u tok ∧
            (∀ w ∈ u.sch.units, w.tok ≠ tok) ∧ (∀ y ∈ o.r.tiles, (u.tile y.phys).st ≠ .running ∧ (u.tile y.phys).st ≠ .replaying) ∧
            s.SameMem u ∧ s.SameTables u))) ∧
       (∀ (i : MoveI) (feed : Bool) (c : Instr), (feed, c) ∈ [(false, Instr.fwd tok t .none), (true, .stage tok t .none)] →
         o.instr = some (if feed then .stage i else .fwd i) →
         (∀ m n, s.extAt x o.r i.m = .ok m → m.1.extAt x o.r i.e = .ok n → m.2 = 0 ∨ n.2 = 0 →
           exec c s = .next ((n.1.startInstr t.val).nextInstr tok t.val)) ∧
         (∀ u : State, o.move s i (if feed then .stage i else .fwd i) feed = .ok u → exec c s = .next u)) ∧
       (∀ i s1 g, o.instr = some (.mma i) → o.extents s i = .ok (s1, g) →
         (g.m = 0 ∨ g.n = 0 → exec (.mma tok t [] .none) s = .next ((s1.startInstr t.val).nextInstr tok t.val)) ∧
         (∀ r, g.m ≠ 0 → g.n ≠ 0 → g.left = true → g.halfBusy = false →
           (o.mctx i g).runGroup (((TInstr.mma i).outLinks.foldl (fun s d => s.openTransfer (linkKey t.val d)) (s1.startInstr t.val)).updTile
             tok t.val fun y => { y with mma := some g }) = .ok r →
           exec (.mma tok t [] .none) s = .next (r.1.keepMma tok t.val i r.2)))) ∧
     (∀ sy v w, o.instr = some (.wait sy v w) → (s.tile t.val).quarPending = false → o.t.waitMet = true → o.c.phase = .running →
       o.c.stop = none → ∀ h, ∃ u : State, exec (.tileWait ⟨tok, h⟩ t) s = .next u ∧ keeps u past ∧ u.tiles = s.tiles) ∧
     (∀ i g, o.instr = some (.mma i) → o.t.mma = some g → g.dead = false →
       (∀ r, g.left = true → g.halfBusy = false → (o.mctx i g).runGroup s = .ok r →
         exec (.mma tok t [] .none) s = .next (r.1.keepMma tok t.val i r.2) ∧
         (∀ fs, (let late := (o.mctx i g).eventCols s g.last ((g.todo.filter fun b => b.1 == g.last.1 && b.2.1 == g.last.2).map (·.2.2)) fs
            let cols := (o.mctx i g).eventCols s (g.np, g.g) (List.range (g.blocksOf g.g)) fs
            late = [] → exec (.mma tok t fs .none) s = .next (if cols = [] then r.1.keepMma tok t.val i r.2
              else o.event (r.1.updTile tok t.val fun y => { y with mma := some r.2 }) i r.2 cols)))) ∧
       (∀ fs, (o.mctx i g).eventCols s g.last ((g.todo.filter fun b => b.1 == g.last.1 && b.2.1 == g.last.2).map (·.2.2)) fs ≠ [] →
         ∃ u : State, exec (.mma tok t fs .none) s = .next u ∧
         (g.mism = 0 → u.sb.nextSeq = s.sb.nextSeq + 1 ∧ s.Counted u (0x100100 + 0x1000 * t.val) 1 ∧ (u.tile t.val).st = .replaying ∧
           u.cmd tok = some { o.c with run := some (upd fun y => { y with mma := some { g with
             mism := 1, replayPending := true, replaying := g.todo.filter fun b => b.1 == g.last.1 && b.2.1 == g.last.2
             todo := g.todo.filter fun b => !(g.todo.filter fun b => b.1 == g.last.1 && b.2.1 == g.last.2).contains b } }) } ∧
           s.OnlyRegs u [0x100100 + 0x1000 * t.val, 0x10010C + 0x1000 * t.val] ∧ s.SameMem u ∧ s.SameTables u) ∧
         (g.mism ≠ 0 → o.r.kind = 0 → u.sb.nextSeq = s.sb.nextSeq + 1 ∧ s.Counted u (0x100100 + 0x1000 * t.val) 1 ∧
           (u.tile t.val).st = .quarantined ∧ s.SameMem u ∧ s.SameTables u)) ∧
       (∀ v : State, g.replayPending = true → (o.mctx i g).compute s g.last.1 g.last.2 (g.replaying.map fun b => b.2.2) = .ok v →
         exec (.tileReplay tok t) s = .next (v.keepMma tok t.val i { g with replayPending := false, todo := g.todo ++ g.replaying })) ∧
       (g.replayPending = false → exec (.tileReplay tok t) s = .next s) ∧
       (∀ b bs (v : State), g.todo = b :: bs → (o.mctx i g).release s o.c b.1 b.2.1 b.2.2 = .ok v →
         (let y := (if 1 ≤ i.d.kind ∧ i.d.kind ≤ 3 then v.updRun tok fun r => { r with wrote := true } else v).replayEnds t.val { g with todo := bs }
          exec (.outputBlockRelease tok t .none) s = .next (y.1.keepMma tok t.val i y.2))) ∧
       (g.todo = [] → exec (.outputBlockRelease tok t .none) s = .next s)))

/-- Engine entries (06 R173-R199, 07 R214-R226, 08 R259-R274): an entry starts once its WAIT is satisfied, with one unit of its kind for each
stream, image or box, which any instance may take; SCAN, CARRY and MASK do one chunk, QUERY_BLOCK one block of an entry its tiles are lent to, the
image ops and CROP_BOX one row; MASK, the image ops and CROP_BOX count their work in the block of the instance the unit holds; a committed record
of SCAN or CARRY that cannot be read loses its stream alone. -/
def Obligations.EngineEntries : Prop :=
  ∀ (s : State) (tok e : Nat) (o : OnEntry),
    (s.entryAt tok e = some o → o.e.started = false → o.e.done = false →
      (o.e.waitOn.isSome = true → o.e.waitMet = false → exec (.engineEntryStart tok e) s = .next s) ∧
      (o.e.waitOn = none ∨ o.e.waitMet = true → o.firstUnits s ≠ [] → ∃ (v : State) (l : List SUnit) (r : ProgRun),
        exec (.engineEntryStart tok e) s = .next v ∧ v.sch.units = s.sch.units ++ l ∧ l.map (·.sub) = o.firstUnits s ∧
        (∀ w ∈ l, w.tok = tok ∧ w.kind = o.e.kind ∧ w.entry = e ∧ w.held = false) ∧ v.cmd tok = some { o.c with run := some r } ∧
        r.entries[e]? = some { o.e with started := true, waitOn := none, units := (o.firstUnits s).map fun n => { n := n } } ∧
        (∀ j, j ≠ e → r.entries[j]? = o.r.entries[j]?) ∧ r.tiles = o.r.tiles ∧ s.SameOthers v tok ∧
        { v with cmds := s.cmds, sch := s.sch } = s) ∧
      (o.e.waitOn = none ∨ o.e.waitMet = true → o.firstUnits s = [] → exec (.engineEntryStart tok e) s =
        .next ((s.updEntry tok e fun y => { y with started := true, waitOn := none, units := [] }).endEntry o))) ∧
    (∀ u, s.onEntry tok e u = some o → s.portHeld o.src = false →
      (∀ (i : Hazard → Instr) (op : Nat) (f : GlazeAt → State → List GlazeIn → List Val → E (State × List (List Val) × List Val)),
        (i, op, f) ∈ [(Instr.scan tok ⟨e, u⟩, 1, fun a s ins hs => .ok (s, (a.scanAll ins hs).1, (a.scanAll ins hs).2)),
          (.carry tok ⟨e, u⟩, 3, fun a s ins hs => s.carryChunk o.x a ins hs)] → ∀ a, o.glaze s op = some a →
        (∀ s1 codes tail v ins r (w z : State), o.startState s a = .ok (s1, codes, tail) →
          (if a.k = 0 then s1.copyTail o.x a tail else .ok s1) = .ok v → v.chunkIn o.x a = .ok ins →
          f a ins.1 ins.2 (a.fromCodes (if a.k = 0 then codes else o.u.buf)) = .ok r →
          foldE (fun (s : State) y => s.writeY o.x a.g (a.row y.1) y.2) r.1 ((List.range r.2.1.length).zip r.2.1) = .ok w →
          o.endChunk w a r.2.2 tail = .ok z → exec (i .none) s = .next z) ∧
        (∀ w ad, a.g.keeps = true → a.k = 0 → a.recAt s o.p false ≤ BitVec.toNat ad →
          BitVec.toNat ad < a.recAt s o.p false + a.g.recBytes → exec (i (.ue .hbm w ad)) s =
            .next ((s.noteUe o.src .hbm o.c.client o.c.op o.c.tag w.toNat ad.toNat).loseStream o a))) ∧
      (∀ a ins (v : State), o.glaze s 2 = some a → s.chunkIn o.x a = .ok ins →
        foldE (fun (s : State) y => s.maskHead o.x a ins.2 y) ins.1 (List.range a.g.h) = .ok v → ∃ t : State,
        exec (.mask tok ⟨e, u⟩ .none) s = .next (t.advEntry o a.last true []) ∧ v.Counted64 t (0x140008 + 0x1000 * o.inst) a.g.l ∧
        { t with regs := v.regs } = v) ∧
      (∀ b, o.query s = some b →
        (o.lent b.a = false → exec (.queryBlock tok ⟨e, u⟩ [] .none) s = .next s) ∧
        (∀ v : State, o.lent b.a = true → o.queryBlock ((o.lentTiles b.a).foldl (fun s t => s.startInstr t.phys) s) b = .ok v →
          exec (.queryBlock tok ⟨e, u⟩ [] .none) s = .next v)) ∧
      (∀ (i : Instr) (op : Nat) (n : ItxAt → Nat) (f : ItxAt → Ctx → State → E (State × RowCount)), (i, op, n, f) ∈
          [(Instr.txIn tok ⟨e, u⟩ .none, 2, fun a => a.th, ItxAt.txInRow), (.txOut tok ⟨e, u⟩ .none, 3, fun a => a.th, ItxAt.txOutRow),
           (.s2d tok ⟨e, u⟩ .none, 4, fun a => a.g.oh, ItxAt.s2dRow), (.d2s tok ⟨e, u⟩ .none, 5, fun a => a.g.oh, ItxAt.d2sRow),
           (.relayout tok ⟨e, u⟩ .none, 6, fun a => a.g.oh, ItxAt.relayoutRow)] →
        ∀ a r, o.itx op = some a → a.k < n a → f a o.x s = .ok r → ∃ t : State,
        exec i s = .next (t.advEntry o (decide (n a ≤ a.k + 1)) (decide (r.2.pixels ≠ 0)) []) ∧
        r.1.Counted64 t (0x150008 + 0x1000 * o.inst) r.2.pixels ∧ r.1.Counted64 t (0x150010 + 0x1000 * o.inst) r.2.pads ∧
        r.1.Counted t (0x150018 + 0x1000 * o.inst) r.2.nonfin ∧ { t with regs := r.1.regs } = r.1) ∧
      (∀ i out b v r, o.e.conv = false → o.e.kind = 4 → o.x.region (CropE.ofWords o.ws).inn.index = some i →
        o.x.region (CropE.ofWords o.ws).out.index = some out → o.x.region (CropE.ofWords o.ws).box.index = some b →
        (if o.u.chunk = 0 then (s.rd ((o.x.p.planeLoc o.x.binds b false).plus (32 * o.u.n)) 32).bind fun v => .ok (v.1, wordsOf 8 v.2)
          else .ok (s, o.u.buf)) = .ok v → (o.crop i out v.2).run o.x v.1 o.u.chunk = .ok r →
        (let last := decide ((CropE.ofWords o.ws).outH ≤ o.u.chunk + 1)
         ∃ t : State, exec (.cropBox tok ⟨e, u⟩ .none) s = .next (t.advEntry o last true v.2) ∧
          r.1.Counted64 t (0x154008 + 0x1000 * o.inst) (if last then 1 else 0) ∧ r.1.Counted64 t (0x154010 + 0x1000 * o.inst) r.2.1 ∧
          r.1.Counted t (0x154018 + 0x1000 * o.inst) (if last && (o.crop i out v.2).invalid then 1 else 0) ∧
          r.1.Counted t (0x15401C + 0x1000 * o.inst) r.2.2 ∧ { t with regs := r.1.regs } = r.1)))
end

