-- ==== Sys2Proof/Laws/SMap.lean ====
section
/-! SUPPORT. The laws of sparse tables: reading after writing, and that every operation keeps the canonical form. -/

namespace Sys2Proof.Machine

variable {α : Type} [DecidableEq α] {d : Nat → α}

/-- The head of a table in canonical form: its key is in range, its value is no default, the rest starts above it. -/
theorem SMap.wfFrom_cons {lo j : Nat} {w : α} {m : SMap α} :
    SMap.wfFrom d lo ((j, w) :: m) = true ↔ lo ≤ j ∧ w ≠ d j ∧ SMap.wfFrom d (j + 1) m = true := by
  simp [SMap.wfFrom, and_assoc]

/-- A smaller bound is met too. -/
theorem SMap.wfFrom_mono {lo lo' : Nat} (h : lo' ≤ lo) : ∀ {m : SMap α}, SMap.wfFrom d lo m = true → SMap.wfFrom d lo' m = true
  | [], _ => rfl
  | (_, _) :: _, hm => by
    rw [SMap.wfFrom_cons] at hm ⊢
    exact ⟨by omega, hm.2⟩

/-- Dropping entries keeps the canonical form. -/
theorem SMap.wfFrom_filter {p : Nat × α → Bool} {lo : Nat} :
    ∀ {m : SMap α}, SMap.wfFrom d lo m = true → SMap.wfFrom d lo (m.filter p) = true
  | [], _ => rfl
  | (j, w) :: m, hm => by
    have h := SMap.wfFrom_cons.1 hm
    rw [List.filter_cons]
    by_cases hp : p (j, w) = true
    · simp only [hp, if_true]
      exact SMap.wfFrom_cons.2 ⟨h.1, h.2.1, SMap.wfFrom_filter h.2.2⟩
    · simp only [hp]
      exact SMap.wfFrom_mono (by omega) (SMap.wfFrom_filter (lo := j + 1) h.2.2)

/-- Inserting a value that is no default keeps the canonical form, where the key is not listed. -/
theorem SMap.wfFrom_insert {lo k : Nat} {v : α} (hk : lo ≤ k) (hv : v ≠ d k) :
    ∀ {m : SMap α}, SMap.wfFrom d lo m = true → (∀ e ∈ m, e.1 ≠ k) → SMap.wfFrom d lo (SMap.insert k v m) = true
  | [], _, _ => SMap.wfFrom_cons.2 ⟨hk, hv, rfl⟩
  | (j, w) :: m, hm, hn => by
    have h := SMap.wfFrom_cons.1 hm
    have hj : j ≠ k := hn (j, w) (by simp)
    unfold SMap.insert
    split
    · exact SMap.wfFrom_cons.2 ⟨hk, hv, SMap.wfFrom_cons.2 ⟨by omega, h.2.1, h.2.2⟩⟩
    · exact SMap.wfFrom_cons.2 ⟨h.1, h.2.1, SMap.wfFrom_insert (by omega) hv h.2.2 fun e he => hn e (by simp [he])⟩

/-- A write drops the key's entries and lists the value where it is no default. -/
theorem SMap.set_eq {k : Nat} {v : α} {m : SMap α} :
    SMap.set d k v m = if v = d k then m.filter (fun e => e.1 != k) else SMap.insert k v (m.filter fun e => e.1 != k) := by
  cases m with
  | nil => simp [SMap.set, SMap.insert]
  | cons e m => rfl

/-- A write keeps the canonical form. -/
theorem SMap.wf_set {k : Nat} {v : α} {m : SMap α} (h : SMap.wf d m = true) : SMap.wf d (SMap.set d k v m) = true := by
  rw [SMap.set_eq]
  split
  · exact SMap.wfFrom_filter h
  · next hv =>
    refine SMap.wfFrom_insert (Nat.zero_le k) hv (SMap.wfFrom_filter h) ?_
    intro e he
    simpa using (List.mem_filter.1 he).2

omit [DecidableEq α] in
/-- A key that is not listed reads as the default. -/
theorem SMap.get_unlisted {k : Nat} : ∀ {m : SMap α}, (∀ e ∈ m, e.1 ≠ k) → SMap.get d m k = d k
  | [], _ => rfl
  | (j, w) :: m, h => by
    have hj : j ≠ k := h (j, w) (by simp)
    simp only [SMap.get, hj, if_false]
    exact SMap.get_unlisted fun e he => h e (by simp [he])

omit [DecidableEq α] in
/-- Reading what was inserted at a key that was not listed. -/
theorem SMap.get_insert_self {k : Nat} {v : α} : ∀ {m : SMap α}, (∀ e ∈ m, e.1 ≠ k) → SMap.get d (SMap.insert k v m) k = v
  | [], _ => by simp [SMap.insert, SMap.get]
  | (j, w) :: m, h => by
    have hj : j ≠ k := h (j, w) (by simp)
    unfold SMap.insert
    split
    · simp [SMap.get]
    · simp only [SMap.get, hj, if_false]
      exact SMap.get_insert_self fun e he => h e (by simp [he])

omit [DecidableEq α] in
/-- An insertion leaves every other key alone. -/
theorem SMap.get_insert_ne {k k' : Nat} {v : α} (hne : k' ≠ k) : ∀ {m : SMap α}, SMap.get d (SMap.insert k v m) k' = SMap.get d m k'
  | [] => by simp [SMap.insert, SMap.get, Ne.symm hne]
  | (j, w) :: m => by
    unfold SMap.insert
    split
    · simp [SMap.get, Ne.symm hne]
    · simp only [SMap.get]
      rw [SMap.get_insert_ne hne]

omit [DecidableEq α] in
/-- Dropping one key leaves every other key alone. -/
theorem SMap.get_drop_ne {k k' : Nat} (hne : k' ≠ k) : ∀ {m : SMap α}, SMap.get d (m.filter fun e => e.1 != k) k' = SMap.get d m k'
  | [] => rfl
  | (j, w) :: m => by
    rw [List.filter_cons]
    by_cases hj : j = k
    · subst hj
      simp only [bne_self_eq_false, Bool.false_eq_true, if_false, SMap.get, Ne.symm hne]
      exact SMap.get_drop_ne hne
    · simp only [bne_iff_ne, ne_eq, hj, not_false_eq_true, if_true, SMap.get]
      rw [SMap.get_drop_ne hne]

/-- Reading where something was just written. -/
@[simp] theorem SMap.get_set_self {k : Nat} {v : α} {m : SMap α} : SMap.get d (SMap.set d k v m) k = v := by
  have hn : ∀ e ∈ m.filter (fun e => e.1 != k), e.1 ≠ k := by
    intro e he
    simpa using (List.mem_filter.1 he).2
  rw [SMap.set_eq]
  split
  · next hv => rw [SMap.get_unlisted hn, hv]
  · exact SMap.get_insert_self hn

/-- A write leaves every other key alone. -/
theorem SMap.get_set_ne {k k' : Nat} {v : α} {m : SMap α} (hne : k' ≠ k) : SMap.get d (SMap.set d k v m) k' = SMap.get d m k' := by
  rw [SMap.set_eq]
  split
  · exact SMap.get_drop_ne hne
  · rw [SMap.get_insert_ne hne, SMap.get_drop_ne hne]

/-- Erasing a range keeps the canonical form. -/
theorem SMap.wf_erase {lo n : Nat} {m : SMap α} (h : SMap.wf d m = true) : SMap.wf d (SMap.erase lo n m) = true :=
  SMap.wfFrom_filter h

/-- Storing a list of entries keeps the canonical form. -/
theorem SMap.wf_setAll {es : SMap α} : ∀ {m : SMap α}, SMap.wf d m = true → SMap.wf d (SMap.setAll d es m) = true := by
  induction es with
  | nil => intro m h; exact h
  | cons e es ih => intro m h; exact ih (SMap.wf_set h)

omit [DecidableEq α] in
/-- Reading outside an erased range. -/
theorem SMap.get_erase_out {lo n k : Nat} (hk : k < lo ∨ lo + n ≤ k) :
    ∀ {m : SMap α}, SMap.get d (SMap.erase lo n m) k = SMap.get d m k
  | [] => rfl
  | (j, w) :: m => by
    have ih := SMap.get_erase_out (lo := lo) (n := n) hk (m := m)
    unfold SMap.erase at ih ⊢
    rw [List.filter_cons]
    by_cases hj : j = k
    · subst hj
      have hp : (!(decide (lo ≤ j) && decide (j < lo + n))) = true := by
        rcases hk with hk | hk
        · simp; omega
        · simp; omega
      simp only [hp, if_true, SMap.get]
    · by_cases hp : (!(decide (lo ≤ j) && decide (j < lo + n))) = true
      · simp only [hp, if_true, SMap.get, hj, if_false]
        exact ih
      · simp only [hp, SMap.get, hj, if_false]
        exact ih

omit [DecidableEq α] in
/-- Reading inside an erased range. -/
theorem SMap.get_erase_in {lo n k : Nat} (h1 : lo ≤ k) (h2 : k < lo + n) : ∀ {m : SMap α}, SMap.get d (SMap.erase lo n m) k = d k
  | [] => rfl
  | (j, w) :: m => by
    have ih := SMap.get_erase_in (lo := lo) (n := n) h1 h2 (m := m)
    unfold SMap.erase at ih ⊢
    rw [List.filter_cons]
    by_cases hp : (!(decide (lo ≤ j) && decide (j < lo + n))) = true
    · have hj : j ≠ k := by
        intro e
        subst e
        simp at hp
        omega
      simp only [hp, if_true, SMap.get, hj, if_false]
      exact ih
    · simp only [hp]
      exact ih

end Sys2Proof.Machine
end

