-- ==== Sys2Proof/Laws/Memory.lean ====
section
/-! SUPPORT. Memories (11 R326-R328, R339, R353): every operation on them keeps their canonical form, a store leaves every byte outside
its range alone and holds what was stored inside it. -/

namespace Sys2Proof.Machine
open Sys2Proof

/-! ## Bytes after a list of stores -/

theorem SMap.get_setAll_out {α : Type} [DecidableEq α] {d : Nat → α} {k : Nat} {es : SMap α} (h : ∀ e ∈ es, e.1 ≠ k) :
    ∀ {m : SMap α}, SMap.get d (SMap.setAll d es m) k = SMap.get d m k := by
  induction es with
  | nil => intro m; rfl
  | cons e es ih =>
    intro m
    have h1 : SMap.setAll d (e :: es) m = SMap.setAll d es (SMap.set d e.1 e.2 m) := rfl
    rw [h1, ih (fun x hx => h x (List.mem_cons_of_mem _ hx)), SMap.get_set_ne (Ne.symm (h e List.mem_cons_self))]

theorem SMap.wfFrom_le {α : Type} [DecidableEq α] {d : Nat → α} {lo : Nat} {m : SMap α} (h : SMap.wfFrom d lo m = true) :
    ∀ e ∈ m, lo ≤ e.1 := by
  induction m generalizing lo with
  | nil => intro e he; cases he
  | cons x m ih =>
    obtain ⟨j, w⟩ := x
    rw [SMap.wfFrom_cons] at h
    intro e he
    rcases List.mem_cons.1 he with rfl | he
    · exact h.1
    · have := ih h.2.2 e he
      omega

/-- After the stores of a canonical list every listed key holds its entry. -/
theorem SMap.get_setAll_in {α : Type} [DecidableEq α] {d : Nat → α} {es : SMap α} {lo : Nat} (h : SMap.wfFrom d lo es = true)
    {e : Nat × α} (he : e ∈ es) : ∀ {m : SMap α}, SMap.get d (SMap.setAll d es m) e.1 = e.2 := by
  induction es generalizing lo with
  | nil => cases he
  | cons x es ih =>
    intro m
    obtain ⟨j, w⟩ := x
    have hx := h
    rw [SMap.wfFrom_cons] at hx
    have h1 : SMap.setAll d ((j, w) :: es) m = SMap.setAll d es (SMap.set d j w m) := rfl
    rw [h1]
    rcases List.mem_cons.1 he with rfl | he
    · have hne : ∀ y ∈ es, y.1 ≠ j := fun y hy => by
        have := SMap.wfFrom_le hx.2.2 y hy
        omega
      rw [SMap.get_setAll_out (k := j) hne, SMap.get_set_self]
    · exact ih hx.2.2 he

/-! ## The canonical form of the memories -/

theorem State.MemWf.congr {s t : State} (h : s.MemWf) (h1 : t.hbm = s.hbm) (h2 : t.flash = s.flash) (h3 : t.host = s.host)
    (h4 : t.pal = s.pal) (h5 : t.shr = s.shr) : t.MemWf :=
  ⟨h1 ▸ h.hbm, h2 ▸ h.flash, h3 ▸ h.host, h4 ▸ h.pal, h5 ▸ h.shr⟩

theorem SMap.wf_overwrite {m : SMap Byte} (h : Memory.wf m) (cs : SMap Byte) (a n : Nat) :
    Memory.wf (SMap.setAll (fun _ => 0) cs (SMap.erase a n m)) := SMap.wf_setAll (SMap.wf_erase h)

theorem State.setGranule_memWf {s : State} (h : s.MemWf) (g : Nat) (x : Granule) : (s.setGranule g x).MemWf :=
  h.congr rfl rfl rfl rfl rfl

theorem State.setReg_memWf {s : State} (h : s.MemWf) (o : Nat) (v : W32) : (s.setReg o v).MemWf := h.congr rfl rfl rfl rfl rfl

theorem State.setReg64_memWf {s : State} (h : s.MemWf) (o v : Nat) : (s.setReg64 o v).MemWf := h.congr rfl rfl rfl rfl rfl

theorem State.bump64_memWf {s : State} (h : s.MemWf) (o n : Nat) : (s.bump64 o n).MemWf := h.congr rfl rfl rfl rfl rfl

theorem State.updCmd_memWf {s : State} (h : s.MemWf) (tok : Nat) (f : Cmd → Cmd) : (s.updCmd tok f).MemWf := h.congr rfl rfl rfl rfl rfl

theorem memWf_foldl {α : Type} {f : State → α → State} (hf : ∀ s a, s.MemWf → (f s a).MemWf) (l : List α) :
    ∀ {s : State}, s.MemWf → (l.foldl f s).MemWf := by
  induction l with
  | nil => intro s h; exact h
  | cons a l ih => intro s h; exact ih (hf s a h)

theorem memWf_ite {c : Prop} [Decidable c] {s t : State} (hs : s.MemWf) (ht : t.MemWf) : (if c then s else t).MemWf := by
  split
  · exact hs
  · exact ht

theorem State.setFld_memWf {s : State} (h : s.MemWf) (o hi lo v : Nat) : (s.setFld o hi lo v).MemWf := h.congr rfl rfl rfl rfl rfl

theorem State.bump_memWf {s : State} (h : s.MemWf) (o n : Nat) : (s.bump o n).MemWf := h.congr rfl rfl rfl rfl rfl

/-! ### The flash map -/

theorem State.countReads_memWf {s : State} (h : s.MemWf) (b n : Nat) : (s.countReads b n).MemWf := h.congr rfl rfl rfl rfl rfl

theorem State.readPages_memWf {s : State} (h : s.MemWf) (g p n : Nat) : (s.readPages g p n).MemWf := by
  refine memWf_ite h (memWf_foldl (fun s i h => ?_) _ h)
  split
  · exact State.countReads_memWf h _ _
  · exact h

theorem State.openGroup_memWf {s : State} (h : s.MemWf) : s.openGroup.MemWf := memWf_ite h (h.congr rfl rfl rfl rfl rfl)

theorem State.programHome_memWf {s : State} (h : s.MemWf) (g : Nat) : (s.programHome g).MemWf :=
  (State.openGroup_memWf h).congr rfl rfl rfl rfl rfl

theorem State.moverBytes_memWf {s : State} (h : s.MemWf) (n : Nat) : (s.moverBytes n).MemWf := h.congr rfl rfl rfl rfl rfl

/-! ### Frames -/

theorem State.sweepTo_memWf {fuel : Nat} : ∀ {s : State}, s.MemWf → (s.sweepTo fuel).1.MemWf := by
  induction fuel with
  | zero => intro s h; exact h
  | succ n ih =>
    intro s h
    have h' : ({ s with sweep := (s.sweep % max 1 s.resFrames + 1) % max 1 s.resFrames } : State).MemWf := h.congr rfl rfl rfl rfl rfl
    rw [State.sweepTo]
    dsimp only
    split
    · exact ih h'
    · split
      · exact ih h'
      · split
        · exact ih (State.setGranule_memWf h' _ _)
        · exact h'

theorem State.dropFrame_memWf {s : State} (h : s.MemWf) (g : Nat) : (s.dropFrame g).MemWf :=
  ⟨SMap.wf_erase h.hbm, h.flash, h.host, h.pal, h.shr⟩

theorem State.commitWriteback_memWf {s : State} (h : s.MemWf) (g : Nat) : (s.commitWriteback g).MemWf := by
  unfold State.commitWriteback
  refine State.bump64_memWf (State.setGranule_memWf (State.moverBytes_memWf (State.programHome_memWf ?_ _) _) _ _) _ _
  exact ⟨h.hbm, SMap.wf_overwrite h.flash _ _ _, h.host, h.pal, h.shr⟩

theorem State.takeFrame_memWf {s : State} (h : s.MemWf) : s.takeFrame.1.MemWf := by
  have hs := State.sweepTo_memWf (fuel := 2 * s.resFrames + 1) h
  unfold State.takeFrame
  split
  · exact h
  · split
    · next s' e => rw [e] at hs; exact hs
    · next s' g e =>
      rw [e] at hs
      dsimp only
      split
      · exact State.dropFrame_memWf (State.commitWriteback_memWf hs _) _
      · exact State.dropFrame_memWf hs _

theorem State.fillInto_memWf {s : State} (h : s.MemWf) (g f : Nat) : (s.fillInto g f).MemWf := by
  unfold State.fillInto
  refine State.setGranule_memWf (State.moverBytes_memWf (State.readPages_memWf ?_ _ _ _) _) _ _
  exact ⟨SMap.wf_overwrite h.hbm _ _ _, h.flash, h.host, h.pal, h.shr⟩

theorem State.sweepTo_pair {s s' : State} {o : Option Nat} {fuel : Nat} (h : s.MemWf) (e : s.sweepTo fuel = (s', o)) : s'.MemWf := by
  have := State.sweepTo_memWf (fuel := fuel) h
  rwa [e] at this

theorem State.unqueue_memWf {s : State} (h : s.MemWf) (g : Nat) : (s.unqueue g).MemWf := h.congr rfl rfl rfl rfl rfl

theorem State.startFill_memWf {s : State} (h : s.MemWf) (g : Nat) : (s.startFill g).MemWf := by
  refine memWf_ite (State.unqueue_memWf h _) (memWf_ite h ?_)
  split
  · exact State.unqueue_memWf (State.setGranule_memWf h _ _) _
  · refine memWf_ite h ?_
    split
    · next e =>
      have h' := State.sweepTo_pair h e
      exact memWf_ite h' (State.unqueue_memWf (State.bump_memWf h' _ _) _)
    · next e =>
      have h' := State.sweepTo_pair h e
      exact memWf_ite (State.setGranule_memWf h' _ _) (State.unqueue_memWf (State.setGranule_memWf (State.dropFrame_memWf h' _) _ _) _)

theorem State.startFills_memWf {s : State} (h : s.MemWf) : s.startFills.MemWf := memWf_foldl (fun _ _ h => State.startFill_memWf h _) _ h

/-! ### Stores -/

theorem State.ensure_memWf {s t : State} (h : s.MemWf) {g : Nat} (e : s.ensure g = .ok t) : t.MemWf := by
  unfold State.ensure at e
  dsimp only at e
  split at e
  · cases e
    exact memWf_ite (State.startFills_memWf (State.setGranule_memWf h _ _)) (memWf_ite (State.setGranule_memWf h _ _) h)
  · split at e
    · cases e
    · split at e
      · cases e
      · split at e
        · cases e
          exact State.bump64_memWf (State.fillInto_memWf h _ _) _ _
        · have ht := State.takeFrame_memWf h
          split at e
          · next s' f q =>
            cases e
            rw [q] at ht
            exact State.bump64_memWf (State.fillInto_memWf ht _ _) _ _
          · split at e <;> cases e

theorem State.ensureAll_memWf {gs : List Nat} : ∀ {s t : State}, s.MemWf → s.ensureAll gs = .ok t → t.MemWf := by
  induction gs with
  | nil => intro s t h e; cases e; exact h
  | cons g gs ih =>
    intro s t h e
    rw [State.ensureAll] at e
    cases q : s.ensure g with
    | ok s' => rw [q] at e; exact ih (State.ensure_memWf h q) e
    | wait => rw [q] at e; cases e
    | err _ => rw [q] at e; cases e

theorem State.storePart_memWf {s : State} (h : s.MemWf) (a n : Nat) (cs : SMap Byte) (g : Nat) : (s.storePart a n cs g).MemWf :=
  ⟨SMap.wf_overwrite h.hbm _ _ _, h.flash, h.host, h.pal, h.shr⟩

theorem State.dvaStore_memWf {s t : State} (h : s.MemWf) {a n : Nat} {cs : SMap Byte} (e : s.dvaStore a n cs = .ok t) : t.MemWf := by
  unfold State.dvaStore at e
  split at e
  · cases e; exact h
  · split at e
    · cases e
    · cases q : s.ensureAll (granulesOf a n) with
      | ok s' =>
        rw [q] at e
        cases e
        exact memWf_foldl (fun s g h => State.storePart_memWf h _ _ _ _) _ (State.ensureAll_memWf h q)
      | wait => rw [q] at e; cases e
      | err _ => rw [q] at e; cases e

/-- A store at any place keeps every memory's canonical form. -/
theorem State.store_memWf {s t : State} (h : s.MemWf) {l : Loc} {n : Nat} {cs : SMap Byte} (e : s.store l n cs = .ok t) : t.MemWf := by
  cases l with
  | dva a => exact State.dvaStore_memWf h e
  | host a =>
    simp only [State.store] at e
    split at e
    · cases e; exact ⟨h.hbm, h.flash, SMap.wf_overwrite h.host _ _ _, h.pal, h.shr⟩
    · cases e
  | pal p o => cases e; exact ⟨h.hbm, h.flash, h.host, SMap.wf_overwrite h.pal _ _ _, h.shr⟩
  | shr p o => cases e; exact ⟨h.hbm, h.flash, h.host, h.pal, SMap.wf_overwrite h.shr _ _ _⟩

theorem State.storeBytes_memWf {s t : State} (h : s.MemWf) {l : Loc} {bs : List Byte} (e : s.storeBytes l bs = .ok t) : t.MemWf :=
  State.store_memWf h e

theorem State.touchPart_memWf {s : State} (h : s.MemWf) (p : Bool) (a n g : Nat) : (s.touchPart p a n g).MemWf := by
  have h' (x : Granule) (p n : Nat) := State.readPages_memWf (State.setGranule_memWf h g x) g p n
  unfold State.touchPart
  refine memWf_ite (State.setGranule_memWf h _ _) (memWf_ite (State.startFill_memWf ?_ _) (h' _ _ _))
  exact (h' _ _ _).congr rfl rfl rfl rfl rfl

theorem State.touch_memWf {s : State} (h : s.MemWf) (p : Bool) (a n : Nat) : (s.touch p a n).MemWf :=
  memWf_ite h (memWf_foldl (fun _ _ h => State.touchPart_memWf h _ _ _ _) _ h)

theorem State.zeroFill_memWf {s t : State} (h : s.MemWf) {g : Nat} (e : s.zeroFill g = some t) : t.MemWf := by
  unfold State.zeroFill at e
  dsimp only at e
  split at e
  · cases e
  · split at e
    · cases e
      exact ⟨SMap.wf_erase h.hbm, h.flash, h.host, h.pal, h.shr⟩
    · split at e
      · cases e
      · have ht := State.takeFrame_memWf h
        split at e
        · next s' f q =>
          cases e
          rw [q] at ht
          exact ⟨SMap.wf_erase ht.hbm, ht.flash, ht.host, ht.pal, ht.shr⟩
        · cases e

theorem State.record_memWf {s : State} (h : s.MemWf) (cat sev src : Nat) (p : List Byte) : (s.record cat sev src p).MemWf :=
  memWf_ite (h.congr rfl rfl rfl rfl rfl) (h.congr rfl rfl rfl rfl rfl)

theorem State.eccRecord_memWf {s : State} (h : s.MemWf) (src st client op tag wher a : Nat) :
    (s.eccRecord src st client op tag wher a).MemWf := State.record_memWf h _ _ _ _

theorem State.bumpF_memWf {s : State} (h : s.MemWf) (o hi lo n : Nat) : (s.bumpF o hi lo n).MemWf := h.congr rfl rfl rfl rfl rfl

theorem State.noteEcc_memWf {s : State} (h : s.MemWf) (src client op tag d : Nat) : (s.noteEcc src client op tag d).MemWf := by
  unfold State.noteEcc
  dsimp only
  split
  · exact State.eccRecord_memWf h _ _ _ _ _ _ _
  · split
    · exact State.eccRecord_memWf (State.bumpF_memWf h _ _ _ _) _ _ _ _ _ _ _
    · exact State.eccRecord_memWf (memWf_ite (State.bump_memWf h _ _) h) _ _ _ _ _ _ _

theorem State.noteFrame_memWf {s : State} (h : s.MemWf) (client op tag g : Nat) : (s.noteFrame client op tag g).MemWf := by
  unfold State.noteFrame
  exact State.noteEcc_memWf h _ _ _ _ _

theorem State.finishGranule_memWf {s : State} (h : s.MemWf) (tok g : Nat) (f : Cmd → Cmd) : (s.finishGranule tok g f).MemWf :=
  State.updCmd_memWf h _ _

theorem State.endFlush_memWf {s : State} (h : s.MemWf) (c : Cmd) (g : Nat) : (s.endFlush c g).MemWf := by
  have h0 := State.updCmd_memWf h c.tok
    fun c => { c with items := c.items.filter fun i => i != [g], savedPal := c.savedPal.filter fun e => e.1 != g }
  have h1 := State.setGranule_memWf h0 g { s.granule g with move := 0, by_ := 0, met := false }
  unfold State.endFlush
  dsimp only
  generalize mixLines _ _ _ = mix
  revert h1
  generalize State.setGranule _ g _ = free
  intro h1
  have h2 := State.commitWriteback_memWf h1 g
  revert h2
  generalize free.commitWriteback g = done
  intro h2
  refine memWf_ite (State.finishGranule_memWf h0 _ _ _) (memWf_ite (State.finishGranule_memWf h1 _ _ _) (memWf_ite ?_ (memWf_ite ?_
    (memWf_ite (State.finishGranule_memWf h2 _ _ _) (memWf_ite (State.finishGranule_memWf h2 _ _ _)
      (State.finishGranule_memWf (State.dropFrame_memWf h2 _) _ _ _))))))
  · exact State.finishGranule_memWf (State.noteFrame_memWf h1 _ _ _ _) _ _ _
  · refine State.finishGranule_memWf (State.setGranule_memWf ?_ _ _) _ _ _
    exact ⟨h2.hbm, SMap.wf_overwrite h2.flash _ _ _, h2.host, h2.pal, h2.shr⟩

theorem State.zeroProgram_memWf {s : State} (h : s.MemWf) (p : Program) : (s.zeroProgram p).MemWf := by
  unfold State.zeroProgram
  refine memWf_foldl (fun s e h => ?_) _ (memWf_foldl (fun s e h => ?_) _ h)
  · exact ⟨h.hbm, h.flash, h.host, h.pal, SMap.wf_erase h.shr⟩
  · exact ⟨h.hbm, h.flash, h.host, SMap.wf_erase h.pal, h.shr⟩

theorem State.copyCode_memWf {s : State} (h : s.MemWf) (p : Program) : (s.copyCode p).MemWf := by
  refine memWf_foldl (fun s e h => ?_) _ h
  dsimp only
  generalize q : State.storeBytes s _ _ = r
  cases r with
  | ok t => exact State.storeBytes_memWf h q
  | wait => exact h
  | err _ => exact h

theorem State.restoreReservations_memWf {s : State} (h : s.MemWf) (c : Cmd) : (s.restoreReservations c).MemWf := by
  refine State.updCmd_memWf (memWf_foldl (fun s e h => ?_) _ h) _ _
  split
  · exact ⟨h.hbm, h.flash, h.host, h.pal, SMap.wf_overwrite h.shr _ _ _⟩
  · exact ⟨h.hbm, h.flash, h.host, SMap.wf_overwrite h.pal _ _ _, h.shr⟩

theorem State.reset_memWf : State.reset.MemWf := ⟨rfl, rfl, rfl, rfl, rfl⟩

/-! ## What a store outside device memory leaves -/

/-- Host, palette and shared bytes outside a store's range stand. -/
theorem SMap.get_overwrite_out {m cs : SMap Byte} {a n k : Nat} (hk : k < a ∨ a + n ≤ k) (hc : ∀ e ∈ cs, a ≤ e.1 ∧ e.1 < a + n) :
    SMap.get (fun _ => 0) (SMap.setAll (fun _ => 0) cs (SMap.erase a n m)) k = SMap.get (fun _ => 0) m k := by
  rw [SMap.get_setAll_out fun e he => by have := hc e he; omega, SMap.get_erase_out hk]

theorem SMap.slice_mem {α : Type} {lo n base : Nat} {m : SMap α} {e : Nat × α} (he : e ∈ SMap.slice lo n base m) :
    base ≤ e.1 ∧ e.1 < base + n := by
  unfold SMap.slice at he
  simp only [List.mem_map, List.mem_filter, Bool.and_eq_true, decide_eq_true_eq] at he
  obtain ⟨x, ⟨_, h1, h2⟩, rfl⟩ := he
  dsimp only
  omega

theorem State.store_host_out {s t : State} {a n k : Nat} {cs : SMap Byte} (e : s.store (.host a) n cs = .ok t)
    (hk : k < a ∨ a + n ≤ k) : SMap.get (fun _ => 0) t.host k = SMap.get (fun _ => 0) s.host k := by
  simp only [State.store] at e
  split at e
  · cases e
    exact SMap.get_overwrite_out hk fun x hx => SMap.slice_mem hx
  · cases e

theorem State.store_pal_out {s t : State} {p o n k : Nat} {cs : SMap Byte} (e : s.store (.pal p o) n cs = .ok t)
    (hk : k < palBytes * p + o ∨ palBytes * p + o + n ≤ k) : SMap.get (fun _ => 0) t.pal k = SMap.get (fun _ => 0) s.pal k := by
  cases e
  exact SMap.get_overwrite_out hk fun x hx => SMap.slice_mem hx

theorem State.store_shr_out {s t : State} {p o n k : Nat} {cs : SMap Byte} (e : s.store (.shr p o) n cs = .ok t)
    (hk : k < shrBytes * p + o ∨ shrBytes * p + o + n ≤ k) : SMap.get (fun _ => 0) t.shr k = SMap.get (fun _ => 0) s.shr k := by
  cases e
  exact SMap.get_overwrite_out hk fun x hx => SMap.slice_mem hx

end Sys2Proof.Machine
end

