-- ==== Sys2Proof/Laws/PerInstr.lean ====
section
/-! SUPPORT. One lemma per constructor of `Instr`: a well-formed command's moment is a 64-bit number. -/

set_option Elab.async false

namespace Sys2Proof.Laws.WellFormed

/-- The moment a well-formed command carries fits in 64 bits. -/
def Statement (i : Instr) : Prop := i.wellFormed = true → ∀ it, i.moment = some it → it < 2 ^ 64

/-- An accepted moment fits. -/
theorem itOk_lt {it : Nat} (h : itOk it = true) : it < 2 ^ 64 := of_decide_eq_true h

/-- The left side of a conjunction that holds. -/
theorem both_left {a b : Bool} (h : (a && b) = true) : a = true := by
  cases a
  · exact h
  · rfl

theorem nop (tok : Nat) : Statement (.nop tok) := fun _ _ hx => nomatch hx

theorem fence (tok : Nat) : Statement (.fence tok) := fun _ _ hx => nomatch hx

theorem wait (tok : Nat) : Statement (.wait tok) := fun _ _ hx => nomatch hx

theorem signal (tok : Nat) : Statement (.signal tok) := fun _ _ hx => nomatch hx

theorem loadProgram (tok : Nat) : Statement (.loadProgram tok) := fun _ _ hx => nomatch hx

theorem run (a : MetBy) : Statement (.run a) := fun _ _ hx => nomatch hx

theorem unloadProgram (tok : Nat) : Statement (.unloadProgram tok) := fun _ _ hx => nomatch hx

theorem sceneOpen (tok : Nat) : Statement (.sceneOpen tok) := fun _ _ hx => nomatch hx

theorem streamOpen (tok : Nat) : Statement (.streamOpen tok) := fun _ _ hx => nomatch hx

theorem fork (tok : Nat) : Statement (.fork tok) := fun _ _ hx => nomatch hx

theorem forkCommit (tok : Nat) : Statement (.forkCommit tok) := fun _ _ hx => nomatch hx

theorem step (a : MetBy) : Statement (.step a) := fun _ _ hx => nomatch hx

theorem ingestSeq (a : MetBy) : Statement (.ingestSeq a) := fun _ _ hx => nomatch hx

theorem streamCommit (tok : Nat) (idx : Nat) : Statement (.streamCommit tok idx) := fun _ _ hx => nomatch hx

theorem park (tok : Nat) : Statement (.park tok) := fun _ _ hx => nomatch hx

theorem parkRelease (tok : Nat) : Statement (.parkRelease tok) := fun _ _ hx => nomatch hx

theorem close (tok : Nat) : Statement (.close tok) := fun _ _ hx => nomatch hx

theorem closeScene (tok : Nat) : Statement (.closeScene tok) := fun _ _ hx => nomatch hx

theorem copy (tok : Nat) : Statement (.copy tok) := fun _ _ hx => nomatch hx

theorem dmaPiece (tok : Nat) (mover : Fin 16) (h : Hazard) : Statement (.dmaPiece tok mover h) := fun _ _ hx => nomatch hx

theorem migrateToHbm (tok : Nat) : Statement (.migrateToHbm tok) := fun _ _ hx => nomatch hx

theorem migrateFlush (tok : Nat) : Statement (.migrateFlush tok) := fun _ _ hx => nomatch hx

theorem migrateToFlash (tok : Nat) : Statement (.migrateToFlash tok) := fun _ _ hx => nomatch hx

theorem migrateZeroFill (tok : Nat) : Statement (.migrateZeroFill tok) := fun _ _ hx => nomatch hx

theorem hintPin (tok : Nat) : Statement (.hintPin tok) := fun _ _ hx => nomatch hx

theorem hintUnpin (tok : Nat) : Statement (.hintUnpin tok) := fun _ _ hx => nomatch hx

theorem hintNoWb (tok : Nat) : Statement (.hintNoWb tok) := fun _ _ hx => nomatch hx

theorem hintWb (tok : Nat) : Statement (.hintWb tok) := fun _ _ hx => nomatch hx

theorem hintStream (tok : Nat) : Statement (.hintStream tok) := fun _ _ hx => nomatch hx

theorem hintNostream (tok : Nat) : Statement (.hintNostream tok) := fun _ _ hx => nomatch hx

theorem hintWillneed (tok : Nat) : Statement (.hintWillneed tok) := fun _ _ hx => nomatch hx

theorem hintDontneed (tok : Nat) : Statement (.hintDontneed tok) := fun _ _ hx => nomatch hx

theorem prefetchWindow (tok : Nat) : Statement (.prefetchWindow tok) := fun _ _ hx => nomatch hx

theorem update (tok : Nat) : Statement (.update tok) := fun _ _ hx => nomatch hx

theorem retouchClaim (tok : Nat) : Statement (.retouchClaim tok) := fun _ _ hx => nomatch hx

theorem retouchChunk (tok : Nat) (b : Nat) (h : Hazard) : Statement (.retouchChunk tok b h) := fun _ _ hx => nomatch hx

theorem rootRefresh (tok : Nat) : Statement (.rootRefresh tok) := fun _ _ hx => nomatch hx

theorem newtonIteration (tok : Nat) : Statement (.newtonIteration tok) := fun _ _ hx => nomatch hx

theorem rootFlip (tok : Nat) : Statement (.rootFlip tok) := fun _ _ hx => nomatch hx

theorem ingestOpen (tok : Nat) : Statement (.ingestOpen tok) := fun _ _ hx => nomatch hx

theorem ingestClose (tok : Nat) : Statement (.ingestClose tok) := fun _ _ hx => nomatch hx

theorem ingestVideo (tok : Nat) : Statement (.ingestVideo tok) := fun _ _ hx => nomatch hx

theorem ingestStill (tok : Nat) : Statement (.ingestStill tok) := fun _ _ hx => nomatch hx

theorem ingestScan (tok : Nat) : Statement (.ingestScan tok) := fun _ _ hx => nomatch hx

theorem ingestSeal (tok : Nat) : Statement (.ingestSeal tok) := fun _ _ hx => nomatch hx

theorem ingestRelease (tok : Nat) : Statement (.ingestRelease tok) := fun _ _ hx => nomatch hx

theorem slotSeal (scene : Fin 24) (it : Nat) : Statement (.slotSeal scene it) := fun h _ hx => Option.some.inj hx ▸ itOk_lt (h)

theorem preempt (tok : Nat) : Statement (.preempt tok) := fun _ _ hx => nomatch hx

theorem preemptDiscard (tok : Nat) : Statement (.preemptDiscard tok) := fun _ _ hx => nomatch hx

theorem resume (tok : Nat) : Statement (.resume tok) := fun _ _ hx => nomatch hx

theorem selfTest (tok : Nat) : Statement (.selfTest tok) := fun _ _ hx => nomatch hx

theorem margin (tok : Nat) : Statement (.margin tok) := fun _ _ hx => nomatch hx

theorem checkpoint (tok : Nat) : Statement (.checkpoint tok) := fun _ _ hx => nomatch hx

theorem restore (tok : Nat) : Statement (.restore tok) := fun _ _ hx => nomatch hx

theorem packetFetch (h : Hazard) : Statement (.packetFetch h) := fun _ _ hx => nomatch hx

theorem commandDispatch (q : Fin 512) (h : Hazard) : Statement (.commandDispatch q h) := fun _ _ hx => nomatch hx

theorem notBeforeReached (tok : Nat) (it : Nat) : Statement (.notBeforeReached tok it) := fun h _ hx => Option.some.inj hx ▸ itOk_lt (h)

theorem commandCompletion (tok : Nat) : Statement (.commandCompletion tok) := fun _ _ hx => nomatch hx

theorem completionRecordWrite (tok : Nat) : Statement (.completionRecordWrite tok) := fun _ _ hx => nomatch hx

theorem queueDrained (q : Fin 512) : Statement (.queueDrained q) := fun _ _ hx => nomatch hx

theorem unitGrant (kind : Fin 10) : Statement (.unitGrant kind) := fun _ _ hx => nomatch hx

theorem lcCapReached (kind : Fin 10) (it : Nat) : Statement (.lcCapReached kind it) := fun h _ hx => Option.some.inj hx ▸ itOk_lt (h)

theorem quantumBoundary (it : Nat) : Statement (.quantumBoundary it) := fun h _ hx => Option.some.inj hx ▸ itOk_lt (h)

theorem quiescentPoint (tok : Nat) : Statement (.quiescentPoint tok) := fun _ _ hx => nomatch hx

theorem drainEnd (tok : Nat) : Statement (.drainEnd tok) := fun _ _ hx => nomatch hx

theorem contextSaveDone (tok : Nat) : Statement (.contextSaveDone tok) := fun _ _ hx => nomatch hx

theorem contextRestoreDone (tok : Nat) : Statement (.contextRestoreDone tok) := fun _ _ hx => nomatch hx

theorem mma (tok : Nat) (t : Fin 64) (mism : List ColFault) (h : Hazard) : Statement (.mma tok t mism h) := fun _ _ hx => nomatch hx

theorem tileReplay (tok : Nat) (t : Fin 64) : Statement (.tileReplay tok t) := fun _ _ hx => nomatch hx

theorem outputBlockRelease (tok : Nat) (t : Fin 64) (h : Hazard) : Statement (.outputBlockRelease tok t h) := fun _ _ hx => nomatch hx

theorem fwd (tok : Nat) (t : Fin 64) (h : Hazard) : Statement (.fwd tok t h) := fun _ _ hx => nomatch hx

theorem stage (tok : Nat) (t : Fin 64) (h : Hazard) : Statement (.stage tok t h) := fun _ _ hx => nomatch hx

theorem tileNop (tok : Nat) (t : Fin 64) : Statement (.tileNop tok t) := fun _ _ hx => nomatch hx

theorem tileWait (a : MetBy) (t : Fin 64) : Statement (.tileWait a t) := fun _ _ hx => nomatch hx

theorem tileSignal (tok : Nat) (t : Fin 64) : Statement (.tileSignal tok t) := fun _ _ hx => nomatch hx

theorem endTile (tok : Nat) (t : Fin 64) : Statement (.endTile tok t) := fun _ _ hx => nomatch hx

theorem engineEntryStart (tok : Nat) (e : Nat) : Statement (.engineEntryStart tok e) := fun _ _ hx => nomatch hx

theorem scan (tok : Nat) (e : EntryUnit) (h : Hazard) : Statement (.scan tok e h) := fun _ _ hx => nomatch hx

theorem mask (tok : Nat) (e : EntryUnit) (h : Hazard) : Statement (.mask tok e h) := fun _ _ hx => nomatch hx

theorem carry (tok : Nat) (e : EntryUnit) (h : Hazard) : Statement (.carry tok e h) := fun _ _ hx => nomatch hx

theorem queryBlock (tok : Nat) (e : EntryUnit) (ev : List (Fin 64 × List ColFault × List ColFault)) (h : Hazard) : Statement (.queryBlock tok e ev h) := fun _ _ hx => nomatch hx

theorem txIn (tok : Nat) (e : EntryUnit) (h : Hazard) : Statement (.txIn tok e h) := fun _ _ hx => nomatch hx

theorem txOut (tok : Nat) (e : EntryUnit) (h : Hazard) : Statement (.txOut tok e h) := fun _ _ hx => nomatch hx

theorem s2d (tok : Nat) (e : EntryUnit) (h : Hazard) : Statement (.s2d tok e h) := fun _ _ hx => nomatch hx

theorem d2s (tok : Nat) (e : EntryUnit) (h : Hazard) : Statement (.d2s tok e h) := fun _ _ hx => nomatch hx

theorem relayout (tok : Nat) (e : EntryUnit) (h : Hazard) : Statement (.relayout tok e h) := fun _ _ hx => nomatch hx

theorem cropBox (tok : Nat) (e : EntryUnit) (h : Hazard) : Statement (.cropBox tok e h) := fun _ _ hx => nomatch hx

theorem remoteAdd (port : Fin 12) (tx : RxTx) (it : Nat) : Statement (.remoteAdd port tx it) := fun h _ hx => Option.some.inj hx ▸ itOk_lt (both_left h)

theorem remoteWrite (port : Fin 12) (tx : RxTx) (it : Nat) : Statement (.remoteWrite port tx it) := fun h _ hx => Option.some.inj hx ▸ itOk_lt (both_left h)

theorem reply (port : Fin 12) (rep : RxReply) (it : Nat) : Statement (.reply port rep it) := fun h _ hx => Option.some.inj hx ▸ itOk_lt (h)

theorem transitForward (port : Fin 12) (tx : RxTx) : Statement (.transitForward port tx) := fun _ _ hx => nomatch hx

theorem transportTimeout (tx : Nat) (it : Nat) : Statement (.transportTimeout tx it) := fun h _ hx => Option.some.inj hx ▸ itOk_lt (h)

theorem heldTransactionDeadline (tx : Nat) (it : Nat) : Statement (.heldTransactionDeadline tx it) := fun h _ hx => Option.some.inj hx ▸ itOk_lt (h)

theorem sourceFullResend (tx : Nat) (it : Nat) : Statement (.sourceFullResend tx it) := fun h _ hx => Option.some.inj hx ▸ itOk_lt (h)

theorem linkFrameReceive (port : Fin 12) (seq : Nat) (len : Nat) (crcOk : Bool) : Statement (.linkFrameReceive port seq len crcOk) := fun _ _ hx => nomatch hx

theorem nakReceived (port : Fin 12) (seq : Nat) : Statement (.nakReceived port seq) := fun _ _ hx => nomatch hx

theorem ackTimer (port : Fin 12) (it : Nat) : Statement (.ackTimer port it) := fun h _ hx => Option.some.inj hx ▸ itOk_lt (h)

theorem linkFail (port : Fin 12) : Statement (.linkFail port) := fun _ _ hx => nomatch hx

theorem retrainDone (port : Fin 12) : Statement (.retrainDone port) := fun _ _ hx => nomatch hx

theorem portTrainingRetry (port : Fin 12) (it : Nat) : Statement (.portTrainingRetry port it) := fun h _ hx => Option.some.inj hx ▸ itOk_lt (h)

theorem roceRetransmit (port : Fin 12) (seq : Nat) : Statement (.roceRetransmit port seq) := fun _ _ hx => nomatch hx

theorem ecnCnp (port : Fin 12) (dest : BitVec 16) : Statement (.ecnCnp port dest) := fun _ _ hx => nomatch hx

theorem ecnRateStep (port : Fin 12) (dest : BitVec 16) : Statement (.ecnRateStep port dest) := fun _ _ hx => nomatch hx

theorem arpRequest (port : Fin 12) (addr : W32) : Statement (.arpRequest port addr) := fun _ _ hx => nomatch hx

theorem timeInPulse (it : Nat) : Statement (.timeInPulse it) := fun h _ hx => Option.some.inj hx ▸ itOk_lt (h)

theorem todMessage (bytes : List Byte) : Statement (.todMessage bytes) := fun _ _ hx => nomatch hx

theorem ptpMessage (domain : Nat) (tai : Nat) (it : Nat) : Statement (.ptpMessage domain tai it) := fun h _ hx => Option.some.inj hx ▸ itOk_lt (both_left h)

theorem holdoverTimeout (it : Nat) : Statement (.holdoverTimeout it) := fun h _ hx => Option.some.inj hx ▸ itOk_lt (h)

theorem cadenceWindowClose (it : Nat) : Statement (.cadenceWindowClose it) := fun h _ hx => Option.some.inj hx ▸ itOk_lt (h)

theorem fillDone (g : Nat) (ok : Bool) : Statement (.fillDone g ok) := fun _ _ hx => nomatch hx

theorem evictionWritebackDone (g : Nat) : Statement (.evictionWritebackDone g) := fun _ _ hx => nomatch hx

theorem regulatorGrant (stack : Fin 12) (src : Fin 65536) (idle : Bool) (it : Nat) : Statement (.regulatorGrant stack src idle it) := fun h _ hx => Option.some.inj hx ▸ itOk_lt (h)

theorem hbmScrub (line : Nat) (found : Nat) : Statement (.hbmScrub line found) := fun _ _ hx => nomatch hx

theorem hbmRetrain (stack : Fin 12) (fails : List (Fin 32)) : Statement (.hbmRetrain stack fails) := fun _ _ hx => nomatch hx

theorem readDisturbSample (blk : Nat) (steps : List (Fin 3)) (bits : Nat) : Statement (.readDisturbSample blk steps bits) := fun _ _ hx => nomatch hx

theorem reclaim (blk : Nat) (bad : Bool) : Statement (.reclaim blk bad) := fun _ _ hx => nomatch hx

theorem wearLevelMove (blk : Nat) : Statement (.wearLevelMove blk) := fun _ _ hx => nomatch hx

theorem readCounterPersist : Statement .readCounterPersist := fun _ _ hx => nomatch hx

theorem flashMapLoaded (ok : Bool) : Statement (.flashMapLoaded ok) := fun _ _ hx => nomatch hx

theorem powerOn : Statement .powerOn := fun _ _ hx => nomatch hx

theorem perst : Statement .perst := fun _ _ hx => nomatch hx

theorem resetNAssert : Statement .resetNAssert := fun _ _ hx => nomatch hx

theorem resetN : Statement .resetN := fun _ _ hx => nomatch hx

theorem hotReset : Statement .hotReset := fun _ _ hx => nomatch hx

theorem lowInput (mv : Nat) : Statement (.lowInput mv) := fun _ _ hx => nomatch hx

theorem underVoltageTrip (mv : Nat) : Statement (.underVoltageTrip mv) := fun _ _ hx => nomatch hx

theorem overVoltageTrip (mv : Nat) : Statement (.overVoltageTrip mv) := fun _ _ hx => nomatch hx

theorem pwrWarnAssert : Statement .pwrWarnAssert := fun _ _ hx => nomatch hx

theorem pwrWarnClear : Statement .pwrWarnClear := fun _ _ hx => nomatch hx

theorem droopStretch (t : Fin 64) (n : Nat) : Statement (.droopStretch t n) := fun _ _ hx => nomatch hx

theorem stretchEnd (t : Fin 64) (n : Nat) : Statement (.stretchEnd t n) := fun _ _ hx => nomatch hx

theorem avsUpdate (panel : Fin 4) (need : Nat) : Statement (.avsUpdate panel need) := fun _ _ hx => nomatch hx

theorem allowDecay (panel : Fin 4) : Statement (.allowDecay panel) := fun _ _ hx => nomatch hx

theorem clampRecoverStep (panel : Fin 4) : Statement (.clampRecoverStep panel) := fun _ _ hx => nomatch hx

theorem thermalThrottleStep (panel : Fin 4) (temp : Nat) : Statement (.thermalThrottleStep panel temp) := fun _ _ hx => nomatch hx

theorem thermalRecoverStep (panel : Fin 4) (temp : Nat) : Statement (.thermalRecoverStep panel temp) := fun _ _ hx => nomatch hx

theorem hbmStackHot (stack : Fin 12) (temp : Nat) : Statement (.hbmStackHot stack temp) := fun _ _ hx => nomatch hx

theorem junctionLimit (sensor : Junction) (temp : Nat) : Statement (.junctionLimit sensor temp) := fun _ _ hx => nomatch hx

theorem washTick (it : Nat) (demand : Nat) : Statement (.washTick it demand) := fun h _ hx => Option.some.inj hx ▸ itOk_lt (h)

theorem governorAdjust (watts : Nat) : Statement (.governorAdjust watts) := fun _ _ hx => nomatch hx

theorem burnMismatch (t : Fin 64) : Statement (.burnMismatch t) := fun _ _ hx => nomatch hx

theorem profileSwitchDone (h : Hazard) : Statement (.profileSwitchDone h) := fun _ _ hx => nomatch hx

theorem sbDrain : Statement .sbDrain := fun _ _ hx => nomatch hx

theorem tileTestDone (t : Fin 64) (fails : List (Nat × Nat)) : Statement (.tileTestDone t fails) := fun _ _ hx => nomatch hx

theorem hbmMarginDone (lane : Fin 32) (lo : Nat) (hi : Nat) : Statement (.hbmMarginDone lane lo hi) := fun _ _ hx => nomatch hx

theorem eyeMeasureDone (port : Fin 12) (width : Nat) (height : Nat) : Statement (.eyeMeasureDone port width height) := fun _ _ hx => nomatch hx

theorem repairDone (t : Fin 64) (verified : Bool) : Statement (.repairDone t verified) := fun _ _ hx => nomatch hx

theorem primerOpDone : Statement .primerOpDone := fun _ _ hx => nomatch hx

theorem tileQuarantine (req : Requester) (t : Fin 64) : Statement (.tileQuarantine req t) := fun _ _ hx => nomatch hx

theorem tileRelease (req : Requester) (t : Fin 64) : Statement (.tileRelease req t) := fun _ _ hx => nomatch hx

theorem repairGo (req : Requester) (t : Fin 64) : Statement (.repairGo req t) := fun _ _ hx => nomatch hx

theorem poolApply (req : Requester) : Statement (.poolApply req) := fun _ _ hx => nomatch hx

theorem qEnable (req : Requester) (q : Fin 512) : Statement (.qEnable req q) := fun _ _ hx => nomatch hx

theorem qDisable (req : Requester) (q : Fin 512) : Statement (.qDisable req q) := fun _ _ hx => nomatch hx

theorem sqTailDb (req : Requester) (q : Fin 512) (v : W32) : Statement (.sqTailDb req q v) := fun _ _ hx => nomatch hx

theorem cqHeadDb (req : Requester) (q : Fin 512) (v : W32) : Statement (.cqHeadDb req q v) := fun _ _ hx => nomatch hx

theorem objValueWrite (req : Requester) (n : Fin 16384) (v : W64) : Statement (.objValueWrite req n v) := fun _ _ hx => nomatch hx

theorem granuleQuery (req : Requester) (v : W64) : Statement (.granuleQuery req v) := fun _ _ hx => nomatch hx

theorem sbRead (req : Requester) (v : W64) : Statement (.sbRead req v) := fun _ _ hx => nomatch hx

theorem sbNote (req : Requester) (v : W64) : Statement (.sbNote req v) := fun _ _ hx => nomatch hx

theorem resetCtl (req : Requester) (v : W32) : Statement (.resetCtl req v) := fun _ _ hx => nomatch hx

theorem safeCtlEnter (req : Requester) : Statement (.safeCtlEnter req) := fun _ _ hx => nomatch hx

theorem profileReq (req : Requester) (v : W32) : Statement (.profileReq req v) := fun _ _ hx => nomatch hx

theorem lcGo (req : Requester) : Statement (.lcGo req) := fun _ _ hx => nomatch hx

theorem primerWrite (req : Requester) (slotB : Bool) : Statement (.primerWrite req slotB) := fun _ _ hx => nomatch hx

theorem primerErase (req : Requester) (slotB : Bool) : Statement (.primerErase req slotB) := fun _ _ hx => nomatch hx

theorem primerValidate (req : Requester) (slotB : Bool) : Statement (.primerValidate req slotB) := fun _ _ hx => nomatch hx

theorem tileTestGo (req : Requester) (t : Fin 64) (v : W32) : Statement (.tileTestGo req t v) := fun _ _ hx => nomatch hx

theorem hbmMarginGo (req : Requester) (v : W32) : Statement (.hbmMarginGo req v) := fun _ _ hx => nomatch hx

theorem eyeGo (req : Requester) (port : Fin 12) (v : W32) : Statement (.eyeGo req port v) := fun _ _ hx => nomatch hx

theorem portCfgWrite (req : Requester) (port : Fin 12) (v : W32) : Statement (.portCfgWrite req port v) := fun _ _ hx => nomatch hx

theorem transportTimeoutWrite (req : Requester) (v : W32) : Statement (.transportTimeoutWrite req v) := fun _ _ hx => nomatch hx

theorem acctEnable (req : Requester) (v : W32) : Statement (.acctEnable req v) := fun _ _ hx => nomatch hx

theorem washEnable (req : Requester) (v : W32) : Statement (.washEnable req v) := fun _ _ hx => nomatch hx

theorem regEnable (req : Requester) (v : W32) : Statement (.regEnable req v) := fun _ _ hx => nomatch hx

theorem pendingFieldWrite (req : Requester) (off : Nat) (v : W32) : Statement (.pendingFieldWrite req off v) := fun _ _ hx => nomatch hx

theorem resClear (req : Requester) (t : Fin 64) : Statement (.resClear req t) := fun _ _ hx => nomatch hx

theorem glzClear (req : Requester) (n : Fin 8) : Statement (.glzClear req n) := fun _ _ hx => nomatch hx

theorem attClear (req : Requester) (n : Fin 8) : Statement (.attClear req n) := fun _ _ hx => nomatch hx

theorem poolClear (req : Requester) : Statement (.poolClear req) := fun _ _ hx => nomatch hx

theorem itxClear (req : Requester) (n : Fin 4) : Statement (.itxClear req n) := fun _ _ hx => nomatch hx

theorem crsClear (req : Requester) (n : Fin 4) : Statement (.crsClear req n) := fun _ _ hx => nomatch hx

theorem ingClear (req : Requester) : Statement (.ingClear req) := fun _ _ hx => nomatch hx

theorem rtcClear (req : Requester) (n : Fin 4) : Statement (.rtcClear req n) := fun _ _ hx => nomatch hx

theorem hbmErrClear (req : Requester) : Statement (.hbmErrClear req) := fun _ _ hx => nomatch hx

theorem migClear (req : Requester) : Statement (.migClear req) := fun _ _ hx => nomatch hx

theorem ftlClear (req : Requester) : Statement (.ftlClear req) := fun _ _ hx => nomatch hx

theorem dmaClear (req : Requester) (n : Fin 16) : Statement (.dmaClear req n) := fun _ _ hx => nomatch hx

theorem cpClear (req : Requester) : Statement (.cpClear req) := fun _ _ hx => nomatch hx

theorem schedClear (req : Requester) : Statement (.schedClear req) := fun _ _ hx => nomatch hx

theorem linkClear (req : Requester) : Statement (.linkClear req) := fun _ _ hx => nomatch hx

theorem timeClear (req : Requester) : Statement (.timeClear req) := fun _ _ hx => nomatch hx

theorem depClear (req : Requester) : Statement (.depClear req) := fun _ _ hx => nomatch hx

theorem cvClear (req : Requester) (n : Fin 24) : Statement (.cvClear req n) := fun _ _ hx => nomatch hx

theorem pwrClear (req : Requester) : Statement (.pwrClear req) := fun _ _ hx => nomatch hx

theorem adaptClear (req : Requester) (t : Fin 64) : Statement (.adaptClear req t) := fun _ _ hx => nomatch hx

theorem globalLock (req : Requester) : Statement (.globalLock req) := fun _ _ hx => nomatch hx

theorem primerLock (req : Requester) : Statement (.primerLock req) := fun _ _ hx => nomatch hx

theorem cpLock (req : Requester) : Statement (.cpLock req) := fun _ _ hx => nomatch hx

theorem schedLock (req : Requester) : Statement (.schedLock req) := fun _ _ hx => nomatch hx

theorem repairLock (req : Requester) (t : Fin 64) : Statement (.repairLock req t) := fun _ _ hx => nomatch hx

theorem poolLock (req : Requester) : Statement (.poolLock req) := fun _ _ hx => nomatch hx

theorem hbmLock (req : Requester) : Statement (.hbmLock req) := fun _ _ hx => nomatch hx

theorem ftlLock (req : Requester) : Statement (.ftlLock req) := fun _ _ hx => nomatch hx

theorem linkLock (req : Requester) : Statement (.linkLock req) := fun _ _ hx => nomatch hx

theorem timeLock (req : Requester) : Statement (.timeLock req) := fun _ _ hx => nomatch hx

theorem depLock (req : Requester) : Statement (.depLock req) := fun _ _ hx => nomatch hx

theorem pwrLock (req : Requester) : Statement (.pwrLock req) := fun _ _ hx => nomatch hx

theorem diagLock (req : Requester) : Statement (.diagLock req) := fun _ _ hx => nomatch hx

theorem registerWrite (req : Requester) (off : Nat) (v : W64) (bytes : Nat) : Statement (.registerWrite req off v bytes) := fun _ _ hx => nomatch hx

theorem ackReceived (port : Fin 12) (seq : Nat) : Statement (.ackReceived port seq) := fun _ _ hx => nomatch hx

theorem trainingDone (port : Fin 12) (rate : Nat) : Statement (.trainingDone port rate) := fun _ _ hx => nomatch hx

theorem lowInputEnd (mv : Nat) : Statement (.lowInputEnd mv) := fun _ _ hx => nomatch hx

theorem hbmStackCool (stack : Fin 12) (temp : Nat) : Statement (.hbmStackCool stack temp) := fun _ _ hx => nomatch hx

theorem flushWritebackDone (tok : Nat) (g : Nat) : Statement (.flushWritebackDone tok g) := fun _ _ hx => nomatch hx

theorem videoFrame (tok : Nat) (used : Nat) (frame : Option Picture) : Statement (.videoFrame tok used frame) := fun _ _ hx => nomatch hx

theorem scanPacket (tok : Nat) : Statement (.scanPacket tok) := fun _ _ hx => nomatch hx

theorem replayWindowWrite (req : Requester) (v : W32) : Statement (.replayWindowWrite req v) := fun _ _ hx => nomatch hx

theorem pfcFrame (port : Fin 12) (prio : Nat) (pause : Bool) : Statement (.pfcFrame port prio pause) := fun _ _ hx => nomatch hx

end Sys2Proof.Laws.WellFormed
end

