-- ==== Sys2Proof/Laws/State.lean ====
section
/-! SUPPORT. What each plain update of the state leaves alone: one lemma per update and field, true by definition. -/

set_option Elab.async false

namespace Sys2Proof.Machine

variable (s : State)

@[simp] theorem State.setReg_pending (o : Nat) (v : W32) : (s.setReg o v).pending = s.pending := rfl
@[simp] theorem State.setReg_silicon (o : Nat) (v : W32) : (s.setReg o v).silicon = s.silicon := rfl
@[simp] theorem State.setReg_held (o : Nat) (v : W32) : (s.setReg o v).held = s.held := rfl
@[simp] theorem State.setReg_stagePcie (o : Nat) (v : W32) : (s.setReg o v).stagePcie = s.stagePcie := rfl
@[simp] theorem State.setReg_stageMgmt (o : Nat) (v : W32) : (s.setReg o v).stageMgmt = s.stageMgmt := rfl
@[simp] theorem State.setReg_heldFields (o : Nat) (v : W32) : (s.setReg o v).heldFields = s.heldFields := rfl
@[simp] theorem State.setReg_lc (o : Nat) (v : W32) : (s.setReg o v).lc = s.lc := rfl
@[simp] theorem State.setReg_nonceCtr (o : Nat) (v : W32) : (s.setReg o v).nonceCtr = s.nonceCtr := rfl
@[simp] theorem State.setReg_freeCtr (o : Nat) (v : W32) : (s.setReg o v).freeCtr = s.freeCtr := rfl
@[simp] theorem State.setReg_slotA (o : Nat) (v : W32) : (s.setReg o v).slotA = s.slotA := rfl
@[simp] theorem State.setReg_slotB (o : Nat) (v : W32) : (s.setReg o v).slotB = s.slotB := rfl
@[simp] theorem State.setReg_sb (o : Nat) (v : W32) : (s.setReg o v).sb = s.sb := rfl
@[simp] theorem State.setReg_tiles (o : Nat) (v : W32) : (s.setReg o v).tiles = s.tiles := rfl
@[simp] theorem State.setReg_links (o : Nat) (v : W32) : (s.setReg o v).links = s.links := rfl
@[simp] theorem State.setReg_pal (o : Nat) (v : W32) : (s.setReg o v).pal = s.pal := rfl
@[simp] theorem State.setReg_acc (o : Nat) (v : W32) : (s.setReg o v).acc = s.acc := rfl
@[simp] theorem State.setReg_shr (o : Nat) (v : W32) : (s.setReg o v).shr = s.shr := rfl
@[simp] theorem State.setReg_progs (o : Nat) (v : W32) : (s.setReg o v).progs = s.progs := rfl
@[simp] theorem State.setReg_scenes (o : Nat) (v : W32) : (s.setReg o v).scenes = s.scenes := rfl
@[simp] theorem State.setReg_streams (o : Nat) (v : W32) : (s.setReg o v).streams = s.streams := rfl
@[simp] theorem State.setReg_pool (o : Nat) (v : W32) : (s.setReg o v).pool = s.pool := rfl
@[simp] theorem State.setReg_hbm (o : Nat) (v : W32) : (s.setReg o v).hbm = s.hbm := rfl
@[simp] theorem State.setReg_badLines (o : Nat) (v : W32) : (s.setReg o v).badLines = s.badLines := rfl
@[simp] theorem State.setReg_flash (o : Nat) (v : W32) : (s.setReg o v).flash = s.flash := rfl
@[simp] theorem State.setReg_gran (o : Nat) (v : W32) : (s.setReg o v).gran = s.gran := rfl
@[simp] theorem State.setReg_sweep (o : Nat) (v : W32) : (s.setReg o v).sweep = s.sweep := rfl
@[simp] theorem State.setReg_blocks (o : Nat) (v : W32) : (s.setReg o v).blocks = s.blocks := rfl
@[simp] theorem State.setReg_ftl (o : Nat) (v : W32) : (s.setReg o v).ftl = s.ftl := rfl
@[simp] theorem State.setReg_flashBad (o : Nat) (v : W32) : (s.setReg o v).flashBad = s.flashBad := rfl
@[simp] theorem State.setReg_fillQ (o : Nat) (v : W32) : (s.setReg o v).fillQ = s.fillQ := rfl
@[simp] theorem State.setReg_buckets (o : Nat) (v : W32) : (s.setReg o v).buckets = s.buckets := rfl
@[simp] theorem State.setReg_heldReqs (o : Nat) (v : W32) : (s.setReg o v).heldReqs = s.heldReqs := rfl
@[simp] theorem State.setReg_host (o : Nat) (v : W32) : (s.setReg o v).host = s.host := rfl
@[simp] theorem State.setReg_hostReject (o : Nat) (v : W32) : (s.setReg o v).hostReject = s.hostReject := rfl
@[simp] theorem State.setReg_objs (o : Nat) (v : W32) : (s.setReg o v).objs = s.objs := rfl
@[simp] theorem State.setReg_queues (o : Nat) (v : W32) : (s.setReg o v).queues = s.queues := rfl
@[simp] theorem State.setReg_cmds (o : Nat) (v : W32) : (s.setReg o v).cmds = s.cmds := rfl
@[simp] theorem State.setReg_nextTok (o : Nat) (v : W32) : (s.setReg o v).nextTok = s.nextTok := rfl
@[simp] theorem State.setReg_sch (o : Nat) (v : W32) : (s.setReg o v).sch = s.sch := rfl
@[simp] theorem State.setReg_itNow (o : Nat) (v : W32) : (s.setReg o v).itNow = s.itNow := rfl
@[simp] theorem State.setReg_ports (o : Nat) (v : W32) : (s.setReg o v).ports = s.ports := rfl
@[simp] theorem State.setReg_openTx (o : Nat) (v : W32) : (s.setReg o v).openTx = s.openTx := rfl
@[simp] theorem State.setReg_nextTx (o : Nat) (v : W32) : (s.setReg o v).nextTx = s.nextTx := rfl
@[simp] theorem State.setReg_seqCtr (o : Nat) (v : W32) : (s.setReg o v).seqCtr = s.seqCtr := rfl
@[simp] theorem State.setReg_sources (o : Nat) (v : W32) : (s.setReg o v).sources = s.sources := rfl
@[simp] theorem State.setReg_qpRate (o : Nat) (v : W32) : (s.setReg o v).qpRate = s.qpRate := rfl
@[simp] theorem State.setReg_qpAt (o : Nat) (v : W32) : (s.setReg o v).qpAt = s.qpAt := rfl
@[simp] theorem State.setReg_time (o : Nat) (v : W32) : (s.setReg o v).time = s.time := rfl
@[simp] theorem State.setReg_mapped (o : Nat) (v : W32) : (s.setReg o v).mapped = s.mapped := rfl
@[simp] theorem State.setReg_ingest (o : Nat) (v : W32) : (s.setReg o v).ingest = s.ingest := rfl
@[simp] theorem State.setReg_claims (o : Nat) (v : W32) : (s.setReg o v).claims = s.claims := rfl
@[simp] theorem State.setReg_power (o : Nat) (v : W32) : (s.setReg o v).power = s.power := rfl
@[simp] theorem State.setReg_primerJob (o : Nat) (v : W32) : (s.setReg o v).primerJob = s.primerJob := rfl
@[simp] theorem State.setReg_switchTo (o : Nat) (v : W32) : (s.setReg o v).switchTo = s.switchTo := rfl
@[simp] theorem State.setReg_abandoned (o : Nat) (v : W32) : (s.setReg o v).abandoned = s.abandoned := rfl
@[simp] theorem State.setReg_abandonedUnits (o : Nat) (v : W32) : (s.setReg o v).abandonedUnits = s.abandonedUnits := rfl
@[simp] theorem State.setReg_safeIt (o : Nat) (v : W32) : (s.setReg o v).safeIt = s.safeIt := rfl
@[simp] theorem State.setReg_coldPend (o : Nat) (v : W32) : (s.setReg o v).coldPend = s.coldPend := rfl

@[simp] theorem State.setReg64_pending (o v : Nat) : (s.setReg64 o v).pending = s.pending := rfl
@[simp] theorem State.setReg64_silicon (o v : Nat) : (s.setReg64 o v).silicon = s.silicon := rfl
@[simp] theorem State.setReg64_held (o v : Nat) : (s.setReg64 o v).held = s.held := rfl
@[simp] theorem State.setReg64_stagePcie (o v : Nat) : (s.setReg64 o v).stagePcie = s.stagePcie := rfl
@[simp] theorem State.setReg64_stageMgmt (o v : Nat) : (s.setReg64 o v).stageMgmt = s.stageMgmt := rfl
@[simp] theorem State.setReg64_heldFields (o v : Nat) : (s.setReg64 o v).heldFields = s.heldFields := rfl
@[simp] theorem State.setReg64_lc (o v : Nat) : (s.setReg64 o v).lc = s.lc := rfl
@[simp] theorem State.setReg64_nonceCtr (o v : Nat) : (s.setReg64 o v).nonceCtr = s.nonceCtr := rfl
@[simp] theorem State.setReg64_freeCtr (o v : Nat) : (s.setReg64 o v).freeCtr = s.freeCtr := rfl
@[simp] theorem State.setReg64_slotA (o v : Nat) : (s.setReg64 o v).slotA = s.slotA := rfl
@[simp] theorem State.setReg64_slotB (o v : Nat) : (s.setReg64 o v).slotB = s.slotB := rfl
@[simp] theorem State.setReg64_sb (o v : Nat) : (s.setReg64 o v).sb = s.sb := rfl
@[simp] theorem State.setReg64_tiles (o v : Nat) : (s.setReg64 o v).tiles = s.tiles := rfl
@[simp] theorem State.setReg64_links (o v : Nat) : (s.setReg64 o v).links = s.links := rfl
@[simp] theorem State.setReg64_pal (o v : Nat) : (s.setReg64 o v).pal = s.pal := rfl
@[simp] theorem State.setReg64_acc (o v : Nat) : (s.setReg64 o v).acc = s.acc := rfl
@[simp] theorem State.setReg64_shr (o v : Nat) : (s.setReg64 o v).shr = s.shr := rfl
@[simp] theorem State.setReg64_progs (o v : Nat) : (s.setReg64 o v).progs = s.progs := rfl
@[simp] theorem State.setReg64_scenes (o v : Nat) : (s.setReg64 o v).scenes = s.scenes := rfl
@[simp] theorem State.setReg64_streams (o v : Nat) : (s.setReg64 o v).streams = s.streams := rfl
@[simp] theorem State.setReg64_pool (o v : Nat) : (s.setReg64 o v).pool = s.pool := rfl
@[simp] theorem State.setReg64_hbm (o v : Nat) : (s.setReg64 o v).hbm = s.hbm := rfl
@[simp] theorem State.setReg64_badLines (o v : Nat) : (s.setReg64 o v).badLines = s.badLines := rfl
@[simp] theorem State.setReg64_flash (o v : Nat) : (s.setReg64 o v).flash = s.flash := rfl
@[simp] theorem State.setReg64_gran (o v : Nat) : (s.setReg64 o v).gran = s.gran := rfl
@[simp] theorem State.setReg64_sweep (o v : Nat) : (s.setReg64 o v).sweep = s.sweep := rfl
@[simp] theorem State.setReg64_blocks (o v : Nat) : (s.setReg64 o v).blocks = s.blocks := rfl
@[simp] theorem State.setReg64_ftl (o v : Nat) : (s.setReg64 o v).ftl = s.ftl := rfl
@[simp] theorem State.setReg64_flashBad (o v : Nat) : (s.setReg64 o v).flashBad = s.flashBad := rfl
@[simp] theorem State.setReg64_fillQ (o v : Nat) : (s.setReg64 o v).fillQ = s.fillQ := rfl
@[simp] theorem State.setReg64_buckets (o v : Nat) : (s.setReg64 o v).buckets = s.buckets := rfl
@[simp] theorem State.setReg64_heldReqs (o v : Nat) : (s.setReg64 o v).heldReqs = s.heldReqs := rfl
@[simp] theorem State.setReg64_host (o v : Nat) : (s.setReg64 o v).host = s.host := rfl
@[simp] theorem State.setReg64_hostReject (o v : Nat) : (s.setReg64 o v).hostReject = s.hostReject := rfl
@[simp] theorem State.setReg64_objs (o v : Nat) : (s.setReg64 o v).objs = s.objs := rfl
@[simp] theorem State.setReg64_queues (o v : Nat) : (s.setReg64 o v).queues = s.queues := rfl
@[simp] theorem State.setReg64_cmds (o v : Nat) : (s.setReg64 o v).cmds = s.cmds := rfl
@[simp] theorem State.setReg64_nextTok (o v : Nat) : (s.setReg64 o v).nextTok = s.nextTok := rfl
@[simp] theorem State.setReg64_sch (o v : Nat) : (s.setReg64 o v).sch = s.sch := rfl
@[simp] theorem State.setReg64_itNow (o v : Nat) : (s.setReg64 o v).itNow = s.itNow := rfl
@[simp] theorem State.setReg64_ports (o v : Nat) : (s.setReg64 o v).ports = s.ports := rfl
@[simp] theorem State.setReg64_openTx (o v : Nat) : (s.setReg64 o v).openTx = s.openTx := rfl
@[simp] theorem State.setReg64_nextTx (o v : Nat) : (s.setReg64 o v).nextTx = s.nextTx := rfl
@[simp] theorem State.setReg64_seqCtr (o v : Nat) : (s.setReg64 o v).seqCtr = s.seqCtr := rfl
@[simp] theorem State.setReg64_sources (o v : Nat) : (s.setReg64 o v).sources = s.sources := rfl
@[simp] theorem State.setReg64_qpRate (o v : Nat) : (s.setReg64 o v).qpRate = s.qpRate := rfl
@[simp] theorem State.setReg64_qpAt (o v : Nat) : (s.setReg64 o v).qpAt = s.qpAt := rfl
@[simp] theorem State.setReg64_time (o v : Nat) : (s.setReg64 o v).time = s.time := rfl
@[simp] theorem State.setReg64_mapped (o v : Nat) : (s.setReg64 o v).mapped = s.mapped := rfl
@[simp] theorem State.setReg64_ingest (o v : Nat) : (s.setReg64 o v).ingest = s.ingest := rfl
@[simp] theorem State.setReg64_claims (o v : Nat) : (s.setReg64 o v).claims = s.claims := rfl
@[simp] theorem State.setReg64_power (o v : Nat) : (s.setReg64 o v).power = s.power := rfl
@[simp] theorem State.setReg64_primerJob (o v : Nat) : (s.setReg64 o v).primerJob = s.primerJob := rfl
@[simp] theorem State.setReg64_switchTo (o v : Nat) : (s.setReg64 o v).switchTo = s.switchTo := rfl
@[simp] theorem State.setReg64_abandoned (o v : Nat) : (s.setReg64 o v).abandoned = s.abandoned := rfl
@[simp] theorem State.setReg64_abandonedUnits (o v : Nat) : (s.setReg64 o v).abandonedUnits = s.abandonedUnits := rfl
@[simp] theorem State.setReg64_safeIt (o v : Nat) : (s.setReg64 o v).safeIt = s.safeIt := rfl
@[simp] theorem State.setReg64_coldPend (o v : Nat) : (s.setReg64 o v).coldPend = s.coldPend := rfl

@[simp] theorem State.setFld_pending (o hi lo x : Nat) : (s.setFld o hi lo x).pending = s.pending := rfl
@[simp] theorem State.setFld_silicon (o hi lo x : Nat) : (s.setFld o hi lo x).silicon = s.silicon := rfl
@[simp] theorem State.setFld_held (o hi lo x : Nat) : (s.setFld o hi lo x).held = s.held := rfl
@[simp] theorem State.setFld_stagePcie (o hi lo x : Nat) : (s.setFld o hi lo x).stagePcie = s.stagePcie := rfl
@[simp] theorem State.setFld_stageMgmt (o hi lo x : Nat) : (s.setFld o hi lo x).stageMgmt = s.stageMgmt := rfl
@[simp] theorem State.setFld_heldFields (o hi lo x : Nat) : (s.setFld o hi lo x).heldFields = s.heldFields := rfl
@[simp] theorem State.setFld_lc (o hi lo x : Nat) : (s.setFld o hi lo x).lc = s.lc := rfl
@[simp] theorem State.setFld_nonceCtr (o hi lo x : Nat) : (s.setFld o hi lo x).nonceCtr = s.nonceCtr := rfl
@[simp] theorem State.setFld_freeCtr (o hi lo x : Nat) : (s.setFld o hi lo x).freeCtr = s.freeCtr := rfl
@[simp] theorem State.setFld_slotA (o hi lo x : Nat) : (s.setFld o hi lo x).slotA = s.slotA := rfl
@[simp] theorem State.setFld_slotB (o hi lo x : Nat) : (s.setFld o hi lo x).slotB = s.slotB := rfl
@[simp] theorem State.setFld_sb (o hi lo x : Nat) : (s.setFld o hi lo x).sb = s.sb := rfl
@[simp] theorem State.setFld_tiles (o hi lo x : Nat) : (s.setFld o hi lo x).tiles = s.tiles := rfl
@[simp] theorem State.setFld_links (o hi lo x : Nat) : (s.setFld o hi lo x).links = s.links := rfl
@[simp] theorem State.setFld_pal (o hi lo x : Nat) : (s.setFld o hi lo x).pal = s.pal := rfl
@[simp] theorem State.setFld_acc (o hi lo x : Nat) : (s.setFld o hi lo x).acc = s.acc := rfl
@[simp] theorem State.setFld_shr (o hi lo x : Nat) : (s.setFld o hi lo x).shr = s.shr := rfl
@[simp] theorem State.setFld_progs (o hi lo x : Nat) : (s.setFld o hi lo x).progs = s.progs := rfl
@[simp] theorem State.setFld_scenes (o hi lo x : Nat) : (s.setFld o hi lo x).scenes = s.scenes := rfl
@[simp] theorem State.setFld_streams (o hi lo x : Nat) : (s.setFld o hi lo x).streams = s.streams := rfl
@[simp] theorem State.setFld_pool (o hi lo x : Nat) : (s.setFld o hi lo x).pool = s.pool := rfl
@[simp] theorem State.setFld_hbm (o hi lo x : Nat) : (s.setFld o hi lo x).hbm = s.hbm := rfl
@[simp] theorem State.setFld_badLines (o hi lo x : Nat) : (s.setFld o hi lo x).badLines = s.badLines := rfl
@[simp] theorem State.setFld_flash (o hi lo x : Nat) : (s.setFld o hi lo x).flash = s.flash := rfl
@[simp] theorem State.setFld_gran (o hi lo x : Nat) : (s.setFld o hi lo x).gran = s.gran := rfl
@[simp] theorem State.setFld_sweep (o hi lo x : Nat) : (s.setFld o hi lo x).sweep = s.sweep := rfl
@[simp] theorem State.setFld_blocks (o hi lo x : Nat) : (s.setFld o hi lo x).blocks = s.blocks := rfl
@[simp] theorem State.setFld_ftl (o hi lo x : Nat) : (s.setFld o hi lo x).ftl = s.ftl := rfl
@[simp] theorem State.setFld_flashBad (o hi lo x : Nat) : (s.setFld o hi lo x).flashBad = s.flashBad := rfl
@[simp] theorem State.setFld_fillQ (o hi lo x : Nat) : (s.setFld o hi lo x).fillQ = s.fillQ := rfl
@[simp] theorem State.setFld_buckets (o hi lo x : Nat) : (s.setFld o hi lo x).buckets = s.buckets := rfl
@[simp] theorem State.setFld_heldReqs (o hi lo x : Nat) : (s.setFld o hi lo x).heldReqs = s.heldReqs := rfl
@[simp] theorem State.setFld_host (o hi lo x : Nat) : (s.setFld o hi lo x).host = s.host := rfl
@[simp] theorem State.setFld_hostReject (o hi lo x : Nat) : (s.setFld o hi lo x).hostReject = s.hostReject := rfl
@[simp] theorem State.setFld_objs (o hi lo x : Nat) : (s.setFld o hi lo x).objs = s.objs := rfl
@[simp] theorem State.setFld_queues (o hi lo x : Nat) : (s.setFld o hi lo x).queues = s.queues := rfl
@[simp] theorem State.setFld_cmds (o hi lo x : Nat) : (s.setFld o hi lo x).cmds = s.cmds := rfl
@[simp] theorem State.setFld_nextTok (o hi lo x : Nat) : (s.setFld o hi lo x).nextTok = s.nextTok := rfl
@[simp] theorem State.setFld_sch (o hi lo x : Nat) : (s.setFld o hi lo x).sch = s.sch := rfl
@[simp] theorem State.setFld_itNow (o hi lo x : Nat) : (s.setFld o hi lo x).itNow = s.itNow := rfl
@[simp] theorem State.setFld_ports (o hi lo x : Nat) : (s.setFld o hi lo x).ports = s.ports := rfl
@[simp] theorem State.setFld_openTx (o hi lo x : Nat) : (s.setFld o hi lo x).openTx = s.openTx := rfl
@[simp] theorem State.setFld_nextTx (o hi lo x : Nat) : (s.setFld o hi lo x).nextTx = s.nextTx := rfl
@[simp] theorem State.setFld_seqCtr (o hi lo x : Nat) : (s.setFld o hi lo x).seqCtr = s.seqCtr := rfl
@[simp] theorem State.setFld_sources (o hi lo x : Nat) : (s.setFld o hi lo x).sources = s.sources := rfl
@[simp] theorem State.setFld_qpRate (o hi lo x : Nat) : (s.setFld o hi lo x).qpRate = s.qpRate := rfl
@[simp] theorem State.setFld_qpAt (o hi lo x : Nat) : (s.setFld o hi lo x).qpAt = s.qpAt := rfl
@[simp] theorem State.setFld_time (o hi lo x : Nat) : (s.setFld o hi lo x).time = s.time := rfl
@[simp] theorem State.setFld_mapped (o hi lo x : Nat) : (s.setFld o hi lo x).mapped = s.mapped := rfl
@[simp] theorem State.setFld_ingest (o hi lo x : Nat) : (s.setFld o hi lo x).ingest = s.ingest := rfl
@[simp] theorem State.setFld_claims (o hi lo x : Nat) : (s.setFld o hi lo x).claims = s.claims := rfl
@[simp] theorem State.setFld_power (o hi lo x : Nat) : (s.setFld o hi lo x).power = s.power := rfl
@[simp] theorem State.setFld_primerJob (o hi lo x : Nat) : (s.setFld o hi lo x).primerJob = s.primerJob := rfl
@[simp] theorem State.setFld_switchTo (o hi lo x : Nat) : (s.setFld o hi lo x).switchTo = s.switchTo := rfl
@[simp] theorem State.setFld_abandoned (o hi lo x : Nat) : (s.setFld o hi lo x).abandoned = s.abandoned := rfl
@[simp] theorem State.setFld_abandonedUnits (o hi lo x : Nat) : (s.setFld o hi lo x).abandonedUnits = s.abandonedUnits := rfl
@[simp] theorem State.setFld_safeIt (o hi lo x : Nat) : (s.setFld o hi lo x).safeIt = s.safeIt := rfl
@[simp] theorem State.setFld_coldPend (o hi lo x : Nat) : (s.setFld o hi lo x).coldPend = s.coldPend := rfl

@[simp] theorem State.bump_pending (o n : Nat) : (s.bump o n).pending = s.pending := rfl
@[simp] theorem State.bump_silicon (o n : Nat) : (s.bump o n).silicon = s.silicon := rfl
@[simp] theorem State.bump_held (o n : Nat) : (s.bump o n).held = s.held := rfl
@[simp] theorem State.bump_stagePcie (o n : Nat) : (s.bump o n).stagePcie = s.stagePcie := rfl
@[simp] theorem State.bump_stageMgmt (o n : Nat) : (s.bump o n).stageMgmt = s.stageMgmt := rfl
@[simp] theorem State.bump_heldFields (o n : Nat) : (s.bump o n).heldFields = s.heldFields := rfl
@[simp] theorem State.bump_lc (o n : Nat) : (s.bump o n).lc = s.lc := rfl
@[simp] theorem State.bump_nonceCtr (o n : Nat) : (s.bump o n).nonceCtr = s.nonceCtr := rfl
@[simp] theorem State.bump_freeCtr (o n : Nat) : (s.bump o n).freeCtr = s.freeCtr := rfl
@[simp] theorem State.bump_slotA (o n : Nat) : (s.bump o n).slotA = s.slotA := rfl
@[simp] theorem State.bump_slotB (o n : Nat) : (s.bump o n).slotB = s.slotB := rfl
@[simp] theorem State.bump_sb (o n : Nat) : (s.bump o n).sb = s.sb := rfl
@[simp] theorem State.bump_tiles (o n : Nat) : (s.bump o n).tiles = s.tiles := rfl
@[simp] theorem State.bump_links (o n : Nat) : (s.bump o n).links = s.links := rfl
@[simp] theorem State.bump_pal (o n : Nat) : (s.bump o n).pal = s.pal := rfl
@[simp] theorem State.bump_acc (o n : Nat) : (s.bump o n).acc = s.acc := rfl
@[simp] theorem State.bump_shr (o n : Nat) : (s.bump o n).shr = s.shr := rfl
@[simp] theorem State.bump_progs (o n : Nat) : (s.bump o n).progs = s.progs := rfl
@[simp] theorem State.bump_scenes (o n : Nat) : (s.bump o n).scenes = s.scenes := rfl
@[simp] theorem State.bump_streams (o n : Nat) : (s.bump o n).streams = s.streams := rfl
@[simp] theorem State.bump_pool (o n : Nat) : (s.bump o n).pool = s.pool := rfl
@[simp] theorem State.bump_hbm (o n : Nat) : (s.bump o n).hbm = s.hbm := rfl
@[simp] theorem State.bump_badLines (o n : Nat) : (s.bump o n).badLines = s.badLines := rfl
@[simp] theorem State.bump_flash (o n : Nat) : (s.bump o n).flash = s.flash := rfl
@[simp] theorem State.bump_gran (o n : Nat) : (s.bump o n).gran = s.gran := rfl
@[simp] theorem State.bump_sweep (o n : Nat) : (s.bump o n).sweep = s.sweep := rfl
@[simp] theorem State.bump_blocks (o n : Nat) : (s.bump o n).blocks = s.blocks := rfl
@[simp] theorem State.bump_ftl (o n : Nat) : (s.bump o n).ftl = s.ftl := rfl
@[simp] theorem State.bump_flashBad (o n : Nat) : (s.bump o n).flashBad = s.flashBad := rfl
@[simp] theorem State.bump_fillQ (o n : Nat) : (s.bump o n).fillQ = s.fillQ := rfl
@[simp] theorem State.bump_buckets (o n : Nat) : (s.bump o n).buckets = s.buckets := rfl
@[simp] theorem State.bump_heldReqs (o n : Nat) : (s.bump o n).heldReqs = s.heldReqs := rfl
@[simp] theorem State.bump_host (o n : Nat) : (s.bump o n).host = s.host := rfl
@[simp] theorem State.bump_hostReject (o n : Nat) : (s.bump o n).hostReject = s.hostReject := rfl
@[simp] theorem State.bump_objs (o n : Nat) : (s.bump o n).objs = s.objs := rfl
@[simp] theorem State.bump_queues (o n : Nat) : (s.bump o n).queues = s.queues := rfl
@[simp] theorem State.bump_cmds (o n : Nat) : (s.bump o n).cmds = s.cmds := rfl
@[simp] theorem State.bump_nextTok (o n : Nat) : (s.bump o n).nextTok = s.nextTok := rfl
@[simp] theorem State.bump_sch (o n : Nat) : (s.bump o n).sch = s.sch := rfl
@[simp] theorem State.bump_itNow (o n : Nat) : (s.bump o n).itNow = s.itNow := rfl
@[simp] theorem State.bump_ports (o n : Nat) : (s.bump o n).ports = s.ports := rfl
@[simp] theorem State.bump_openTx (o n : Nat) : (s.bump o n).openTx = s.openTx := rfl
@[simp] theorem State.bump_nextTx (o n : Nat) : (s.bump o n).nextTx = s.nextTx := rfl
@[simp] theorem State.bump_seqCtr (o n : Nat) : (s.bump o n).seqCtr = s.seqCtr := rfl
@[simp] theorem State.bump_sources (o n : Nat) : (s.bump o n).sources = s.sources := rfl
@[simp] theorem State.bump_qpRate (o n : Nat) : (s.bump o n).qpRate = s.qpRate := rfl
@[simp] theorem State.bump_qpAt (o n : Nat) : (s.bump o n).qpAt = s.qpAt := rfl
@[simp] theorem State.bump_time (o n : Nat) : (s.bump o n).time = s.time := rfl
@[simp] theorem State.bump_mapped (o n : Nat) : (s.bump o n).mapped = s.mapped := rfl
@[simp] theorem State.bump_ingest (o n : Nat) : (s.bump o n).ingest = s.ingest := rfl
@[simp] theorem State.bump_claims (o n : Nat) : (s.bump o n).claims = s.claims := rfl
@[simp] theorem State.bump_power (o n : Nat) : (s.bump o n).power = s.power := rfl
@[simp] theorem State.bump_primerJob (o n : Nat) : (s.bump o n).primerJob = s.primerJob := rfl
@[simp] theorem State.bump_switchTo (o n : Nat) : (s.bump o n).switchTo = s.switchTo := rfl
@[simp] theorem State.bump_abandoned (o n : Nat) : (s.bump o n).abandoned = s.abandoned := rfl
@[simp] theorem State.bump_abandonedUnits (o n : Nat) : (s.bump o n).abandonedUnits = s.abandonedUnits := rfl
@[simp] theorem State.bump_safeIt (o n : Nat) : (s.bump o n).safeIt = s.safeIt := rfl
@[simp] theorem State.bump_coldPend (o n : Nat) : (s.bump o n).coldPend = s.coldPend := rfl

@[simp] theorem State.bump64_pending (o n : Nat) : (s.bump64 o n).pending = s.pending := rfl
@[simp] theorem State.bump64_silicon (o n : Nat) : (s.bump64 o n).silicon = s.silicon := rfl
@[simp] theorem State.bump64_held (o n : Nat) : (s.bump64 o n).held = s.held := rfl
@[simp] theorem State.bump64_stagePcie (o n : Nat) : (s.bump64 o n).stagePcie = s.stagePcie := rfl
@[simp] theorem State.bump64_stageMgmt (o n : Nat) : (s.bump64 o n).stageMgmt = s.stageMgmt := rfl
@[simp] theorem State.bump64_heldFields (o n : Nat) : (s.bump64 o n).heldFields = s.heldFields := rfl
@[simp] theorem State.bump64_lc (o n : Nat) : (s.bump64 o n).lc = s.lc := rfl
@[simp] theorem State.bump64_nonceCtr (o n : Nat) : (s.bump64 o n).nonceCtr = s.nonceCtr := rfl
@[simp] theorem State.bump64_freeCtr (o n : Nat) : (s.bump64 o n).freeCtr = s.freeCtr := rfl
@[simp] theorem State.bump64_slotA (o n : Nat) : (s.bump64 o n).slotA = s.slotA := rfl
@[simp] theorem State.bump64_slotB (o n : Nat) : (s.bump64 o n).slotB = s.slotB := rfl
@[simp] theorem State.bump64_sb (o n : Nat) : (s.bump64 o n).sb = s.sb := rfl
@[simp] theorem State.bump64_tiles (o n : Nat) : (s.bump64 o n).tiles = s.tiles := rfl
@[simp] theorem State.bump64_links (o n : Nat) : (s.bump64 o n).links = s.links := rfl
@[simp] theorem State.bump64_pal (o n : Nat) : (s.bump64 o n).pal = s.pal := rfl
@[simp] theorem State.bump64_acc (o n : Nat) : (s.bump64 o n).acc = s.acc := rfl
@[simp] theorem State.bump64_shr (o n : Nat) : (s.bump64 o n).shr = s.shr := rfl
@[simp] theorem State.bump64_progs (o n : Nat) : (s.bump64 o n).progs = s.progs := rfl
@[simp] theorem State.bump64_scenes (o n : Nat) : (s.bump64 o n).scenes = s.scenes := rfl
@[simp] theorem State.bump64_streams (o n : Nat) : (s.bump64 o n).streams = s.streams := rfl
@[simp] theorem State.bump64_pool (o n : Nat) : (s.bump64 o n).pool = s.pool := rfl
@[simp] theorem State.bump64_hbm (o n : Nat) : (s.bump64 o n).hbm = s.hbm := rfl
@[simp] theorem State.bump64_badLines (o n : Nat) : (s.bump64 o n).badLines = s.badLines := rfl
@[simp] theorem State.bump64_flash (o n : Nat) : (s.bump64 o n).flash = s.flash := rfl
@[simp] theorem State.bump64_gran (o n : Nat) : (s.bump64 o n).gran = s.gran := rfl
@[simp] theorem State.bump64_sweep (o n : Nat) : (s.bump64 o n).sweep = s.sweep := rfl
@[simp] theorem State.bump64_blocks (o n : Nat) : (s.bump64 o n).blocks = s.blocks := rfl
@[simp] theorem State.bump64_ftl (o n : Nat) : (s.bump64 o n).ftl = s.ftl := rfl
@[simp] theorem State.bump64_flashBad (o n : Nat) : (s.bump64 o n).flashBad = s.flashBad := rfl
@[simp] theorem State.bump64_fillQ (o n : Nat) : (s.bump64 o n).fillQ = s.fillQ := rfl
@[simp] theorem State.bump64_buckets (o n : Nat) : (s.bump64 o n).buckets = s.buckets := rfl
@[simp] theorem State.bump64_heldReqs (o n : Nat) : (s.bump64 o n).heldReqs = s.heldReqs := rfl
@[simp] theorem State.bump64_host (o n : Nat) : (s.bump64 o n).host = s.host := rfl
@[simp] theorem State.bump64_hostReject (o n : Nat) : (s.bump64 o n).hostReject = s.hostReject := rfl
@[simp] theorem State.bump64_objs (o n : Nat) : (s.bump64 o n).objs = s.objs := rfl
@[simp] theorem State.bump64_queues (o n : Nat) : (s.bump64 o n).queues = s.queues := rfl
@[simp] theorem State.bump64_cmds (o n : Nat) : (s.bump64 o n).cmds = s.cmds := rfl
@[simp] theorem State.bump64_nextTok (o n : Nat) : (s.bump64 o n).nextTok = s.nextTok := rfl
@[simp] theorem State.bump64_sch (o n : Nat) : (s.bump64 o n).sch = s.sch := rfl
@[simp] theorem State.bump64_itNow (o n : Nat) : (s.bump64 o n).itNow = s.itNow := rfl
@[simp] theorem State.bump64_ports (o n : Nat) : (s.bump64 o n).ports = s.ports := rfl
@[simp] theorem State.bump64_openTx (o n : Nat) : (s.bump64 o n).openTx = s.openTx := rfl
@[simp] theorem State.bump64_nextTx (o n : Nat) : (s.bump64 o n).nextTx = s.nextTx := rfl
@[simp] theorem State.bump64_seqCtr (o n : Nat) : (s.bump64 o n).seqCtr = s.seqCtr := rfl
@[simp] theorem State.bump64_sources (o n : Nat) : (s.bump64 o n).sources = s.sources := rfl
@[simp] theorem State.bump64_qpRate (o n : Nat) : (s.bump64 o n).qpRate = s.qpRate := rfl
@[simp] theorem State.bump64_qpAt (o n : Nat) : (s.bump64 o n).qpAt = s.qpAt := rfl
@[simp] theorem State.bump64_time (o n : Nat) : (s.bump64 o n).time = s.time := rfl
@[simp] theorem State.bump64_mapped (o n : Nat) : (s.bump64 o n).mapped = s.mapped := rfl
@[simp] theorem State.bump64_ingest (o n : Nat) : (s.bump64 o n).ingest = s.ingest := rfl
@[simp] theorem State.bump64_claims (o n : Nat) : (s.bump64 o n).claims = s.claims := rfl
@[simp] theorem State.bump64_power (o n : Nat) : (s.bump64 o n).power = s.power := rfl
@[simp] theorem State.bump64_primerJob (o n : Nat) : (s.bump64 o n).primerJob = s.primerJob := rfl
@[simp] theorem State.bump64_switchTo (o n : Nat) : (s.bump64 o n).switchTo = s.switchTo := rfl
@[simp] theorem State.bump64_abandoned (o n : Nat) : (s.bump64 o n).abandoned = s.abandoned := rfl
@[simp] theorem State.bump64_abandonedUnits (o n : Nat) : (s.bump64 o n).abandonedUnits = s.abandonedUnits := rfl
@[simp] theorem State.bump64_safeIt (o n : Nat) : (s.bump64 o n).safeIt = s.safeIt := rfl
@[simp] theorem State.bump64_coldPend (o n : Nat) : (s.bump64 o n).coldPend = s.coldPend := rfl

@[simp] theorem State.bumpF_pending (o hi lo n : Nat) : (s.bumpF o hi lo n).pending = s.pending := rfl
@[simp] theorem State.bumpF_silicon (o hi lo n : Nat) : (s.bumpF o hi lo n).silicon = s.silicon := rfl
@[simp] theorem State.bumpF_held (o hi lo n : Nat) : (s.bumpF o hi lo n).held = s.held := rfl
@[simp] theorem State.bumpF_stagePcie (o hi lo n : Nat) : (s.bumpF o hi lo n).stagePcie = s.stagePcie := rfl
@[simp] theorem State.bumpF_stageMgmt (o hi lo n : Nat) : (s.bumpF o hi lo n).stageMgmt = s.stageMgmt := rfl
@[simp] theorem State.bumpF_heldFields (o hi lo n : Nat) : (s.bumpF o hi lo n).heldFields = s.heldFields := rfl
@[simp] theorem State.bumpF_lc (o hi lo n : Nat) : (s.bumpF o hi lo n).lc = s.lc := rfl
@[simp] theorem State.bumpF_nonceCtr (o hi lo n : Nat) : (s.bumpF o hi lo n).nonceCtr = s.nonceCtr := rfl
@[simp] theorem State.bumpF_freeCtr (o hi lo n : Nat) : (s.bumpF o hi lo n).freeCtr = s.freeCtr := rfl
@[simp] theorem State.bumpF_slotA (o hi lo n : Nat) : (s.bumpF o hi lo n).slotA = s.slotA := rfl
@[simp] theorem State.bumpF_slotB (o hi lo n : Nat) : (s.bumpF o hi lo n).slotB = s.slotB := rfl
@[simp] theorem State.bumpF_sb (o hi lo n : Nat) : (s.bumpF o hi lo n).sb = s.sb := rfl
@[simp] theorem State.bumpF_tiles (o hi lo n : Nat) : (s.bumpF o hi lo n).tiles = s.tiles := rfl
@[simp] theorem State.bumpF_links (o hi lo n : Nat) : (s.bumpF o hi lo n).links = s.links := rfl
@[simp] theorem State.bumpF_pal (o hi lo n : Nat) : (s.bumpF o hi lo n).pal = s.pal := rfl
@[simp] theorem State.bumpF_acc (o hi lo n : Nat) : (s.bumpF o hi lo n).acc = s.acc := rfl
@[simp] theorem State.bumpF_shr (o hi lo n : Nat) : (s.bumpF o hi lo n).shr = s.shr := rfl
@[simp] theorem State.bumpF_progs (o hi lo n : Nat) : (s.bumpF o hi lo n).progs = s.progs := rfl
@[simp] theorem State.bumpF_scenes (o hi lo n : Nat) : (s.bumpF o hi lo n).scenes = s.scenes := rfl
@[simp] theorem State.bumpF_streams (o hi lo n : Nat) : (s.bumpF o hi lo n).streams = s.streams := rfl
@[simp] theorem State.bumpF_pool (o hi lo n : Nat) : (s.bumpF o hi lo n).pool = s.pool := rfl
@[simp] theorem State.bumpF_hbm (o hi lo n : Nat) : (s.bumpF o hi lo n).hbm = s.hbm := rfl
@[simp] theorem State.bumpF_badLines (o hi lo n : Nat) : (s.bumpF o hi lo n).badLines = s.badLines := rfl
@[simp] theorem State.bumpF_flash (o hi lo n : Nat) : (s.bumpF o hi lo n).flash = s.flash := rfl
@[simp] theorem State.bumpF_gran (o hi lo n : Nat) : (s.bumpF o hi lo n).gran = s.gran := rfl
@[simp] theorem State.bumpF_sweep (o hi lo n : Nat) : (s.bumpF o hi lo n).sweep = s.sweep := rfl
@[simp] theorem State.bumpF_blocks (o hi lo n : Nat) : (s.bumpF o hi lo n).blocks = s.blocks := rfl
@[simp] theorem State.bumpF_ftl (o hi lo n : Nat) : (s.bumpF o hi lo n).ftl = s.ftl := rfl
@[simp] theorem State.bumpF_flashBad (o hi lo n : Nat) : (s.bumpF o hi lo n).flashBad = s.flashBad := rfl
@[simp] theorem State.bumpF_fillQ (o hi lo n : Nat) : (s.bumpF o hi lo n).fillQ = s.fillQ := rfl
@[simp] theorem State.bumpF_buckets (o hi lo n : Nat) : (s.bumpF o hi lo n).buckets = s.buckets := rfl
@[simp] theorem State.bumpF_heldReqs (o hi lo n : Nat) : (s.bumpF o hi lo n).heldReqs = s.heldReqs := rfl
@[simp] theorem State.bumpF_host (o hi lo n : Nat) : (s.bumpF o hi lo n).host = s.host := rfl
@[simp] theorem State.bumpF_hostReject (o hi lo n : Nat) : (s.bumpF o hi lo n).hostReject = s.hostReject := rfl
@[simp] theorem State.bumpF_objs (o hi lo n : Nat) : (s.bumpF o hi lo n).objs = s.objs := rfl
@[simp] theorem State.bumpF_queues (o hi lo n : Nat) : (s.bumpF o hi lo n).queues = s.queues := rfl
@[simp] theorem State.bumpF_cmds (o hi lo n : Nat) : (s.bumpF o hi lo n).cmds = s.cmds := rfl
@[simp] theorem State.bumpF_nextTok (o hi lo n : Nat) : (s.bumpF o hi lo n).nextTok = s.nextTok := rfl
@[simp] theorem State.bumpF_sch (o hi lo n : Nat) : (s.bumpF o hi lo n).sch = s.sch := rfl
@[simp] theorem State.bumpF_itNow (o hi lo n : Nat) : (s.bumpF o hi lo n).itNow = s.itNow := rfl
@[simp] theorem State.bumpF_ports (o hi lo n : Nat) : (s.bumpF o hi lo n).ports = s.ports := rfl
@[simp] theorem State.bumpF_openTx (o hi lo n : Nat) : (s.bumpF o hi lo n).openTx = s.openTx := rfl
@[simp] theorem State.bumpF_nextTx (o hi lo n : Nat) : (s.bumpF o hi lo n).nextTx = s.nextTx := rfl
@[simp] theorem State.bumpF_seqCtr (o hi lo n : Nat) : (s.bumpF o hi lo n).seqCtr = s.seqCtr := rfl
@[simp] theorem State.bumpF_sources (o hi lo n : Nat) : (s.bumpF o hi lo n).sources = s.sources := rfl
@[simp] theorem State.bumpF_qpRate (o hi lo n : Nat) : (s.bumpF o hi lo n).qpRate = s.qpRate := rfl
@[simp] theorem State.bumpF_qpAt (o hi lo n : Nat) : (s.bumpF o hi lo n).qpAt = s.qpAt := rfl
@[simp] theorem State.bumpF_time (o hi lo n : Nat) : (s.bumpF o hi lo n).time = s.time := rfl
@[simp] theorem State.bumpF_mapped (o hi lo n : Nat) : (s.bumpF o hi lo n).mapped = s.mapped := rfl
@[simp] theorem State.bumpF_ingest (o hi lo n : Nat) : (s.bumpF o hi lo n).ingest = s.ingest := rfl
@[simp] theorem State.bumpF_claims (o hi lo n : Nat) : (s.bumpF o hi lo n).claims = s.claims := rfl
@[simp] theorem State.bumpF_power (o hi lo n : Nat) : (s.bumpF o hi lo n).power = s.power := rfl
@[simp] theorem State.bumpF_primerJob (o hi lo n : Nat) : (s.bumpF o hi lo n).primerJob = s.primerJob := rfl
@[simp] theorem State.bumpF_switchTo (o hi lo n : Nat) : (s.bumpF o hi lo n).switchTo = s.switchTo := rfl
@[simp] theorem State.bumpF_abandoned (o hi lo n : Nat) : (s.bumpF o hi lo n).abandoned = s.abandoned := rfl
@[simp] theorem State.bumpF_abandonedUnits (o hi lo n : Nat) : (s.bumpF o hi lo n).abandonedUnits = s.abandonedUnits := rfl
@[simp] theorem State.bumpF_safeIt (o hi lo n : Nat) : (s.bumpF o hi lo n).safeIt = s.safeIt := rfl
@[simp] theorem State.bumpF_coldPend (o hi lo n : Nat) : (s.bumpF o hi lo n).coldPend = s.coldPend := rfl

@[simp] theorem State.setTile_pending (t : Nat) (x : Tile) : (s.setTile t x).pending = s.pending := rfl
@[simp] theorem State.setTile_silicon (t : Nat) (x : Tile) : (s.setTile t x).silicon = s.silicon := rfl
@[simp] theorem State.setTile_held (t : Nat) (x : Tile) : (s.setTile t x).held = s.held := rfl
@[simp] theorem State.setTile_regs (t : Nat) (x : Tile) : (s.setTile t x).regs = s.regs := rfl
@[simp] theorem State.setTile_stagePcie (t : Nat) (x : Tile) : (s.setTile t x).stagePcie = s.stagePcie := rfl
@[simp] theorem State.setTile_stageMgmt (t : Nat) (x : Tile) : (s.setTile t x).stageMgmt = s.stageMgmt := rfl
@[simp] theorem State.setTile_heldFields (t : Nat) (x : Tile) : (s.setTile t x).heldFields = s.heldFields := rfl
@[simp] theorem State.setTile_lc (t : Nat) (x : Tile) : (s.setTile t x).lc = s.lc := rfl
@[simp] theorem State.setTile_nonceCtr (t : Nat) (x : Tile) : (s.setTile t x).nonceCtr = s.nonceCtr := rfl
@[simp] theorem State.setTile_freeCtr (t : Nat) (x : Tile) : (s.setTile t x).freeCtr = s.freeCtr := rfl
@[simp] theorem State.setTile_slotA (t : Nat) (x : Tile) : (s.setTile t x).slotA = s.slotA := rfl
@[simp] theorem State.setTile_slotB (t : Nat) (x : Tile) : (s.setTile t x).slotB = s.slotB := rfl
@[simp] theorem State.setTile_sb (t : Nat) (x : Tile) : (s.setTile t x).sb = s.sb := rfl
@[simp] theorem State.setTile_links (t : Nat) (x : Tile) : (s.setTile t x).links = s.links := rfl
@[simp] theorem State.setTile_pal (t : Nat) (x : Tile) : (s.setTile t x).pal = s.pal := rfl
@[simp] theorem State.setTile_acc (t : Nat) (x : Tile) : (s.setTile t x).acc = s.acc := rfl
@[simp] theorem State.setTile_shr (t : Nat) (x : Tile) : (s.setTile t x).shr = s.shr := rfl
@[simp] theorem State.setTile_progs (t : Nat) (x : Tile) : (s.setTile t x).progs = s.progs := rfl
@[simp] theorem State.setTile_scenes (t : Nat) (x : Tile) : (s.setTile t x).scenes = s.scenes := rfl
@[simp] theorem State.setTile_streams (t : Nat) (x : Tile) : (s.setTile t x).streams = s.streams := rfl
@[simp] theorem State.setTile_pool (t : Nat) (x : Tile) : (s.setTile t x).pool = s.pool := rfl
@[simp] theorem State.setTile_hbm (t : Nat) (x : Tile) : (s.setTile t x).hbm = s.hbm := rfl
@[simp] theorem State.setTile_badLines (t : Nat) (x : Tile) : (s.setTile t x).badLines = s.badLines := rfl
@[simp] theorem State.setTile_flash (t : Nat) (x : Tile) : (s.setTile t x).flash = s.flash := rfl
@[simp] theorem State.setTile_gran (t : Nat) (x : Tile) : (s.setTile t x).gran = s.gran := rfl
@[simp] theorem State.setTile_sweep (t : Nat) (x : Tile) : (s.setTile t x).sweep = s.sweep := rfl
@[simp] theorem State.setTile_blocks (t : Nat) (x : Tile) : (s.setTile t x).blocks = s.blocks := rfl
@[simp] theorem State.setTile_ftl (t : Nat) (x : Tile) : (s.setTile t x).ftl = s.ftl := rfl
@[simp] theorem State.setTile_flashBad (t : Nat) (x : Tile) : (s.setTile t x).flashBad = s.flashBad := rfl
@[simp] theorem State.setTile_fillQ (t : Nat) (x : Tile) : (s.setTile t x).fillQ = s.fillQ := rfl
@[simp] theorem State.setTile_buckets (t : Nat) (x : Tile) : (s.setTile t x).buckets = s.buckets := rfl
@[simp] theorem State.setTile_heldReqs (t : Nat) (x : Tile) : (s.setTile t x).heldReqs = s.heldReqs := rfl
@[simp] theorem State.setTile_host (t : Nat) (x : Tile) : (s.setTile t x).host = s.host := rfl
@[simp] theorem State.setTile_hostReject (t : Nat) (x : Tile) : (s.setTile t x).hostReject = s.hostReject := rfl
@[simp] theorem State.setTile_objs (t : Nat) (x : Tile) : (s.setTile t x).objs = s.objs := rfl
@[simp] theorem State.setTile_queues (t : Nat) (x : Tile) : (s.setTile t x).queues = s.queues := rfl
@[simp] theorem State.setTile_cmds (t : Nat) (x : Tile) : (s.setTile t x).cmds = s.cmds := rfl
@[simp] theorem State.setTile_nextTok (t : Nat) (x : Tile) : (s.setTile t x).nextTok = s.nextTok := rfl
@[simp] theorem State.setTile_sch (t : Nat) (x : Tile) : (s.setTile t x).sch = s.sch := rfl
@[simp] theorem State.setTile_itNow (t : Nat) (x : Tile) : (s.setTile t x).itNow = s.itNow := rfl
@[simp] theorem State.setTile_ports (t : Nat) (x : Tile) : (s.setTile t x).ports = s.ports := rfl
@[simp] theorem State.setTile_openTx (t : Nat) (x : Tile) : (s.setTile t x).openTx = s.openTx := rfl
@[simp] theorem State.setTile_nextTx (t : Nat) (x : Tile) : (s.setTile t x).nextTx = s.nextTx := rfl
@[simp] theorem State.setTile_seqCtr (t : Nat) (x : Tile) : (s.setTile t x).seqCtr = s.seqCtr := rfl
@[simp] theorem State.setTile_sources (t : Nat) (x : Tile) : (s.setTile t x).sources = s.sources := rfl
@[simp] theorem State.setTile_qpRate (t : Nat) (x : Tile) : (s.setTile t x).qpRate = s.qpRate := rfl
@[simp] theorem State.setTile_qpAt (t : Nat) (x : Tile) : (s.setTile t x).qpAt = s.qpAt := rfl
@[simp] theorem State.setTile_time (t : Nat) (x : Tile) : (s.setTile t x).time = s.time := rfl
@[simp] theorem State.setTile_mapped (t : Nat) (x : Tile) : (s.setTile t x).mapped = s.mapped := rfl
@[simp] theorem State.setTile_ingest (t : Nat) (x : Tile) : (s.setTile t x).ingest = s.ingest := rfl
@[simp] theorem State.setTile_claims (t : Nat) (x : Tile) : (s.setTile t x).claims = s.claims := rfl
@[simp] theorem State.setTile_power (t : Nat) (x : Tile) : (s.setTile t x).power = s.power := rfl
@[simp] theorem State.setTile_primerJob (t : Nat) (x : Tile) : (s.setTile t x).primerJob = s.primerJob := rfl
@[simp] theorem State.setTile_switchTo (t : Nat) (x : Tile) : (s.setTile t x).switchTo = s.switchTo := rfl
@[simp] theorem State.setTile_abandoned (t : Nat) (x : Tile) : (s.setTile t x).abandoned = s.abandoned := rfl
@[simp] theorem State.setTile_abandonedUnits (t : Nat) (x : Tile) : (s.setTile t x).abandonedUnits = s.abandonedUnits := rfl
@[simp] theorem State.setTile_safeIt (t : Nat) (x : Tile) : (s.setTile t x).safeIt = s.safeIt := rfl
@[simp] theorem State.setTile_coldPend (t : Nat) (x : Tile) : (s.setTile t x).coldPend = s.coldPend := rfl

@[simp] theorem State.setPslot_pending (i : Nat) (x : PSlot) : (s.setPslot i x).pending = s.pending := rfl
@[simp] theorem State.setPslot_silicon (i : Nat) (x : PSlot) : (s.setPslot i x).silicon = s.silicon := rfl
@[simp] theorem State.setPslot_held (i : Nat) (x : PSlot) : (s.setPslot i x).held = s.held := rfl
@[simp] theorem State.setPslot_regs (i : Nat) (x : PSlot) : (s.setPslot i x).regs = s.regs := rfl
@[simp] theorem State.setPslot_stagePcie (i : Nat) (x : PSlot) : (s.setPslot i x).stagePcie = s.stagePcie := rfl
@[simp] theorem State.setPslot_stageMgmt (i : Nat) (x : PSlot) : (s.setPslot i x).stageMgmt = s.stageMgmt := rfl
@[simp] theorem State.setPslot_heldFields (i : Nat) (x : PSlot) : (s.setPslot i x).heldFields = s.heldFields := rfl
@[simp] theorem State.setPslot_lc (i : Nat) (x : PSlot) : (s.setPslot i x).lc = s.lc := rfl
@[simp] theorem State.setPslot_nonceCtr (i : Nat) (x : PSlot) : (s.setPslot i x).nonceCtr = s.nonceCtr := rfl
@[simp] theorem State.setPslot_freeCtr (i : Nat) (x : PSlot) : (s.setPslot i x).freeCtr = s.freeCtr := rfl
@[simp] theorem State.setPslot_slotA (i : Nat) (x : PSlot) : (s.setPslot i x).slotA = s.slotA := rfl
@[simp] theorem State.setPslot_slotB (i : Nat) (x : PSlot) : (s.setPslot i x).slotB = s.slotB := rfl
@[simp] theorem State.setPslot_sb (i : Nat) (x : PSlot) : (s.setPslot i x).sb = s.sb := rfl
@[simp] theorem State.setPslot_tiles (i : Nat) (x : PSlot) : (s.setPslot i x).tiles = s.tiles := rfl
@[simp] theorem State.setPslot_links (i : Nat) (x : PSlot) : (s.setPslot i x).links = s.links := rfl
@[simp] theorem State.setPslot_pal (i : Nat) (x : PSlot) : (s.setPslot i x).pal = s.pal := rfl
@[simp] theorem State.setPslot_acc (i : Nat) (x : PSlot) : (s.setPslot i x).acc = s.acc := rfl
@[simp] theorem State.setPslot_shr (i : Nat) (x : PSlot) : (s.setPslot i x).shr = s.shr := rfl
@[simp] theorem State.setPslot_scenes (i : Nat) (x : PSlot) : (s.setPslot i x).scenes = s.scenes := rfl
@[simp] theorem State.setPslot_streams (i : Nat) (x : PSlot) : (s.setPslot i x).streams = s.streams := rfl
@[simp] theorem State.setPslot_pool (i : Nat) (x : PSlot) : (s.setPslot i x).pool = s.pool := rfl
@[simp] theorem State.setPslot_hbm (i : Nat) (x : PSlot) : (s.setPslot i x).hbm = s.hbm := rfl
@[simp] theorem State.setPslot_badLines (i : Nat) (x : PSlot) : (s.setPslot i x).badLines = s.badLines := rfl
@[simp] theorem State.setPslot_flash (i : Nat) (x : PSlot) : (s.setPslot i x).flash = s.flash := rfl
@[simp] theorem State.setPslot_gran (i : Nat) (x : PSlot) : (s.setPslot i x).gran = s.gran := rfl
@[simp] theorem State.setPslot_sweep (i : Nat) (x : PSlot) : (s.setPslot i x).sweep = s.sweep := rfl
@[simp] theorem State.setPslot_blocks (i : Nat) (x : PSlot) : (s.setPslot i x).blocks = s.blocks := rfl
@[simp] theorem State.setPslot_ftl (i : Nat) (x : PSlot) : (s.setPslot i x).ftl = s.ftl := rfl
@[simp] theorem State.setPslot_flashBad (i : Nat) (x : PSlot) : (s.setPslot i x).flashBad = s.flashBad := rfl
@[simp] theorem State.setPslot_fillQ (i : Nat) (x : PSlot) : (s.setPslot i x).fillQ = s.fillQ := rfl
@[simp] theorem State.setPslot_buckets (i : Nat) (x : PSlot) : (s.setPslot i x).buckets = s.buckets := rfl
@[simp] theorem State.setPslot_heldReqs (i : Nat) (x : PSlot) : (s.setPslot i x).heldReqs = s.heldReqs := rfl
@[simp] theorem State.setPslot_host (i : Nat) (x : PSlot) : (s.setPslot i x).host = s.host := rfl
@[simp] theorem State.setPslot_hostReject (i : Nat) (x : PSlot) : (s.setPslot i x).hostReject = s.hostReject := rfl
@[simp] theorem State.setPslot_objs (i : Nat) (x : PSlot) : (s.setPslot i x).objs = s.objs := rfl
@[simp] theorem State.setPslot_queues (i : Nat) (x : PSlot) : (s.setPslot i x).queues = s.queues := rfl
@[simp] theorem State.setPslot_cmds (i : Nat) (x : PSlot) : (s.setPslot i x).cmds = s.cmds := rfl
@[simp] theorem State.setPslot_nextTok (i : Nat) (x : PSlot) : (s.setPslot i x).nextTok = s.nextTok := rfl
@[simp] theorem State.setPslot_sch (i : Nat) (x : PSlot) : (s.setPslot i x).sch = s.sch := rfl
@[simp] theorem State.setPslot_itNow (i : Nat) (x : PSlot) : (s.setPslot i x).itNow = s.itNow := rfl
@[simp] theorem State.setPslot_ports (i : Nat) (x : PSlot) : (s.setPslot i x).ports = s.ports := rfl
@[simp] theorem State.setPslot_openTx (i : Nat) (x : PSlot) : (s.setPslot i x).openTx = s.openTx := rfl
@[simp] theorem State.setPslot_nextTx (i : Nat) (x : PSlot) : (s.setPslot i x).nextTx = s.nextTx := rfl
@[simp] theorem State.setPslot_seqCtr (i : Nat) (x : PSlot) : (s.setPslot i x).seqCtr = s.seqCtr := rfl
@[simp] theorem State.setPslot_sources (i : Nat) (x : PSlot) : (s.setPslot i x).sources = s.sources := rfl
@[simp] theorem State.setPslot_qpRate (i : Nat) (x : PSlot) : (s.setPslot i x).qpRate = s.qpRate := rfl
@[simp] theorem State.setPslot_qpAt (i : Nat) (x : PSlot) : (s.setPslot i x).qpAt = s.qpAt := rfl
@[simp] theorem State.setPslot_time (i : Nat) (x : PSlot) : (s.setPslot i x).time = s.time := rfl
@[simp] theorem State.setPslot_mapped (i : Nat) (x : PSlot) : (s.setPslot i x).mapped = s.mapped := rfl
@[simp] theorem State.setPslot_ingest (i : Nat) (x : PSlot) : (s.setPslot i x).ingest = s.ingest := rfl
@[simp] theorem State.setPslot_claims (i : Nat) (x : PSlot) : (s.setPslot i x).claims = s.claims := rfl
@[simp] theorem State.setPslot_power (i : Nat) (x : PSlot) : (s.setPslot i x).power = s.power := rfl
@[simp] theorem State.setPslot_primerJob (i : Nat) (x : PSlot) : (s.setPslot i x).primerJob = s.primerJob := rfl
@[simp] theorem State.setPslot_switchTo (i : Nat) (x : PSlot) : (s.setPslot i x).switchTo = s.switchTo := rfl
@[simp] theorem State.setPslot_abandoned (i : Nat) (x : PSlot) : (s.setPslot i x).abandoned = s.abandoned := rfl
@[simp] theorem State.setPslot_abandonedUnits (i : Nat) (x : PSlot) : (s.setPslot i x).abandonedUnits = s.abandonedUnits := rfl
@[simp] theorem State.setPslot_safeIt (i : Nat) (x : PSlot) : (s.setPslot i x).safeIt = s.safeIt := rfl
@[simp] theorem State.setPslot_coldPend (i : Nat) (x : PSlot) : (s.setPslot i x).coldPend = s.coldPend := rfl

@[simp] theorem State.setScene_pending (i : Nat) (x : Option Scene) : (s.setScene i x).pending = s.pending := rfl
@[simp] theorem State.setScene_silicon (i : Nat) (x : Option Scene) : (s.setScene i x).silicon = s.silicon := rfl
@[simp] theorem State.setScene_held (i : Nat) (x : Option Scene) : (s.setScene i x).held = s.held := rfl
@[simp] theorem State.setScene_regs (i : Nat) (x : Option Scene) : (s.setScene i x).regs = s.regs := rfl
@[simp] theorem State.setScene_stagePcie (i : Nat) (x : Option Scene) : (s.setScene i x).stagePcie = s.stagePcie := rfl
@[simp] theorem State.setScene_stageMgmt (i : Nat) (x : Option Scene) : (s.setScene i x).stageMgmt = s.stageMgmt := rfl
@[simp] theorem State.setScene_heldFields (i : Nat) (x : Option Scene) : (s.setScene i x).heldFields = s.heldFields := rfl
@[simp] theorem State.setScene_lc (i : Nat) (x : Option Scene) : (s.setScene i x).lc = s.lc := rfl
@[simp] theorem State.setScene_nonceCtr (i : Nat) (x : Option Scene) : (s.setScene i x).nonceCtr = s.nonceCtr := rfl
@[simp] theorem State.setScene_freeCtr (i : Nat) (x : Option Scene) : (s.setScene i x).freeCtr = s.freeCtr := rfl
@[simp] theorem State.setScene_slotA (i : Nat) (x : Option Scene) : (s.setScene i x).slotA = s.slotA := rfl
@[simp] theorem State.setScene_slotB (i : Nat) (x : Option Scene) : (s.setScene i x).slotB = s.slotB := rfl
@[simp] theorem State.setScene_sb (i : Nat) (x : Option Scene) : (s.setScene i x).sb = s.sb := rfl
@[simp] theorem State.setScene_tiles (i : Nat) (x : Option Scene) : (s.setScene i x).tiles = s.tiles := rfl
@[simp] theorem State.setScene_links (i : Nat) (x : Option Scene) : (s.setScene i x).links = s.links := rfl
@[simp] theorem State.setScene_pal (i : Nat) (x : Option Scene) : (s.setScene i x).pal = s.pal := rfl
@[simp] theorem State.setScene_acc (i : Nat) (x : Option Scene) : (s.setScene i x).acc = s.acc := rfl
@[simp] theorem State.setScene_shr (i : Nat) (x : Option Scene) : (s.setScene i x).shr = s.shr := rfl
@[simp] theorem State.setScene_progs (i : Nat) (x : Option Scene) : (s.setScene i x).progs = s.progs := rfl
@[simp] theorem State.setScene_streams (i : Nat) (x : Option Scene) : (s.setScene i x).streams = s.streams := rfl
@[simp] theorem State.setScene_pool (i : Nat) (x : Option Scene) : (s.setScene i x).pool = s.pool := rfl
@[simp] theorem State.setScene_hbm (i : Nat) (x : Option Scene) : (s.setScene i x).hbm = s.hbm := rfl
@[simp] theorem State.setScene_badLines (i : Nat) (x : Option Scene) : (s.setScene i x).badLines = s.badLines := rfl
@[simp] theorem State.setScene_flash (i : Nat) (x : Option Scene) : (s.setScene i x).flash = s.flash := rfl
@[simp] theorem State.setScene_gran (i : Nat) (x : Option Scene) : (s.setScene i x).gran = s.gran := rfl
@[simp] theorem State.setScene_sweep (i : Nat) (x : Option Scene) : (s.setScene i x).sweep = s.sweep := rfl
@[simp] theorem State.setScene_blocks (i : Nat) (x : Option Scene) : (s.setScene i x).blocks = s.blocks := rfl
@[simp] theorem State.setScene_ftl (i : Nat) (x : Option Scene) : (s.setScene i x).ftl = s.ftl := rfl
@[simp] theorem State.setScene_flashBad (i : Nat) (x : Option Scene) : (s.setScene i x).flashBad = s.flashBad := rfl
@[simp] theorem State.setScene_fillQ (i : Nat) (x : Option Scene) : (s.setScene i x).fillQ = s.fillQ := rfl
@[simp] theorem State.setScene_buckets (i : Nat) (x : Option Scene) : (s.setScene i x).buckets = s.buckets := rfl
@[simp] theorem State.setScene_heldReqs (i : Nat) (x : Option Scene) : (s.setScene i x).heldReqs = s.heldReqs := rfl
@[simp] theorem State.setScene_host (i : Nat) (x : Option Scene) : (s.setScene i x).host = s.host := rfl
@[simp] theorem State.setScene_hostReject (i : Nat) (x : Option Scene) : (s.setScene i x).hostReject = s.hostReject := rfl
@[simp] theorem State.setScene_objs (i : Nat) (x : Option Scene) : (s.setScene i x).objs = s.objs := rfl
@[simp] theorem State.setScene_queues (i : Nat) (x : Option Scene) : (s.setScene i x).queues = s.queues := rfl
@[simp] theorem State.setScene_cmds (i : Nat) (x : Option Scene) : (s.setScene i x).cmds = s.cmds := rfl
@[simp] theorem State.setScene_nextTok (i : Nat) (x : Option Scene) : (s.setScene i x).nextTok = s.nextTok := rfl
@[simp] theorem State.setScene_sch (i : Nat) (x : Option Scene) : (s.setScene i x).sch = s.sch := rfl
@[simp] theorem State.setScene_itNow (i : Nat) (x : Option Scene) : (s.setScene i x).itNow = s.itNow := rfl
@[simp] theorem State.setScene_ports (i : Nat) (x : Option Scene) : (s.setScene i x).ports = s.ports := rfl
@[simp] theorem State.setScene_openTx (i : Nat) (x : Option Scene) : (s.setScene i x).openTx = s.openTx := rfl
@[simp] theorem State.setScene_nextTx (i : Nat) (x : Option Scene) : (s.setScene i x).nextTx = s.nextTx := rfl
@[simp] theorem State.setScene_seqCtr (i : Nat) (x : Option Scene) : (s.setScene i x).seqCtr = s.seqCtr := rfl
@[simp] theorem State.setScene_sources (i : Nat) (x : Option Scene) : (s.setScene i x).sources = s.sources := rfl
@[simp] theorem State.setScene_qpRate (i : Nat) (x : Option Scene) : (s.setScene i x).qpRate = s.qpRate := rfl
@[simp] theorem State.setScene_qpAt (i : Nat) (x : Option Scene) : (s.setScene i x).qpAt = s.qpAt := rfl
@[simp] theorem State.setScene_time (i : Nat) (x : Option Scene) : (s.setScene i x).time = s.time := rfl
@[simp] theorem State.setScene_mapped (i : Nat) (x : Option Scene) : (s.setScene i x).mapped = s.mapped := rfl
@[simp] theorem State.setScene_ingest (i : Nat) (x : Option Scene) : (s.setScene i x).ingest = s.ingest := rfl
@[simp] theorem State.setScene_claims (i : Nat) (x : Option Scene) : (s.setScene i x).claims = s.claims := rfl
@[simp] theorem State.setScene_power (i : Nat) (x : Option Scene) : (s.setScene i x).power = s.power := rfl
@[simp] theorem State.setScene_primerJob (i : Nat) (x : Option Scene) : (s.setScene i x).primerJob = s.primerJob := rfl
@[simp] theorem State.setScene_switchTo (i : Nat) (x : Option Scene) : (s.setScene i x).switchTo = s.switchTo := rfl
@[simp] theorem State.setScene_abandoned (i : Nat) (x : Option Scene) : (s.setScene i x).abandoned = s.abandoned := rfl
@[simp] theorem State.setScene_abandonedUnits (i : Nat) (x : Option Scene) : (s.setScene i x).abandonedUnits = s.abandonedUnits := rfl
@[simp] theorem State.setScene_safeIt (i : Nat) (x : Option Scene) : (s.setScene i x).safeIt = s.safeIt := rfl
@[simp] theorem State.setScene_coldPend (i : Nat) (x : Option Scene) : (s.setScene i x).coldPend = s.coldPend := rfl

@[simp] theorem State.setStrm_pending (i : Nat) (x : Stream) : (s.setStrm i x).pending = s.pending := rfl
@[simp] theorem State.setStrm_silicon (i : Nat) (x : Stream) : (s.setStrm i x).silicon = s.silicon := rfl
@[simp] theorem State.setStrm_held (i : Nat) (x : Stream) : (s.setStrm i x).held = s.held := rfl
@[simp] theorem State.setStrm_regs (i : Nat) (x : Stream) : (s.setStrm i x).regs = s.regs := rfl
@[simp] theorem State.setStrm_stagePcie (i : Nat) (x : Stream) : (s.setStrm i x).stagePcie = s.stagePcie := rfl
@[simp] theorem State.setStrm_stageMgmt (i : Nat) (x : Stream) : (s.setStrm i x).stageMgmt = s.stageMgmt := rfl
@[simp] theorem State.setStrm_heldFields (i : Nat) (x : Stream) : (s.setStrm i x).heldFields = s.heldFields := rfl
@[simp] theorem State.setStrm_lc (i : Nat) (x : Stream) : (s.setStrm i x).lc = s.lc := rfl
@[simp] theorem State.setStrm_nonceCtr (i : Nat) (x : Stream) : (s.setStrm i x).nonceCtr = s.nonceCtr := rfl
@[simp] theorem State.setStrm_freeCtr (i : Nat) (x : Stream) : (s.setStrm i x).freeCtr = s.freeCtr := rfl
@[simp] theorem State.setStrm_slotA (i : Nat) (x : Stream) : (s.setStrm i x).slotA = s.slotA := rfl
@[simp] theorem State.setStrm_slotB (i : Nat) (x : Stream) : (s.setStrm i x).slotB = s.slotB := rfl
@[simp] theorem State.setStrm_sb (i : Nat) (x : Stream) : (s.setStrm i x).sb = s.sb := rfl
@[simp] theorem State.setStrm_tiles (i : Nat) (x : Stream) : (s.setStrm i x).tiles = s.tiles := rfl
@[simp] theorem State.setStrm_links (i : Nat) (x : Stream) : (s.setStrm i x).links = s.links := rfl
@[simp] theorem State.setStrm_pal (i : Nat) (x : Stream) : (s.setStrm i x).pal = s.pal := rfl
@[simp] theorem State.setStrm_acc (i : Nat) (x : Stream) : (s.setStrm i x).acc = s.acc := rfl
@[simp] theorem State.setStrm_shr (i : Nat) (x : Stream) : (s.setStrm i x).shr = s.shr := rfl
@[simp] theorem State.setStrm_progs (i : Nat) (x : Stream) : (s.setStrm i x).progs = s.progs := rfl
@[simp] theorem State.setStrm_scenes (i : Nat) (x : Stream) : (s.setStrm i x).scenes = s.scenes := rfl
@[simp] theorem State.setStrm_pool (i : Nat) (x : Stream) : (s.setStrm i x).pool = s.pool := rfl
@[simp] theorem State.setStrm_hbm (i : Nat) (x : Stream) : (s.setStrm i x).hbm = s.hbm := rfl
@[simp] theorem State.setStrm_badLines (i : Nat) (x : Stream) : (s.setStrm i x).badLines = s.badLines := rfl
@[simp] theorem State.setStrm_flash (i : Nat) (x : Stream) : (s.setStrm i x).flash = s.flash := rfl
@[simp] theorem State.setStrm_gran (i : Nat) (x : Stream) : (s.setStrm i x).gran = s.gran := rfl
@[simp] theorem State.setStrm_sweep (i : Nat) (x : Stream) : (s.setStrm i x).sweep = s.sweep := rfl
@[simp] theorem State.setStrm_blocks (i : Nat) (x : Stream) : (s.setStrm i x).blocks = s.blocks := rfl
@[simp] theorem State.setStrm_ftl (i : Nat) (x : Stream) : (s.setStrm i x).ftl = s.ftl := rfl
@[simp] theorem State.setStrm_flashBad (i : Nat) (x : Stream) : (s.setStrm i x).flashBad = s.flashBad := rfl
@[simp] theorem State.setStrm_fillQ (i : Nat) (x : Stream) : (s.setStrm i x).fillQ = s.fillQ := rfl
@[simp] theorem State.setStrm_buckets (i : Nat) (x : Stream) : (s.setStrm i x).buckets = s.buckets := rfl
@[simp] theorem State.setStrm_heldReqs (i : Nat) (x : Stream) : (s.setStrm i x).heldReqs = s.heldReqs := rfl
@[simp] theorem State.setStrm_host (i : Nat) (x : Stream) : (s.setStrm i x).host = s.host := rfl
@[simp] theorem State.setStrm_hostReject (i : Nat) (x : Stream) : (s.setStrm i x).hostReject = s.hostReject := rfl
@[simp] theorem State.setStrm_objs (i : Nat) (x : Stream) : (s.setStrm i x).objs = s.objs := rfl
@[simp] theorem State.setStrm_queues (i : Nat) (x : Stream) : (s.setStrm i x).queues = s.queues := rfl
@[simp] theorem State.setStrm_cmds (i : Nat) (x : Stream) : (s.setStrm i x).cmds = s.cmds := rfl
@[simp] theorem State.setStrm_nextTok (i : Nat) (x : Stream) : (s.setStrm i x).nextTok = s.nextTok := rfl
@[simp] theorem State.setStrm_sch (i : Nat) (x : Stream) : (s.setStrm i x).sch = s.sch := rfl
@[simp] theorem State.setStrm_itNow (i : Nat) (x : Stream) : (s.setStrm i x).itNow = s.itNow := rfl
@[simp] theorem State.setStrm_ports (i : Nat) (x : Stream) : (s.setStrm i x).ports = s.ports := rfl
@[simp] theorem State.setStrm_openTx (i : Nat) (x : Stream) : (s.setStrm i x).openTx = s.openTx := rfl
@[simp] theorem State.setStrm_nextTx (i : Nat) (x : Stream) : (s.setStrm i x).nextTx = s.nextTx := rfl
@[simp] theorem State.setStrm_seqCtr (i : Nat) (x : Stream) : (s.setStrm i x).seqCtr = s.seqCtr := rfl
@[simp] theorem State.setStrm_sources (i : Nat) (x : Stream) : (s.setStrm i x).sources = s.sources := rfl
@[simp] theorem State.setStrm_qpRate (i : Nat) (x : Stream) : (s.setStrm i x).qpRate = s.qpRate := rfl
@[simp] theorem State.setStrm_qpAt (i : Nat) (x : Stream) : (s.setStrm i x).qpAt = s.qpAt := rfl
@[simp] theorem State.setStrm_time (i : Nat) (x : Stream) : (s.setStrm i x).time = s.time := rfl
@[simp] theorem State.setStrm_mapped (i : Nat) (x : Stream) : (s.setStrm i x).mapped = s.mapped := rfl
@[simp] theorem State.setStrm_ingest (i : Nat) (x : Stream) : (s.setStrm i x).ingest = s.ingest := rfl
@[simp] theorem State.setStrm_claims (i : Nat) (x : Stream) : (s.setStrm i x).claims = s.claims := rfl
@[simp] theorem State.setStrm_power (i : Nat) (x : Stream) : (s.setStrm i x).power = s.power := rfl
@[simp] theorem State.setStrm_primerJob (i : Nat) (x : Stream) : (s.setStrm i x).primerJob = s.primerJob := rfl
@[simp] theorem State.setStrm_switchTo (i : Nat) (x : Stream) : (s.setStrm i x).switchTo = s.switchTo := rfl
@[simp] theorem State.setStrm_abandoned (i : Nat) (x : Stream) : (s.setStrm i x).abandoned = s.abandoned := rfl
@[simp] theorem State.setStrm_abandonedUnits (i : Nat) (x : Stream) : (s.setStrm i x).abandonedUnits = s.abandonedUnits := rfl
@[simp] theorem State.setStrm_safeIt (i : Nat) (x : Stream) : (s.setStrm i x).safeIt = s.safeIt := rfl
@[simp] theorem State.setStrm_coldPend (i : Nat) (x : Stream) : (s.setStrm i x).coldPend = s.coldPend := rfl

@[simp] theorem State.setObj_pending (i : Nat) (x : SyncObj) : (s.setObj i x).pending = s.pending := rfl
@[simp] theorem State.setObj_silicon (i : Nat) (x : SyncObj) : (s.setObj i x).silicon = s.silicon := rfl
@[simp] theorem State.setObj_held (i : Nat) (x : SyncObj) : (s.setObj i x).held = s.held := rfl
@[simp] theorem State.setObj_regs (i : Nat) (x : SyncObj) : (s.setObj i x).regs = s.regs := rfl
@[simp] theorem State.setObj_stagePcie (i : Nat) (x : SyncObj) : (s.setObj i x).stagePcie = s.stagePcie := rfl
@[simp] theorem State.setObj_stageMgmt (i : Nat) (x : SyncObj) : (s.setObj i x).stageMgmt = s.stageMgmt := rfl
@[simp] theorem State.setObj_heldFields (i : Nat) (x : SyncObj) : (s.setObj i x).heldFields = s.heldFields := rfl
@[simp] theorem State.setObj_lc (i : Nat) (x : SyncObj) : (s.setObj i x).lc = s.lc := rfl
@[simp] theorem State.setObj_nonceCtr (i : Nat) (x : SyncObj) : (s.setObj i x).nonceCtr = s.nonceCtr := rfl
@[simp] theorem State.setObj_freeCtr (i : Nat) (x : SyncObj) : (s.setObj i x).freeCtr = s.freeCtr := rfl
@[simp] theorem State.setObj_slotA (i : Nat) (x : SyncObj) : (s.setObj i x).slotA = s.slotA := rfl
@[simp] theorem State.setObj_slotB (i : Nat) (x : SyncObj) : (s.setObj i x).slotB = s.slotB := rfl
@[simp] theorem State.setObj_sb (i : Nat) (x : SyncObj) : (s.setObj i x).sb = s.sb := rfl
@[simp] theorem State.setObj_tiles (i : Nat) (x : SyncObj) : (s.setObj i x).tiles = s.tiles := rfl
@[simp] theorem State.setObj_links (i : Nat) (x : SyncObj) : (s.setObj i x).links = s.links := rfl
@[simp] theorem State.setObj_pal (i : Nat) (x : SyncObj) : (s.setObj i x).pal = s.pal := rfl
@[simp] theorem State.setObj_acc (i : Nat) (x : SyncObj) : (s.setObj i x).acc = s.acc := rfl
@[simp] theorem State.setObj_shr (i : Nat) (x : SyncObj) : (s.setObj i x).shr = s.shr := rfl
@[simp] theorem State.setObj_progs (i : Nat) (x : SyncObj) : (s.setObj i x).progs = s.progs := rfl
@[simp] theorem State.setObj_scenes (i : Nat) (x : SyncObj) : (s.setObj i x).scenes = s.scenes := rfl
@[simp] theorem State.setObj_streams (i : Nat) (x : SyncObj) : (s.setObj i x).streams = s.streams := rfl
@[simp] theorem State.setObj_pool (i : Nat) (x : SyncObj) : (s.setObj i x).pool = s.pool := rfl
@[simp] theorem State.setObj_hbm (i : Nat) (x : SyncObj) : (s.setObj i x).hbm = s.hbm := rfl
@[simp] theorem State.setObj_badLines (i : Nat) (x : SyncObj) : (s.setObj i x).badLines = s.badLines := rfl
@[simp] theorem State.setObj_flash (i : Nat) (x : SyncObj) : (s.setObj i x).flash = s.flash := rfl
@[simp] theorem State.setObj_gran (i : Nat) (x : SyncObj) : (s.setObj i x).gran = s.gran := rfl
@[simp] theorem State.setObj_sweep (i : Nat) (x : SyncObj) : (s.setObj i x).sweep = s.sweep := rfl
@[simp] theorem State.setObj_blocks (i : Nat) (x : SyncObj) : (s.setObj i x).blocks = s.blocks := rfl
@[simp] theorem State.setObj_ftl (i : Nat) (x : SyncObj) : (s.setObj i x).ftl = s.ftl := rfl
@[simp] theorem State.setObj_flashBad (i : Nat) (x : SyncObj) : (s.setObj i x).flashBad = s.flashBad := rfl
@[simp] theorem State.setObj_fillQ (i : Nat) (x : SyncObj) : (s.setObj i x).fillQ = s.fillQ := rfl
@[simp] theorem State.setObj_buckets (i : Nat) (x : SyncObj) : (s.setObj i x).buckets = s.buckets := rfl
@[simp] theorem State.setObj_heldReqs (i : Nat) (x : SyncObj) : (s.setObj i x).heldReqs = s.heldReqs := rfl
@[simp] theorem State.setObj_host (i : Nat) (x : SyncObj) : (s.setObj i x).host = s.host := rfl
@[simp] theorem State.setObj_hostReject (i : Nat) (x : SyncObj) : (s.setObj i x).hostReject = s.hostReject := rfl
@[simp] theorem State.setObj_queues (i : Nat) (x : SyncObj) : (s.setObj i x).queues = s.queues := rfl
@[simp] theorem State.setObj_cmds (i : Nat) (x : SyncObj) : (s.setObj i x).cmds = s.cmds := rfl
@[simp] theorem State.setObj_nextTok (i : Nat) (x : SyncObj) : (s.setObj i x).nextTok = s.nextTok := rfl
@[simp] theorem State.setObj_sch (i : Nat) (x : SyncObj) : (s.setObj i x).sch = s.sch := rfl
@[simp] theorem State.setObj_itNow (i : Nat) (x : SyncObj) : (s.setObj i x).itNow = s.itNow := rfl
@[simp] theorem State.setObj_ports (i : Nat) (x : SyncObj) : (s.setObj i x).ports = s.ports := rfl
@[simp] theorem State.setObj_openTx (i : Nat) (x : SyncObj) : (s.setObj i x).openTx = s.openTx := rfl
@[simp] theorem State.setObj_nextTx (i : Nat) (x : SyncObj) : (s.setObj i x).nextTx = s.nextTx := rfl
@[simp] theorem State.setObj_seqCtr (i : Nat) (x : SyncObj) : (s.setObj i x).seqCtr = s.seqCtr := rfl
@[simp] theorem State.setObj_sources (i : Nat) (x : SyncObj) : (s.setObj i x).sources = s.sources := rfl
@[simp] theorem State.setObj_qpRate (i : Nat) (x : SyncObj) : (s.setObj i x).qpRate = s.qpRate := rfl
@[simp] theorem State.setObj_qpAt (i : Nat) (x : SyncObj) : (s.setObj i x).qpAt = s.qpAt := rfl
@[simp] theorem State.setObj_time (i : Nat) (x : SyncObj) : (s.setObj i x).time = s.time := rfl
@[simp] theorem State.setObj_mapped (i : Nat) (x : SyncObj) : (s.setObj i x).mapped = s.mapped := rfl
@[simp] theorem State.setObj_ingest (i : Nat) (x : SyncObj) : (s.setObj i x).ingest = s.ingest := rfl
@[simp] theorem State.setObj_claims (i : Nat) (x : SyncObj) : (s.setObj i x).claims = s.claims := rfl
@[simp] theorem State.setObj_power (i : Nat) (x : SyncObj) : (s.setObj i x).power = s.power := rfl
@[simp] theorem State.setObj_primerJob (i : Nat) (x : SyncObj) : (s.setObj i x).primerJob = s.primerJob := rfl
@[simp] theorem State.setObj_switchTo (i : Nat) (x : SyncObj) : (s.setObj i x).switchTo = s.switchTo := rfl
@[simp] theorem State.setObj_abandoned (i : Nat) (x : SyncObj) : (s.setObj i x).abandoned = s.abandoned := rfl
@[simp] theorem State.setObj_abandonedUnits (i : Nat) (x : SyncObj) : (s.setObj i x).abandonedUnits = s.abandonedUnits := rfl
@[simp] theorem State.setObj_safeIt (i : Nat) (x : SyncObj) : (s.setObj i x).safeIt = s.safeIt := rfl
@[simp] theorem State.setObj_coldPend (i : Nat) (x : SyncObj) : (s.setObj i x).coldPend = s.coldPend := rfl

@[simp] theorem State.setQueue_pending (i : Nat) (x : Queue) : (s.setQueue i x).pending = s.pending := rfl
@[simp] theorem State.setQueue_silicon (i : Nat) (x : Queue) : (s.setQueue i x).silicon = s.silicon := rfl
@[simp] theorem State.setQueue_held (i : Nat) (x : Queue) : (s.setQueue i x).held = s.held := rfl
@[simp] theorem State.setQueue_regs (i : Nat) (x : Queue) : (s.setQueue i x).regs = s.regs := rfl
@[simp] theorem State.setQueue_stagePcie (i : Nat) (x : Queue) : (s.setQueue i x).stagePcie = s.stagePcie := rfl
@[simp] theorem State.setQueue_stageMgmt (i : Nat) (x : Queue) : (s.setQueue i x).stageMgmt = s.stageMgmt := rfl
@[simp] theorem State.setQueue_heldFields (i : Nat) (x : Queue) : (s.setQueue i x).heldFields = s.heldFields := rfl
@[simp] theorem State.setQueue_lc (i : Nat) (x : Queue) : (s.setQueue i x).lc = s.lc := rfl
@[simp] theorem State.setQueue_nonceCtr (i : Nat) (x : Queue) : (s.setQueue i x).nonceCtr = s.nonceCtr := rfl
@[simp] theorem State.setQueue_freeCtr (i : Nat) (x : Queue) : (s.setQueue i x).freeCtr = s.freeCtr := rfl
@[simp] theorem State.setQueue_slotA (i : Nat) (x : Queue) : (s.setQueue i x).slotA = s.slotA := rfl
@[simp] theorem State.setQueue_slotB (i : Nat) (x : Queue) : (s.setQueue i x).slotB = s.slotB := rfl
@[simp] theorem State.setQueue_sb (i : Nat) (x : Queue) : (s.setQueue i x).sb = s.sb := rfl
@[simp] theorem State.setQueue_tiles (i : Nat) (x : Queue) : (s.setQueue i x).tiles = s.tiles := rfl
@[simp] theorem State.setQueue_links (i : Nat) (x : Queue) : (s.setQueue i x).links = s.links := rfl
@[simp] theorem State.setQueue_pal (i : Nat) (x : Queue) : (s.setQueue i x).pal = s.pal := rfl
@[simp] theorem State.setQueue_acc (i : Nat) (x : Queue) : (s.setQueue i x).acc = s.acc := rfl
@[simp] theorem State.setQueue_shr (i : Nat) (x : Queue) : (s.setQueue i x).shr = s.shr := rfl
@[simp] theorem State.setQueue_progs (i : Nat) (x : Queue) : (s.setQueue i x).progs = s.progs := rfl
@[simp] theorem State.setQueue_scenes (i : Nat) (x : Queue) : (s.setQueue i x).scenes = s.scenes := rfl
@[simp] theorem State.setQueue_streams (i : Nat) (x : Queue) : (s.setQueue i x).streams = s.streams := rfl
@[simp] theorem State.setQueue_pool (i : Nat) (x : Queue) : (s.setQueue i x).pool = s.pool := rfl
@[simp] theorem State.setQueue_hbm (i : Nat) (x : Queue) : (s.setQueue i x).hbm = s.hbm := rfl
@[simp] theorem State.setQueue_badLines (i : Nat) (x : Queue) : (s.setQueue i x).badLines = s.badLines := rfl
@[simp] theorem State.setQueue_flash (i : Nat) (x : Queue) : (s.setQueue i x).flash = s.flash := rfl
@[simp] theorem State.setQueue_gran (i : Nat) (x : Queue) : (s.setQueue i x).gran = s.gran := rfl
@[simp] theorem State.setQueue_sweep (i : Nat) (x : Queue) : (s.setQueue i x).sweep = s.sweep := rfl
@[simp] theorem State.setQueue_blocks (i : Nat) (x : Queue) : (s.setQueue i x).blocks = s.blocks := rfl
@[simp] theorem State.setQueue_ftl (i : Nat) (x : Queue) : (s.setQueue i x).ftl = s.ftl := rfl
@[simp] theorem State.setQueue_flashBad (i : Nat) (x : Queue) : (s.setQueue i x).flashBad = s.flashBad := rfl
@[simp] theorem State.setQueue_fillQ (i : Nat) (x : Queue) : (s.setQueue i x).fillQ = s.fillQ := rfl
@[simp] theorem State.setQueue_buckets (i : Nat) (x : Queue) : (s.setQueue i x).buckets = s.buckets := rfl
@[simp] theorem State.setQueue_heldReqs (i : Nat) (x : Queue) : (s.setQueue i x).heldReqs = s.heldReqs := rfl
@[simp] theorem State.setQueue_host (i : Nat) (x : Queue) : (s.setQueue i x).host = s.host := rfl
@[simp] theorem State.setQueue_hostReject (i : Nat) (x : Queue) : (s.setQueue i x).hostReject = s.hostReject := rfl
@[simp] theorem State.setQueue_objs (i : Nat) (x : Queue) : (s.setQueue i x).objs = s.objs := rfl
@[simp] theorem State.setQueue_cmds (i : Nat) (x : Queue) : (s.setQueue i x).cmds = s.cmds := rfl
@[simp] theorem State.setQueue_nextTok (i : Nat) (x : Queue) : (s.setQueue i x).nextTok = s.nextTok := rfl
@[simp] theorem State.setQueue_sch (i : Nat) (x : Queue) : (s.setQueue i x).sch = s.sch := rfl
@[simp] theorem State.setQueue_itNow (i : Nat) (x : Queue) : (s.setQueue i x).itNow = s.itNow := rfl
@[simp] theorem State.setQueue_ports (i : Nat) (x : Queue) : (s.setQueue i x).ports = s.ports := rfl
@[simp] theorem State.setQueue_openTx (i : Nat) (x : Queue) : (s.setQueue i x).openTx = s.openTx := rfl
@[simp] theorem State.setQueue_nextTx (i : Nat) (x : Queue) : (s.setQueue i x).nextTx = s.nextTx := rfl
@[simp] theorem State.setQueue_seqCtr (i : Nat) (x : Queue) : (s.setQueue i x).seqCtr = s.seqCtr := rfl
@[simp] theorem State.setQueue_sources (i : Nat) (x : Queue) : (s.setQueue i x).sources = s.sources := rfl
@[simp] theorem State.setQueue_qpRate (i : Nat) (x : Queue) : (s.setQueue i x).qpRate = s.qpRate := rfl
@[simp] theorem State.setQueue_qpAt (i : Nat) (x : Queue) : (s.setQueue i x).qpAt = s.qpAt := rfl
@[simp] theorem State.setQueue_time (i : Nat) (x : Queue) : (s.setQueue i x).time = s.time := rfl
@[simp] theorem State.setQueue_mapped (i : Nat) (x : Queue) : (s.setQueue i x).mapped = s.mapped := rfl
@[simp] theorem State.setQueue_ingest (i : Nat) (x : Queue) : (s.setQueue i x).ingest = s.ingest := rfl
@[simp] theorem State.setQueue_claims (i : Nat) (x : Queue) : (s.setQueue i x).claims = s.claims := rfl
@[simp] theorem State.setQueue_power (i : Nat) (x : Queue) : (s.setQueue i x).power = s.power := rfl
@[simp] theorem State.setQueue_primerJob (i : Nat) (x : Queue) : (s.setQueue i x).primerJob = s.primerJob := rfl
@[simp] theorem State.setQueue_switchTo (i : Nat) (x : Queue) : (s.setQueue i x).switchTo = s.switchTo := rfl
@[simp] theorem State.setQueue_abandoned (i : Nat) (x : Queue) : (s.setQueue i x).abandoned = s.abandoned := rfl
@[simp] theorem State.setQueue_abandonedUnits (i : Nat) (x : Queue) : (s.setQueue i x).abandonedUnits = s.abandonedUnits := rfl
@[simp] theorem State.setQueue_safeIt (i : Nat) (x : Queue) : (s.setQueue i x).safeIt = s.safeIt := rfl
@[simp] theorem State.setQueue_coldPend (i : Nat) (x : Queue) : (s.setQueue i x).coldPend = s.coldPend := rfl

@[simp] theorem State.setGranule_pending (i : Nat) (x : Granule) : (s.setGranule i x).pending = s.pending := rfl
@[simp] theorem State.setGranule_silicon (i : Nat) (x : Granule) : (s.setGranule i x).silicon = s.silicon := rfl
@[simp] theorem State.setGranule_held (i : Nat) (x : Granule) : (s.setGranule i x).held = s.held := rfl
@[simp] theorem State.setGranule_regs (i : Nat) (x : Granule) : (s.setGranule i x).regs = s.regs := rfl
@[simp] theorem State.setGranule_stagePcie (i : Nat) (x : Granule) : (s.setGranule i x).stagePcie = s.stagePcie := rfl
@[simp] theorem State.setGranule_stageMgmt (i : Nat) (x : Granule) : (s.setGranule i x).stageMgmt = s.stageMgmt := rfl
@[simp] theorem State.setGranule_heldFields (i : Nat) (x : Granule) : (s.setGranule i x).heldFields = s.heldFields := rfl
@[simp] theorem State.setGranule_lc (i : Nat) (x : Granule) : (s.setGranule i x).lc = s.lc := rfl
@[simp] theorem State.setGranule_nonceCtr (i : Nat) (x : Granule) : (s.setGranule i x).nonceCtr = s.nonceCtr := rfl
@[simp] theorem State.setGranule_freeCtr (i : Nat) (x : Granule) : (s.setGranule i x).freeCtr = s.freeCtr := rfl
@[simp] theorem State.setGranule_slotA (i : Nat) (x : Granule) : (s.setGranule i x).slotA = s.slotA := rfl
@[simp] theorem State.setGranule_slotB (i : Nat) (x : Granule) : (s.setGranule i x).slotB = s.slotB := rfl
@[simp] theorem State.setGranule_sb (i : Nat) (x : Granule) : (s.setGranule i x).sb = s.sb := rfl
@[simp] theorem State.setGranule_tiles (i : Nat) (x : Granule) : (s.setGranule i x).tiles = s.tiles := rfl
@[simp] theorem State.setGranule_links (i : Nat) (x : Granule) : (s.setGranule i x).links = s.links := rfl
@[simp] theorem State.setGranule_pal (i : Nat) (x : Granule) : (s.setGranule i x).pal = s.pal := rfl
@[simp] theorem State.setGranule_acc (i : Nat) (x : Granule) : (s.setGranule i x).acc = s.acc := rfl
@[simp] theorem State.setGranule_shr (i : Nat) (x : Granule) : (s.setGranule i x).shr = s.shr := rfl
@[simp] theorem State.setGranule_progs (i : Nat) (x : Granule) : (s.setGranule i x).progs = s.progs := rfl
@[simp] theorem State.setGranule_scenes (i : Nat) (x : Granule) : (s.setGranule i x).scenes = s.scenes := rfl
@[simp] theorem State.setGranule_streams (i : Nat) (x : Granule) : (s.setGranule i x).streams = s.streams := rfl
@[simp] theorem State.setGranule_pool (i : Nat) (x : Granule) : (s.setGranule i x).pool = s.pool := rfl
@[simp] theorem State.setGranule_hbm (i : Nat) (x : Granule) : (s.setGranule i x).hbm = s.hbm := rfl
@[simp] theorem State.setGranule_badLines (i : Nat) (x : Granule) : (s.setGranule i x).badLines = s.badLines := rfl
@[simp] theorem State.setGranule_flash (i : Nat) (x : Granule) : (s.setGranule i x).flash = s.flash := rfl
@[simp] theorem State.setGranule_sweep (i : Nat) (x : Granule) : (s.setGranule i x).sweep = s.sweep := rfl
@[simp] theorem State.setGranule_blocks (i : Nat) (x : Granule) : (s.setGranule i x).blocks = s.blocks := rfl
@[simp] theorem State.setGranule_ftl (i : Nat) (x : Granule) : (s.setGranule i x).ftl = s.ftl := rfl
@[simp] theorem State.setGranule_flashBad (i : Nat) (x : Granule) : (s.setGranule i x).flashBad = s.flashBad := rfl
@[simp] theorem State.setGranule_fillQ (i : Nat) (x : Granule) : (s.setGranule i x).fillQ = s.fillQ := rfl
@[simp] theorem State.setGranule_buckets (i : Nat) (x : Granule) : (s.setGranule i x).buckets = s.buckets := rfl
@[simp] theorem State.setGranule_heldReqs (i : Nat) (x : Granule) : (s.setGranule i x).heldReqs = s.heldReqs := rfl
@[simp] theorem State.setGranule_host (i : Nat) (x : Granule) : (s.setGranule i x).host = s.host := rfl
@[simp] theorem State.setGranule_hostReject (i : Nat) (x : Granule) : (s.setGranule i x).hostReject = s.hostReject := rfl
@[simp] theorem State.setGranule_objs (i : Nat) (x : Granule) : (s.setGranule i x).objs = s.objs := rfl
@[simp] theorem State.setGranule_queues (i : Nat) (x : Granule) : (s.setGranule i x).queues = s.queues := rfl
@[simp] theorem State.setGranule_cmds (i : Nat) (x : Granule) : (s.setGranule i x).cmds = s.cmds := rfl
@[simp] theorem State.setGranule_nextTok (i : Nat) (x : Granule) : (s.setGranule i x).nextTok = s.nextTok := rfl
@[simp] theorem State.setGranule_sch (i : Nat) (x : Granule) : (s.setGranule i x).sch = s.sch := rfl
@[simp] theorem State.setGranule_itNow (i : Nat) (x : Granule) : (s.setGranule i x).itNow = s.itNow := rfl
@[simp] theorem State.setGranule_ports (i : Nat) (x : Granule) : (s.setGranule i x).ports = s.ports := rfl
@[simp] theorem State.setGranule_openTx (i : Nat) (x : Granule) : (s.setGranule i x).openTx = s.openTx := rfl
@[simp] theorem State.setGranule_nextTx (i : Nat) (x : Granule) : (s.setGranule i x).nextTx = s.nextTx := rfl
@[simp] theorem State.setGranule_seqCtr (i : Nat) (x : Granule) : (s.setGranule i x).seqCtr = s.seqCtr := rfl
@[simp] theorem State.setGranule_sources (i : Nat) (x : Granule) : (s.setGranule i x).sources = s.sources := rfl
@[simp] theorem State.setGranule_qpRate (i : Nat) (x : Granule) : (s.setGranule i x).qpRate = s.qpRate := rfl
@[simp] theorem State.setGranule_qpAt (i : Nat) (x : Granule) : (s.setGranule i x).qpAt = s.qpAt := rfl
@[simp] theorem State.setGranule_time (i : Nat) (x : Granule) : (s.setGranule i x).time = s.time := rfl
@[simp] theorem State.setGranule_mapped (i : Nat) (x : Granule) : (s.setGranule i x).mapped = s.mapped := rfl
@[simp] theorem State.setGranule_ingest (i : Nat) (x : Granule) : (s.setGranule i x).ingest = s.ingest := rfl
@[simp] theorem State.setGranule_claims (i : Nat) (x : Granule) : (s.setGranule i x).claims = s.claims := rfl
@[simp] theorem State.setGranule_power (i : Nat) (x : Granule) : (s.setGranule i x).power = s.power := rfl
@[simp] theorem State.setGranule_primerJob (i : Nat) (x : Granule) : (s.setGranule i x).primerJob = s.primerJob := rfl
@[simp] theorem State.setGranule_switchTo (i : Nat) (x : Granule) : (s.setGranule i x).switchTo = s.switchTo := rfl
@[simp] theorem State.setGranule_abandoned (i : Nat) (x : Granule) : (s.setGranule i x).abandoned = s.abandoned := rfl
@[simp] theorem State.setGranule_abandonedUnits (i : Nat) (x : Granule) : (s.setGranule i x).abandonedUnits = s.abandonedUnits := rfl
@[simp] theorem State.setGranule_safeIt (i : Nat) (x : Granule) : (s.setGranule i x).safeIt = s.safeIt := rfl
@[simp] theorem State.setGranule_coldPend (i : Nat) (x : Granule) : (s.setGranule i x).coldPend = s.coldPend := rfl

@[simp] theorem State.setPort_pending (i : Nat) (x : Port) : (s.setPort i x).pending = s.pending := rfl
@[simp] theorem State.setPort_silicon (i : Nat) (x : Port) : (s.setPort i x).silicon = s.silicon := rfl
@[simp] theorem State.setPort_held (i : Nat) (x : Port) : (s.setPort i x).held = s.held := rfl
@[simp] theorem State.setPort_regs (i : Nat) (x : Port) : (s.setPort i x).regs = s.regs := rfl
@[simp] theorem State.setPort_stagePcie (i : Nat) (x : Port) : (s.setPort i x).stagePcie = s.stagePcie := rfl
@[simp] theorem State.setPort_stageMgmt (i : Nat) (x : Port) : (s.setPort i x).stageMgmt = s.stageMgmt := rfl
@[simp] theorem State.setPort_heldFields (i : Nat) (x : Port) : (s.setPort i x).heldFields = s.heldFields := rfl
@[simp] theorem State.setPort_lc (i : Nat) (x : Port) : (s.setPort i x).lc = s.lc := rfl
@[simp] theorem State.setPort_nonceCtr (i : Nat) (x : Port) : (s.setPort i x).nonceCtr = s.nonceCtr := rfl
@[simp] theorem State.setPort_freeCtr (i : Nat) (x : Port) : (s.setPort i x).freeCtr = s.freeCtr := rfl
@[simp] theorem State.setPort_slotA (i : Nat) (x : Port) : (s.setPort i x).slotA = s.slotA := rfl
@[simp] theorem State.setPort_slotB (i : Nat) (x : Port) : (s.setPort i x).slotB = s.slotB := rfl
@[simp] theorem State.setPort_sb (i : Nat) (x : Port) : (s.setPort i x).sb = s.sb := rfl
@[simp] theorem State.setPort_tiles (i : Nat) (x : Port) : (s.setPort i x).tiles = s.tiles := rfl
@[simp] theorem State.setPort_links (i : Nat) (x : Port) : (s.setPort i x).links = s.links := rfl
@[simp] theorem State.setPort_pal (i : Nat) (x : Port) : (s.setPort i x).pal = s.pal := rfl
@[simp] theorem State.setPort_acc (i : Nat) (x : Port) : (s.setPort i x).acc = s.acc := rfl
@[simp] theorem State.setPort_shr (i : Nat) (x : Port) : (s.setPort i x).shr = s.shr := rfl
@[simp] theorem State.setPort_progs (i : Nat) (x : Port) : (s.setPort i x).progs = s.progs := rfl
@[simp] theorem State.setPort_scenes (i : Nat) (x : Port) : (s.setPort i x).scenes = s.scenes := rfl
@[simp] theorem State.setPort_streams (i : Nat) (x : Port) : (s.setPort i x).streams = s.streams := rfl
@[simp] theorem State.setPort_pool (i : Nat) (x : Port) : (s.setPort i x).pool = s.pool := rfl
@[simp] theorem State.setPort_hbm (i : Nat) (x : Port) : (s.setPort i x).hbm = s.hbm := rfl
@[simp] theorem State.setPort_badLines (i : Nat) (x : Port) : (s.setPort i x).badLines = s.badLines := rfl
@[simp] theorem State.setPort_flash (i : Nat) (x : Port) : (s.setPort i x).flash = s.flash := rfl
@[simp] theorem State.setPort_gran (i : Nat) (x : Port) : (s.setPort i x).gran = s.gran := rfl
@[simp] theorem State.setPort_sweep (i : Nat) (x : Port) : (s.setPort i x).sweep = s.sweep := rfl
@[simp] theorem State.setPort_blocks (i : Nat) (x : Port) : (s.setPort i x).blocks = s.blocks := rfl
@[simp] theorem State.setPort_ftl (i : Nat) (x : Port) : (s.setPort i x).ftl = s.ftl := rfl
@[simp] theorem State.setPort_flashBad (i : Nat) (x : Port) : (s.setPort i x).flashBad = s.flashBad := rfl
@[simp] theorem State.setPort_fillQ (i : Nat) (x : Port) : (s.setPort i x).fillQ = s.fillQ := rfl
@[simp] theorem State.setPort_buckets (i : Nat) (x : Port) : (s.setPort i x).buckets = s.buckets := rfl
@[simp] theorem State.setPort_heldReqs (i : Nat) (x : Port) : (s.setPort i x).heldReqs = s.heldReqs := rfl
@[simp] theorem State.setPort_host (i : Nat) (x : Port) : (s.setPort i x).host = s.host := rfl
@[simp] theorem State.setPort_hostReject (i : Nat) (x : Port) : (s.setPort i x).hostReject = s.hostReject := rfl
@[simp] theorem State.setPort_objs (i : Nat) (x : Port) : (s.setPort i x).objs = s.objs := rfl
@[simp] theorem State.setPort_queues (i : Nat) (x : Port) : (s.setPort i x).queues = s.queues := rfl
@[simp] theorem State.setPort_cmds (i : Nat) (x : Port) : (s.setPort i x).cmds = s.cmds := rfl
@[simp] theorem State.setPort_nextTok (i : Nat) (x : Port) : (s.setPort i x).nextTok = s.nextTok := rfl
@[simp] theorem State.setPort_sch (i : Nat) (x : Port) : (s.setPort i x).sch = s.sch := rfl
@[simp] theorem State.setPort_itNow (i : Nat) (x : Port) : (s.setPort i x).itNow = s.itNow := rfl
@[simp] theorem State.setPort_openTx (i : Nat) (x : Port) : (s.setPort i x).openTx = s.openTx := rfl
@[simp] theorem State.setPort_nextTx (i : Nat) (x : Port) : (s.setPort i x).nextTx = s.nextTx := rfl
@[simp] theorem State.setPort_seqCtr (i : Nat) (x : Port) : (s.setPort i x).seqCtr = s.seqCtr := rfl
@[simp] theorem State.setPort_sources (i : Nat) (x : Port) : (s.setPort i x).sources = s.sources := rfl
@[simp] theorem State.setPort_qpRate (i : Nat) (x : Port) : (s.setPort i x).qpRate = s.qpRate := rfl
@[simp] theorem State.setPort_qpAt (i : Nat) (x : Port) : (s.setPort i x).qpAt = s.qpAt := rfl
@[simp] theorem State.setPort_time (i : Nat) (x : Port) : (s.setPort i x).time = s.time := rfl
@[simp] theorem State.setPort_mapped (i : Nat) (x : Port) : (s.setPort i x).mapped = s.mapped := rfl
@[simp] theorem State.setPort_ingest (i : Nat) (x : Port) : (s.setPort i x).ingest = s.ingest := rfl
@[simp] theorem State.setPort_claims (i : Nat) (x : Port) : (s.setPort i x).claims = s.claims := rfl
@[simp] theorem State.setPort_power (i : Nat) (x : Port) : (s.setPort i x).power = s.power := rfl
@[simp] theorem State.setPort_primerJob (i : Nat) (x : Port) : (s.setPort i x).primerJob = s.primerJob := rfl
@[simp] theorem State.setPort_switchTo (i : Nat) (x : Port) : (s.setPort i x).switchTo = s.switchTo := rfl
@[simp] theorem State.setPort_abandoned (i : Nat) (x : Port) : (s.setPort i x).abandoned = s.abandoned := rfl
@[simp] theorem State.setPort_abandonedUnits (i : Nat) (x : Port) : (s.setPort i x).abandonedUnits = s.abandonedUnits := rfl
@[simp] theorem State.setPort_safeIt (i : Nat) (x : Port) : (s.setPort i x).safeIt = s.safeIt := rfl
@[simp] theorem State.setPort_coldPend (i : Nat) (x : Port) : (s.setPort i x).coldPend = s.coldPend := rfl

@[simp] theorem State.setBlock_pending (i : Nat) (x : EBlock) : (s.setBlock i x).pending = s.pending := rfl
@[simp] theorem State.setBlock_silicon (i : Nat) (x : EBlock) : (s.setBlock i x).silicon = s.silicon := rfl
@[simp] theorem State.setBlock_held (i : Nat) (x : EBlock) : (s.setBlock i x).held = s.held := rfl
@[simp] theorem State.setBlock_regs (i : Nat) (x : EBlock) : (s.setBlock i x).regs = s.regs := rfl
@[simp] theorem State.setBlock_stagePcie (i : Nat) (x : EBlock) : (s.setBlock i x).stagePcie = s.stagePcie := rfl
@[simp] theorem State.setBlock_stageMgmt (i : Nat) (x : EBlock) : (s.setBlock i x).stageMgmt = s.stageMgmt := rfl
@[simp] theorem State.setBlock_heldFields (i : Nat) (x : EBlock) : (s.setBlock i x).heldFields = s.heldFields := rfl
@[simp] theorem State.setBlock_lc (i : Nat) (x : EBlock) : (s.setBlock i x).lc = s.lc := rfl
@[simp] theorem State.setBlock_nonceCtr (i : Nat) (x : EBlock) : (s.setBlock i x).nonceCtr = s.nonceCtr := rfl
@[simp] theorem State.setBlock_freeCtr (i : Nat) (x : EBlock) : (s.setBlock i x).freeCtr = s.freeCtr := rfl
@[simp] theorem State.setBlock_slotA (i : Nat) (x : EBlock) : (s.setBlock i x).slotA = s.slotA := rfl
@[simp] theorem State.setBlock_slotB (i : Nat) (x : EBlock) : (s.setBlock i x).slotB = s.slotB := rfl
@[simp] theorem State.setBlock_sb (i : Nat) (x : EBlock) : (s.setBlock i x).sb = s.sb := rfl
@[simp] theorem State.setBlock_tiles (i : Nat) (x : EBlock) : (s.setBlock i x).tiles = s.tiles := rfl
@[simp] theorem State.setBlock_links (i : Nat) (x : EBlock) : (s.setBlock i x).links = s.links := rfl
@[simp] theorem State.setBlock_pal (i : Nat) (x : EBlock) : (s.setBlock i x).pal = s.pal := rfl
@[simp] theorem State.setBlock_acc (i : Nat) (x : EBlock) : (s.setBlock i x).acc = s.acc := rfl
@[simp] theorem State.setBlock_shr (i : Nat) (x : EBlock) : (s.setBlock i x).shr = s.shr := rfl
@[simp] theorem State.setBlock_progs (i : Nat) (x : EBlock) : (s.setBlock i x).progs = s.progs := rfl
@[simp] theorem State.setBlock_scenes (i : Nat) (x : EBlock) : (s.setBlock i x).scenes = s.scenes := rfl
@[simp] theorem State.setBlock_streams (i : Nat) (x : EBlock) : (s.setBlock i x).streams = s.streams := rfl
@[simp] theorem State.setBlock_pool (i : Nat) (x : EBlock) : (s.setBlock i x).pool = s.pool := rfl
@[simp] theorem State.setBlock_hbm (i : Nat) (x : EBlock) : (s.setBlock i x).hbm = s.hbm := rfl
@[simp] theorem State.setBlock_badLines (i : Nat) (x : EBlock) : (s.setBlock i x).badLines = s.badLines := rfl
@[simp] theorem State.setBlock_flash (i : Nat) (x : EBlock) : (s.setBlock i x).flash = s.flash := rfl
@[simp] theorem State.setBlock_gran (i : Nat) (x : EBlock) : (s.setBlock i x).gran = s.gran := rfl
@[simp] theorem State.setBlock_sweep (i : Nat) (x : EBlock) : (s.setBlock i x).sweep = s.sweep := rfl
@[simp] theorem State.setBlock_ftl (i : Nat) (x : EBlock) : (s.setBlock i x).ftl = s.ftl := rfl
@[simp] theorem State.setBlock_flashBad (i : Nat) (x : EBlock) : (s.setBlock i x).flashBad = s.flashBad := rfl
@[simp] theorem State.setBlock_fillQ (i : Nat) (x : EBlock) : (s.setBlock i x).fillQ = s.fillQ := rfl
@[simp] theorem State.setBlock_buckets (i : Nat) (x : EBlock) : (s.setBlock i x).buckets = s.buckets := rfl
@[simp] theorem State.setBlock_heldReqs (i : Nat) (x : EBlock) : (s.setBlock i x).heldReqs = s.heldReqs := rfl
@[simp] theorem State.setBlock_host (i : Nat) (x : EBlock) : (s.setBlock i x).host = s.host := rfl
@[simp] theorem State.setBlock_hostReject (i : Nat) (x : EBlock) : (s.setBlock i x).hostReject = s.hostReject := rfl
@[simp] theorem State.setBlock_objs (i : Nat) (x : EBlock) : (s.setBlock i x).objs = s.objs := rfl
@[simp] theorem State.setBlock_queues (i : Nat) (x : EBlock) : (s.setBlock i x).queues = s.queues := rfl
@[simp] theorem State.setBlock_cmds (i : Nat) (x : EBlock) : (s.setBlock i x).cmds = s.cmds := rfl
@[simp] theorem State.setBlock_nextTok (i : Nat) (x : EBlock) : (s.setBlock i x).nextTok = s.nextTok := rfl
@[simp] theorem State.setBlock_sch (i : Nat) (x : EBlock) : (s.setBlock i x).sch = s.sch := rfl
@[simp] theorem State.setBlock_itNow (i : Nat) (x : EBlock) : (s.setBlock i x).itNow = s.itNow := rfl
@[simp] theorem State.setBlock_ports (i : Nat) (x : EBlock) : (s.setBlock i x).ports = s.ports := rfl
@[simp] theorem State.setBlock_openTx (i : Nat) (x : EBlock) : (s.setBlock i x).openTx = s.openTx := rfl
@[simp] theorem State.setBlock_nextTx (i : Nat) (x : EBlock) : (s.setBlock i x).nextTx = s.nextTx := rfl
@[simp] theorem State.setBlock_seqCtr (i : Nat) (x : EBlock) : (s.setBlock i x).seqCtr = s.seqCtr := rfl
@[simp] theorem State.setBlock_sources (i : Nat) (x : EBlock) : (s.setBlock i x).sources = s.sources := rfl
@[simp] theorem State.setBlock_qpRate (i : Nat) (x : EBlock) : (s.setBlock i x).qpRate = s.qpRate := rfl
@[simp] theorem State.setBlock_qpAt (i : Nat) (x : EBlock) : (s.setBlock i x).qpAt = s.qpAt := rfl
@[simp] theorem State.setBlock_time (i : Nat) (x : EBlock) : (s.setBlock i x).time = s.time := rfl
@[simp] theorem State.setBlock_mapped (i : Nat) (x : EBlock) : (s.setBlock i x).mapped = s.mapped := rfl
@[simp] theorem State.setBlock_ingest (i : Nat) (x : EBlock) : (s.setBlock i x).ingest = s.ingest := rfl
@[simp] theorem State.setBlock_claims (i : Nat) (x : EBlock) : (s.setBlock i x).claims = s.claims := rfl
@[simp] theorem State.setBlock_power (i : Nat) (x : EBlock) : (s.setBlock i x).power = s.power := rfl
@[simp] theorem State.setBlock_primerJob (i : Nat) (x : EBlock) : (s.setBlock i x).primerJob = s.primerJob := rfl
@[simp] theorem State.setBlock_switchTo (i : Nat) (x : EBlock) : (s.setBlock i x).switchTo = s.switchTo := rfl
@[simp] theorem State.setBlock_abandoned (i : Nat) (x : EBlock) : (s.setBlock i x).abandoned = s.abandoned := rfl
@[simp] theorem State.setBlock_abandonedUnits (i : Nat) (x : EBlock) : (s.setBlock i x).abandonedUnits = s.abandonedUnits := rfl
@[simp] theorem State.setBlock_safeIt (i : Nat) (x : EBlock) : (s.setBlock i x).safeIt = s.safeIt := rfl
@[simp] theorem State.setBlock_coldPend (i : Nat) (x : EBlock) : (s.setBlock i x).coldPend = s.coldPend := rfl

@[simp] theorem State.updCmd_pending (i : Nat) (f : Cmd → Cmd) : (s.updCmd i f).pending = s.pending := rfl
@[simp] theorem State.updCmd_silicon (i : Nat) (f : Cmd → Cmd) : (s.updCmd i f).silicon = s.silicon := rfl
@[simp] theorem State.updCmd_held (i : Nat) (f : Cmd → Cmd) : (s.updCmd i f).held = s.held := rfl
@[simp] theorem State.updCmd_regs (i : Nat) (f : Cmd → Cmd) : (s.updCmd i f).regs = s.regs := rfl
@[simp] theorem State.updCmd_stagePcie (i : Nat) (f : Cmd → Cmd) : (s.updCmd i f).stagePcie = s.stagePcie := rfl
@[simp] theorem State.updCmd_stageMgmt (i : Nat) (f : Cmd → Cmd) : (s.updCmd i f).stageMgmt = s.stageMgmt := rfl
@[simp] theorem State.updCmd_heldFields (i : Nat) (f : Cmd → Cmd) : (s.updCmd i f).heldFields = s.heldFields := rfl
@[simp] theorem State.updCmd_lc (i : Nat) (f : Cmd → Cmd) : (s.updCmd i f).lc = s.lc := rfl
@[simp] theorem State.updCmd_nonceCtr (i : Nat) (f : Cmd → Cmd) : (s.updCmd i f).nonceCtr = s.nonceCtr := rfl
@[simp] theorem State.updCmd_freeCtr (i : Nat) (f : Cmd → Cmd) : (s.updCmd i f).freeCtr = s.freeCtr := rfl
@[simp] theorem State.updCmd_slotA (i : Nat) (f : Cmd → Cmd) : (s.updCmd i f).slotA = s.slotA := rfl
@[simp] theorem State.updCmd_slotB (i : Nat) (f : Cmd → Cmd) : (s.updCmd i f).slotB = s.slotB := rfl
@[simp] theorem State.updCmd_sb (i : Nat) (f : Cmd → Cmd) : (s.updCmd i f).sb = s.sb := rfl
@[simp] theorem State.updCmd_tiles (i : Nat) (f : Cmd → Cmd) : (s.updCmd i f).tiles = s.tiles := rfl
@[simp] theorem State.updCmd_links (i : Nat) (f : Cmd → Cmd) : (s.updCmd i f).links = s.links := rfl
@[simp] theorem State.updCmd_pal (i : Nat) (f : Cmd → Cmd) : (s.updCmd i f).pal = s.pal := rfl
@[simp] theorem State.updCmd_acc (i : Nat) (f : Cmd → Cmd) : (s.updCmd i f).acc = s.acc := rfl
@[simp] theorem State.updCmd_shr (i : Nat) (f : Cmd → Cmd) : (s.updCmd i f).shr = s.shr := rfl
@[simp] theorem State.updCmd_progs (i : Nat) (f : Cmd → Cmd) : (s.updCmd i f).progs = s.progs := rfl
@[simp] theorem State.updCmd_scenes (i : Nat) (f : Cmd → Cmd) : (s.updCmd i f).scenes = s.scenes := rfl
@[simp] theorem State.updCmd_streams (i : Nat) (f : Cmd → Cmd) : (s.updCmd i f).streams = s.streams := rfl
@[simp] theorem State.updCmd_pool (i : Nat) (f : Cmd → Cmd) : (s.updCmd i f).pool = s.pool := rfl
@[simp] theorem State.updCmd_hbm (i : Nat) (f : Cmd → Cmd) : (s.updCmd i f).hbm = s.hbm := rfl
@[simp] theorem State.updCmd_badLines (i : Nat) (f : Cmd → Cmd) : (s.updCmd i f).badLines = s.badLines := rfl
@[simp] theorem State.updCmd_flash (i : Nat) (f : Cmd → Cmd) : (s.updCmd i f).flash = s.flash := rfl
@[simp] theorem State.updCmd_gran (i : Nat) (f : Cmd → Cmd) : (s.updCmd i f).gran = s.gran := rfl
@[simp] theorem State.updCmd_sweep (i : Nat) (f : Cmd → Cmd) : (s.updCmd i f).sweep = s.sweep := rfl
@[simp] theorem State.updCmd_blocks (i : Nat) (f : Cmd → Cmd) : (s.updCmd i f).blocks = s.blocks := rfl
@[simp] theorem State.updCmd_ftl (i : Nat) (f : Cmd → Cmd) : (s.updCmd i f).ftl = s.ftl := rfl
@[simp] theorem State.updCmd_flashBad (i : Nat) (f : Cmd → Cmd) : (s.updCmd i f).flashBad = s.flashBad := rfl
@[simp] theorem State.updCmd_fillQ (i : Nat) (f : Cmd → Cmd) : (s.updCmd i f).fillQ = s.fillQ := rfl
@[simp] theorem State.updCmd_buckets (i : Nat) (f : Cmd → Cmd) : (s.updCmd i f).buckets = s.buckets := rfl
@[simp] theorem State.updCmd_heldReqs (i : Nat) (f : Cmd → Cmd) : (s.updCmd i f).heldReqs = s.heldReqs := rfl
@[simp] theorem State.updCmd_host (i : Nat) (f : Cmd → Cmd) : (s.updCmd i f).host = s.host := rfl
@[simp] theorem State.updCmd_hostReject (i : Nat) (f : Cmd → Cmd) : (s.updCmd i f).hostReject = s.hostReject := rfl
@[simp] theorem State.updCmd_objs (i : Nat) (f : Cmd → Cmd) : (s.updCmd i f).objs = s.objs := rfl
@[simp] theorem State.updCmd_queues (i : Nat) (f : Cmd → Cmd) : (s.updCmd i f).queues = s.queues := rfl
@[simp] theorem State.updCmd_nextTok (i : Nat) (f : Cmd → Cmd) : (s.updCmd i f).nextTok = s.nextTok := rfl
@[simp] theorem State.updCmd_sch (i : Nat) (f : Cmd → Cmd) : (s.updCmd i f).sch = s.sch := rfl
@[simp] theorem State.updCmd_itNow (i : Nat) (f : Cmd → Cmd) : (s.updCmd i f).itNow = s.itNow := rfl
@[simp] theorem State.updCmd_ports (i : Nat) (f : Cmd → Cmd) : (s.updCmd i f).ports = s.ports := rfl
@[simp] theorem State.updCmd_openTx (i : Nat) (f : Cmd → Cmd) : (s.updCmd i f).openTx = s.openTx := rfl
@[simp] theorem State.updCmd_nextTx (i : Nat) (f : Cmd → Cmd) : (s.updCmd i f).nextTx = s.nextTx := rfl
@[simp] theorem State.updCmd_seqCtr (i : Nat) (f : Cmd → Cmd) : (s.updCmd i f).seqCtr = s.seqCtr := rfl
@[simp] theorem State.updCmd_sources (i : Nat) (f : Cmd → Cmd) : (s.updCmd i f).sources = s.sources := rfl
@[simp] theorem State.updCmd_qpRate (i : Nat) (f : Cmd → Cmd) : (s.updCmd i f).qpRate = s.qpRate := rfl
@[simp] theorem State.updCmd_qpAt (i : Nat) (f : Cmd → Cmd) : (s.updCmd i f).qpAt = s.qpAt := rfl
@[simp] theorem State.updCmd_time (i : Nat) (f : Cmd → Cmd) : (s.updCmd i f).time = s.time := rfl
@[simp] theorem State.updCmd_mapped (i : Nat) (f : Cmd → Cmd) : (s.updCmd i f).mapped = s.mapped := rfl
@[simp] theorem State.updCmd_ingest (i : Nat) (f : Cmd → Cmd) : (s.updCmd i f).ingest = s.ingest := rfl
@[simp] theorem State.updCmd_claims (i : Nat) (f : Cmd → Cmd) : (s.updCmd i f).claims = s.claims := rfl
@[simp] theorem State.updCmd_power (i : Nat) (f : Cmd → Cmd) : (s.updCmd i f).power = s.power := rfl
@[simp] theorem State.updCmd_primerJob (i : Nat) (f : Cmd → Cmd) : (s.updCmd i f).primerJob = s.primerJob := rfl
@[simp] theorem State.updCmd_switchTo (i : Nat) (f : Cmd → Cmd) : (s.updCmd i f).switchTo = s.switchTo := rfl
@[simp] theorem State.updCmd_abandoned (i : Nat) (f : Cmd → Cmd) : (s.updCmd i f).abandoned = s.abandoned := rfl
@[simp] theorem State.updCmd_abandonedUnits (i : Nat) (f : Cmd → Cmd) : (s.updCmd i f).abandonedUnits = s.abandonedUnits := rfl
@[simp] theorem State.updCmd_safeIt (i : Nat) (f : Cmd → Cmd) : (s.updCmd i f).safeIt = s.safeIt := rfl
@[simp] theorem State.updCmd_coldPend (i : Nat) (f : Cmd → Cmd) : (s.updCmd i f).coldPend = s.coldPend := rfl

@[simp] theorem State.advance_pending (i : Nat) : (s.advance i).pending = s.pending := rfl
@[simp] theorem State.advance_silicon (i : Nat) : (s.advance i).silicon = s.silicon := rfl
@[simp] theorem State.advance_held (i : Nat) : (s.advance i).held = s.held := rfl
@[simp] theorem State.advance_regs (i : Nat) : (s.advance i).regs = s.regs := rfl
@[simp] theorem State.advance_stagePcie (i : Nat) : (s.advance i).stagePcie = s.stagePcie := rfl
@[simp] theorem State.advance_stageMgmt (i : Nat) : (s.advance i).stageMgmt = s.stageMgmt := rfl
@[simp] theorem State.advance_heldFields (i : Nat) : (s.advance i).heldFields = s.heldFields := rfl
@[simp] theorem State.advance_lc (i : Nat) : (s.advance i).lc = s.lc := rfl
@[simp] theorem State.advance_nonceCtr (i : Nat) : (s.advance i).nonceCtr = s.nonceCtr := rfl
@[simp] theorem State.advance_freeCtr (i : Nat) : (s.advance i).freeCtr = s.freeCtr := rfl
@[simp] theorem State.advance_slotA (i : Nat) : (s.advance i).slotA = s.slotA := rfl
@[simp] theorem State.advance_slotB (i : Nat) : (s.advance i).slotB = s.slotB := rfl
@[simp] theorem State.advance_sb (i : Nat) : (s.advance i).sb = s.sb := rfl
@[simp] theorem State.advance_tiles (i : Nat) : (s.advance i).tiles = s.tiles := rfl
@[simp] theorem State.advance_links (i : Nat) : (s.advance i).links = s.links := rfl
@[simp] theorem State.advance_pal (i : Nat) : (s.advance i).pal = s.pal := rfl
@[simp] theorem State.advance_acc (i : Nat) : (s.advance i).acc = s.acc := rfl
@[simp] theorem State.advance_shr (i : Nat) : (s.advance i).shr = s.shr := rfl
@[simp] theorem State.advance_progs (i : Nat) : (s.advance i).progs = s.progs := rfl
@[simp] theorem State.advance_scenes (i : Nat) : (s.advance i).scenes = s.scenes := rfl
@[simp] theorem State.advance_streams (i : Nat) : (s.advance i).streams = s.streams := rfl
@[simp] theorem State.advance_pool (i : Nat) : (s.advance i).pool = s.pool := rfl
@[simp] theorem State.advance_hbm (i : Nat) : (s.advance i).hbm = s.hbm := rfl
@[simp] theorem State.advance_badLines (i : Nat) : (s.advance i).badLines = s.badLines := rfl
@[simp] theorem State.advance_flash (i : Nat) : (s.advance i).flash = s.flash := rfl
@[simp] theorem State.advance_gran (i : Nat) : (s.advance i).gran = s.gran := rfl
@[simp] theorem State.advance_sweep (i : Nat) : (s.advance i).sweep = s.sweep := rfl
@[simp] theorem State.advance_blocks (i : Nat) : (s.advance i).blocks = s.blocks := rfl
@[simp] theorem State.advance_ftl (i : Nat) : (s.advance i).ftl = s.ftl := rfl
@[simp] theorem State.advance_flashBad (i : Nat) : (s.advance i).flashBad = s.flashBad := rfl
@[simp] theorem State.advance_fillQ (i : Nat) : (s.advance i).fillQ = s.fillQ := rfl
@[simp] theorem State.advance_buckets (i : Nat) : (s.advance i).buckets = s.buckets := rfl
@[simp] theorem State.advance_heldReqs (i : Nat) : (s.advance i).heldReqs = s.heldReqs := rfl
@[simp] theorem State.advance_host (i : Nat) : (s.advance i).host = s.host := rfl
@[simp] theorem State.advance_hostReject (i : Nat) : (s.advance i).hostReject = s.hostReject := rfl
@[simp] theorem State.advance_objs (i : Nat) : (s.advance i).objs = s.objs := rfl
@[simp] theorem State.advance_queues (i : Nat) : (s.advance i).queues = s.queues := rfl
@[simp] theorem State.advance_cmds (i : Nat) : (s.advance i).cmds = s.cmds := rfl
@[simp] theorem State.advance_nextTok (i : Nat) : (s.advance i).nextTok = s.nextTok := rfl
@[simp] theorem State.advance_sch (i : Nat) : (s.advance i).sch = s.sch := rfl
@[simp] theorem State.advance_ports (i : Nat) : (s.advance i).ports = s.ports := rfl
@[simp] theorem State.advance_openTx (i : Nat) : (s.advance i).openTx = s.openTx := rfl
@[simp] theorem State.advance_nextTx (i : Nat) : (s.advance i).nextTx = s.nextTx := rfl
@[simp] theorem State.advance_seqCtr (i : Nat) : (s.advance i).seqCtr = s.seqCtr := rfl
@[simp] theorem State.advance_sources (i : Nat) : (s.advance i).sources = s.sources := rfl
@[simp] theorem State.advance_qpRate (i : Nat) : (s.advance i).qpRate = s.qpRate := rfl
@[simp] theorem State.advance_qpAt (i : Nat) : (s.advance i).qpAt = s.qpAt := rfl
@[simp] theorem State.advance_time (i : Nat) : (s.advance i).time = s.time := rfl
@[simp] theorem State.advance_mapped (i : Nat) : (s.advance i).mapped = s.mapped := rfl
@[simp] theorem State.advance_ingest (i : Nat) : (s.advance i).ingest = s.ingest := rfl
@[simp] theorem State.advance_claims (i : Nat) : (s.advance i).claims = s.claims := rfl
@[simp] theorem State.advance_power (i : Nat) : (s.advance i).power = s.power := rfl
@[simp] theorem State.advance_primerJob (i : Nat) : (s.advance i).primerJob = s.primerJob := rfl
@[simp] theorem State.advance_switchTo (i : Nat) : (s.advance i).switchTo = s.switchTo := rfl
@[simp] theorem State.advance_abandoned (i : Nat) : (s.advance i).abandoned = s.abandoned := rfl
@[simp] theorem State.advance_abandonedUnits (i : Nat) : (s.advance i).abandonedUnits = s.abandonedUnits := rfl
@[simp] theorem State.advance_safeIt (i : Nat) : (s.advance i).safeIt = s.safeIt := rfl
@[simp] theorem State.advance_coldPend (i : Nat) : (s.advance i).coldPend = s.coldPend := rfl

@[simp] theorem State.clear_pending (lo n : Nat) : (s.clear lo n).pending = s.pending := rfl
@[simp] theorem State.clear_silicon (lo n : Nat) : (s.clear lo n).silicon = s.silicon := rfl
@[simp] theorem State.clear_held (lo n : Nat) : (s.clear lo n).held = s.held := rfl
@[simp] theorem State.clear_stagePcie (lo n : Nat) : (s.clear lo n).stagePcie = s.stagePcie := rfl
@[simp] theorem State.clear_stageMgmt (lo n : Nat) : (s.clear lo n).stageMgmt = s.stageMgmt := rfl
@[simp] theorem State.clear_heldFields (lo n : Nat) : (s.clear lo n).heldFields = s.heldFields := rfl
@[simp] theorem State.clear_lc (lo n : Nat) : (s.clear lo n).lc = s.lc := rfl
@[simp] theorem State.clear_nonceCtr (lo n : Nat) : (s.clear lo n).nonceCtr = s.nonceCtr := rfl
@[simp] theorem State.clear_freeCtr (lo n : Nat) : (s.clear lo n).freeCtr = s.freeCtr := rfl
@[simp] theorem State.clear_slotA (lo n : Nat) : (s.clear lo n).slotA = s.slotA := rfl
@[simp] theorem State.clear_slotB (lo n : Nat) : (s.clear lo n).slotB = s.slotB := rfl
@[simp] theorem State.clear_sb (lo n : Nat) : (s.clear lo n).sb = s.sb := rfl
@[simp] theorem State.clear_tiles (lo n : Nat) : (s.clear lo n).tiles = s.tiles := rfl
@[simp] theorem State.clear_links (lo n : Nat) : (s.clear lo n).links = s.links := rfl
@[simp] theorem State.clear_pal (lo n : Nat) : (s.clear lo n).pal = s.pal := rfl
@[simp] theorem State.clear_acc (lo n : Nat) : (s.clear lo n).acc = s.acc := rfl
@[simp] theorem State.clear_shr (lo n : Nat) : (s.clear lo n).shr = s.shr := rfl
@[simp] theorem State.clear_progs (lo n : Nat) : (s.clear lo n).progs = s.progs := rfl
@[simp] theorem State.clear_scenes (lo n : Nat) : (s.clear lo n).scenes = s.scenes := rfl
@[simp] theorem State.clear_streams (lo n : Nat) : (s.clear lo n).streams = s.streams := rfl
@[simp] theorem State.clear_pool (lo n : Nat) : (s.clear lo n).pool = s.pool := rfl
@[simp] theorem State.clear_hbm (lo n : Nat) : (s.clear lo n).hbm = s.hbm := rfl
@[simp] theorem State.clear_badLines (lo n : Nat) : (s.clear lo n).badLines = s.badLines := rfl
@[simp] theorem State.clear_flash (lo n : Nat) : (s.clear lo n).flash = s.flash := rfl
@[simp] theorem State.clear_gran (lo n : Nat) : (s.clear lo n).gran = s.gran := rfl
@[simp] theorem State.clear_sweep (lo n : Nat) : (s.clear lo n).sweep = s.sweep := rfl
@[simp] theorem State.clear_blocks (lo n : Nat) : (s.clear lo n).blocks = s.blocks := rfl
@[simp] theorem State.clear_ftl (lo n : Nat) : (s.clear lo n).ftl = s.ftl := rfl
@[simp] theorem State.clear_flashBad (lo n : Nat) : (s.clear lo n).flashBad = s.flashBad := rfl
@[simp] theorem State.clear_fillQ (lo n : Nat) : (s.clear lo n).fillQ = s.fillQ := rfl
@[simp] theorem State.clear_buckets (lo n : Nat) : (s.clear lo n).buckets = s.buckets := rfl
@[simp] theorem State.clear_heldReqs (lo n : Nat) : (s.clear lo n).heldReqs = s.heldReqs := rfl
@[simp] theorem State.clear_host (lo n : Nat) : (s.clear lo n).host = s.host := rfl
@[simp] theorem State.clear_hostReject (lo n : Nat) : (s.clear lo n).hostReject = s.hostReject := rfl
@[simp] theorem State.clear_objs (lo n : Nat) : (s.clear lo n).objs = s.objs := rfl
@[simp] theorem State.clear_queues (lo n : Nat) : (s.clear lo n).queues = s.queues := rfl
@[simp] theorem State.clear_cmds (lo n : Nat) : (s.clear lo n).cmds = s.cmds := rfl
@[simp] theorem State.clear_nextTok (lo n : Nat) : (s.clear lo n).nextTok = s.nextTok := rfl
@[simp] theorem State.clear_sch (lo n : Nat) : (s.clear lo n).sch = s.sch := rfl
@[simp] theorem State.clear_itNow (lo n : Nat) : (s.clear lo n).itNow = s.itNow := rfl
@[simp] theorem State.clear_ports (lo n : Nat) : (s.clear lo n).ports = s.ports := rfl
@[simp] theorem State.clear_openTx (lo n : Nat) : (s.clear lo n).openTx = s.openTx := rfl
@[simp] theorem State.clear_nextTx (lo n : Nat) : (s.clear lo n).nextTx = s.nextTx := rfl
@[simp] theorem State.clear_seqCtr (lo n : Nat) : (s.clear lo n).seqCtr = s.seqCtr := rfl
@[simp] theorem State.clear_sources (lo n : Nat) : (s.clear lo n).sources = s.sources := rfl
@[simp] theorem State.clear_qpRate (lo n : Nat) : (s.clear lo n).qpRate = s.qpRate := rfl
@[simp] theorem State.clear_qpAt (lo n : Nat) : (s.clear lo n).qpAt = s.qpAt := rfl
@[simp] theorem State.clear_time (lo n : Nat) : (s.clear lo n).time = s.time := rfl
@[simp] theorem State.clear_mapped (lo n : Nat) : (s.clear lo n).mapped = s.mapped := rfl
@[simp] theorem State.clear_ingest (lo n : Nat) : (s.clear lo n).ingest = s.ingest := rfl
@[simp] theorem State.clear_claims (lo n : Nat) : (s.clear lo n).claims = s.claims := rfl
@[simp] theorem State.clear_power (lo n : Nat) : (s.clear lo n).power = s.power := rfl
@[simp] theorem State.clear_primerJob (lo n : Nat) : (s.clear lo n).primerJob = s.primerJob := rfl
@[simp] theorem State.clear_switchTo (lo n : Nat) : (s.clear lo n).switchTo = s.switchTo := rfl
@[simp] theorem State.clear_abandoned (lo n : Nat) : (s.clear lo n).abandoned = s.abandoned := rfl
@[simp] theorem State.clear_abandonedUnits (lo n : Nat) : (s.clear lo n).abandonedUnits = s.abandonedUnits := rfl
@[simp] theorem State.clear_safeIt (lo n : Nat) : (s.clear lo n).safeIt = s.safeIt := rfl
@[simp] theorem State.clear_coldPend (lo n : Nat) : (s.clear lo n).coldPend = s.coldPend := rfl

end Sys2Proof.Machine
end

