-- ==== Sys2Proof/Machine/Views.lean ====
section
/-! DEFINITION. What a read of BAR0 returns (18 R543-R550): the stored fields, and the readings that show the state of a queue, a table or a
unit. No read has a side effect. -/

namespace Sys2Proof.Machine

/-- What the registers show: in safe state every reading but those of the live blocks stands as it was on entry, the abandoned commands and
units included (R480, R550). -/
def State.shown (s : State) : State :=
  if s.safe then { s with cmds := s.abandoned, sch := { s.sch with units := s.abandonedUnits } } else s

/-- The flag as a bit. -/
def bitOf (b : Bool) (n : Nat) : Nat := if b then 2 ^ n else 0

/-! ## Commands and scheduler -/

/-- STATE of a queue (R400). -/
def QSt.code : QSt → Nat
  | .disabled => 0
  | .enabled => 1
  | .draining => 2

/-- CLIENT_RUN of a client (R439). -/
def State.clientRun (s : State) (c : Nat) : Nat :=
  ((List.range 8).foldl (fun n q => n + bitOf (s.queue (8 * c + q)).suspended (16 + q)) 0) +
    min 65535 (s.cmds.filter fun x => x.client == c && x.phase == .saved).length

/-! ## Engines: STATE 0 IDLE, 1 RUNNING, 2 WAITING, 3 SAVED -/

/-- The unit on instance `i` of a kind: the holder, or the one whose context is saved from it. -/
def State.unitOn (s : State) (kind i : Nat) : Option SUnit :=
  (s.sch.units.find? fun u => u.kind == kind && u.inst == i && u.held) <|>
    (s.sch.units.find? fun u => u.kind == kind && u.inst == i && u.saved)

/-- STATE of a unit. -/
def SUnit.state (u : SUnit) (waits : Bool) : Nat := if u.held then (if waits then 2 else 1) else 3

/-- OP and ENTRY of an engine entry, with a STATE. -/
def EntryRun.status (e : EntryRun) (p : Program) (kind st : Nat) : Nat :=
  let op := if kind = 1 then bits ((p.entryWords e).getD 0 0) 15 8
    else if kind = 3 then bits ((p.entryWords e).getD 0 0) 7 0 else 0
  (if kind = 2 then 0 else op % 16 * 2 ^ 24) + e.idx % 65536 * 2 ^ 8 + st

/-- Entries of a kind in their WAIT, of the running commands in order. -/
def State.waitingEntries (s : State) (kind : Nat) : List (ProgRun × EntryRun) :=
  (s.cmds.filter fun c => c.phase == .running).flatMap fun c => match c.run with
    | none => []
    | some r => (r.entries.filter fun e => e.kind == kind && !e.started && !e.done && e.waitOn.isSome && !e.waitMet).map fun e => (r, e)

/-- An attention unit that holds its engine waits for a lent tile to reach its WAIT (R226). -/
def State.unitWaits (s : State) (u : SUnit) : Bool :=
  match s.onEntry u.tok u.entry u.sub with
  | none => false
  | some o => match o.query s with | some b => !o.lent b.a | none => false

/-- STATUS of a glaze, attention, image-transform or crop-and-resize engine (R205, R238, R273): OP, ENTRY, STATE. An entry in its WAIT holds
no engine yet; the j-th such entry of a kind shows as WAITING on the j-th engine that is otherwise idle, and an attention engine as WAITING
while its unit has no lent tile (DESIGN CHOICE, log entry 83). -/
def State.engineStatus (s : State) (kind i : Nat) : Nat :=
  match s.unitOn kind i with
  | none =>
    let j := ((List.range i).filter fun k => (s.unitOn kind k).isNone).length
    (match (s.waitingEntries kind)[j]? with
     | none => 0
     | some (r, e) => match s.runProg r with | some p => e.status p kind 2 | none => 0)
  | some u =>
    match (s.cmd u.tok).bind (·.run) with
    | none => u.state false
    | some r =>
      match r.entries[u.entry]?, s.runProg r with
      | some e, some p => e.status p kind (u.state (s.unitWaits u))
      | _, _ => u.state false

/-- RTC_STATUS (R324): OP, the list index of the block in progress, STATE. -/
def State.rtcStatus (s : State) (i : Nat) : Nat :=
  match s.unitOn 5 i with
  | none => 0
  | some u =>
    match s.cmd u.tok with
    | none => u.state false
    | some c =>
      match c.rtc with
      | none => u.state false
      | some w =>
        let claims := (c.op == 0x0400 && !w.claimed) || w.stage == .claimSnap || w.stage == .claimFlip
        let op := if c.op = 0x0400 then (if w.checked then 2 else 1) else 3
        let idx := if c.op = 0x0400 then
            (match w.blocks.find? fun b => b.started && b.status.isNone && b.unit == u.entry with | some b => b.idx | none => 0)
          else w.cur
        op * 2 ^ 24 + idx % 4096 * 2 ^ 12 + u.state claims

/-- WORK of a mover piece (R372). -/
def Piece.work (p : Piece) : Nat :=
  match p.kind with
  | 2 => 2
  | 5 => 5
  | 6 => 6
  | _ => 1

/-- DMA_STATUS of a mover that no command holds: movers also carry fills, write-backs and contexts (R58, R372), and which of them do is
not the spec's to say. DESIGN CHOICE, log entry 64. -/
def State.moverBackground (s : State) (i : Nat) : Nat :=
  if s.cmds.any (fun c => c.phase == .saving || c.phase == .restoring) && Config.moverTakes 4 s.freeCtr i then 4 * 16 + 1
  else if s.gran.any (fun e => e.2.move != 0) && Config.moverTakes 3 s.freeCtr i then 3 * 16 + 1
  else 0

/-- A piece has to wait: an access of it does (R328, R362), or the check-value unit of its copy is not granted (R485). -/
def State.pieceWaits (s : State) (c : Cmd) (p : Piece) : Bool :=
  s.cells p.src p.len == .wait || (match s.store p.dst p.len [] with | .wait => true | _ => false) ||
    (c.checkMode != 0 && !(s.sch.units.any fun u => u.tok == c.tok && u.kind == 9 && u.held))

/-- DMA_STATUS (R372). -/
def State.dmaStatus (s : State) (i : Nat) : Nat :=
  match s.unitOn 6 i with
  | none => s.moverBackground i
  | some u =>
    match (s.cmd u.tok).bind fun c => c.pieces.head?.map fun p => (c, p) with
    | some (c, p) => p.work * 16 + u.state (s.pieceWaits c p)
    | none => 16 + u.state false

/-- CV_STATUS (R499): the algorithm of the copy the unit serves. -/
def State.cvStatus (s : State) (i : Nat) : Nat :=
  match s.unitOn 9 i with
  | none => 0
  | some u =>
    if !u.held then 0
    else match s.cmd u.tok with
      | some c => c.f 0x68 31 28 * 16 + 1
      | none => 1

/-- Units of a kind now at work, as a bit mask of instances. -/
def State.busyMask (s : State) (kind n : Nat) : Nat :=
  (List.range n).foldl (fun m i => m + bitOf ((s.holders kind).any fun u => u.inst == i) i) 0

/-! ## Tiles (R129, R132, R133, R135) -/

/-- STATE of a tile. -/
def TileSt.code : TileSt → Nat
  | .idle => 0
  | .running => 1
  | .replaying => 2
  | .quarantined => 3
  | .retired => 4
  | .selfTest => 5

/-- TILE_STATUS. -/
def Tile.status (x : Tile) : Nat :=
  (16 - min 16 x.recs.length) * 2 ^ 19 + ((x.spares true).filter Spare.free).length * 2 ^ 15 +
    ((x.spares false).filter Spare.free).length * 2 ^ 11 + bitOf x.residueOn 8 + (if x.retireFuse then 4 else x.st.code)

/-- SUSPECT_n. -/
def Tile.suspectReg (x : Tile) (n : Nat) : Nat :=
  match x.suspects[n]? with
  | some y => y.count * 2 ^ 16 + 2 ^ 9 + y.col
  | none => 0

/-- FIELD_RECORD_n. -/
def Tile.recReg (x : Tile) (n : Nat) : Nat :=
  match x.recs[n]? with
  | some r => 2 ^ 31 + r.kind * 2 ^ 28 + r.logical * 2 ^ 8 + r.spare
  | none => 0

/-- SPARE_ROW_n and SPARE_COL_n. -/
def Spare.toNat (x : Spare) : Nat :=
  bitOf x.use.isSome 31 + bitOf x.bad 30 + bitOf x.factory 29 + x.use.getD 0

/-! ## Power -/

/-- A time counter with its running interval (R511, R514). -/
def State.running64 (s : State) (off : Nat) (since : Option Nat) : Nat :=
  min (2 ^ 64 - 1) (s.reg64 off + match since with | some t => s.itNow - t | none => 0)

/-- STATE of a port (R472). -/
def PortSt.code : PortSt → Nat
  | .down => 0
  | .training => 1
  | .up => 2
  | .retrain => 3

/-- LIFE_USED (R355, R371): the mean erase count over the in-service blocks in 0.01 % steps of 1,000, above what it was as shipped. -/
def State.lifeUsed (s : State) : Nat :=
  let sum := (s.blocks.filter fun e => !e.2.bad).foldl (fun n e => n + e.2.erases) 0
  min 0xFFFF (s.ftl.life + sum * 10 / (eraseBlocks - (s.blocks.filter fun e => e.2.bad).length))

/-! ## The reading of one register -/

/-- A register's value: its stored fields, or the reading of what it shows. -/
def State.reading (s : State) (a : RegAt) : Nat :=
  let w := s.shown
  match a.row.base with
  | 0x004 => s.silicon.major % 256 * 256 + s.silicon.minor % 256
  | 0x008 => 0x0C00 + (match s.silicon.sku with | .h4 => 1 | .h3e => 2)
  | 0x00C => s.healthyTiles
  | 0x018 => s.silicon.uid % 2 ^ 64
  | 0x10C => (Config.bootUs s.nonceCtr).toNat
  | 0x1000 => s.fld 0x1000 4 4 * 16 + s.lc.st.code
  | 0x1008 => (Config.freshNonce s.nonceCtr).toNat
  | 0x1014 => s.lc.result
  | 0x1018 => s.lc.transitions
  | 0x1028 => (Config.scrapeLines s.nonceCtr).toNat
  | 0x1040 => leNat ((padTo 32 s.lc.issuer).drop (4 * a.j) |>.take 4)
  | 0x1060 => leNat ((padTo 32 s.lc.owner).drop (4 * a.j) |>.take 4)
  | 0x3000 => bitOf (!s.sb.mram.isEmpty) 1 + bitOf (decide (4096 ≤ s.sb.head.length)) 0
  | 0x3008 => s.sb.nextSeq
  | 0x3010 => (match s.sb.ring ++ s.sb.mram with | r :: _ => r.seq | [] => s.sb.oldest)
  | 0x3018 => s.sb.head.length
  | 0x301C => s.sb.dropped
  | 0x10000 => bitOf ((s.queue a.i).st == .enabled) 0
  | 0x10004 => s.stored a / 4 * 4 + (s.queue a.i).st.code
  | 0x1001C => (s.queue a.i).sqHead
  | 0x10020 => bitOf (s.queue a.i).phase 16 + (s.queue a.i).cqWrite
  | 0x19100 => w.clientTokens a.i
  | 0x1A000 => w.cmds.length
  | 0x20200 => w.clientRun a.i
  | 0x40000 => (s.obj a.i).value
  | 0x40008 => (s.obj a.i).config.toNat
  | 0x4000C => bitOf (s.obj a.i).sat 31 + bitOf (s.obj a.i).rfail 30 + w.waiters a.i
  | 0x80000 => s.streamEntry a.i / 2 ^ (64 * a.j) % 2 ^ 64
  | 0x100000 => (s.tile a.i).status
  | 0x100120 => (s.tile a.i).suspectReg a.j
  | 0x100200 => (s.tile a.i).recReg a.j
  | 0x100300 => (((s.tile a.i).spares false).getD a.j {}).toNat
  | 0x100320 => (((s.tile a.i).spares true).getD a.j {}).toNat
  | 0x140000 => w.engineStatus 1 a.i
  | 0x148000 => w.engineStatus 2 a.i
  | 0x150000 => w.engineStatus 3 a.i
  | 0x154000 => w.engineStatus 4 a.i
  | 0x158000 => w.rtcStatus a.i
  | 0x15C000 => w.dmaStatus a.i
  | 0x182008 =>
    if a.j = 0 then (s.gran.filter fun e => e.2.resident).length
    else if a.j = 1 then s.pinned
    else (s.gran.filter fun e => e.2.resident && e.2.dirty).length
  | 0x1C0004 => s.lifeUsed
  | 0x1C0008 => if a.j = 0 then s.ftl.hostWritten else s.ftl.nandWritten
  | 0x1C0018 => if a.j = 0 then s.ftl.spare else s.ftl.badBlocks
  | 0x1C0048 => if a.j = 0 then s.stored a else (s.gran.filter fun e => e.2.poison).length
  | 0x200034 => s.sources.length
  | 0x200104 => (s.port a.i).st.code + (if (s.port a.i).st = .up then (s.port a.i).rate * 16 else 0)
  | 0x200108 => s.creditsUsed a.i
  | 0x220000 => s.itNow
  | 0x22000C => s.time.st
  | 0x220030 => (s.winOf (if s.safe then s.safeIt else s.itNow) % (2 ^ 64 : Int)).toNat
  | 0x240000 => w.cvStatus a.i
  | 0x280050 => if a.j = 0 then s.running64 0x280050 s.power.throttleAt
    else if a.j = 1 then s.running64 0x280058 s.power.pacedAt else s.stored a
  | 0x2C0000 =>
    ((List.range 64).filter fun t => (s.tile t).st == .selfTest).length * 2 ^ 16 +
      bitOf ((List.range 12).any fun p => s.eyeResult p == 1) 1 + bitOf (s.fld 0x2C0104 31 28 == 1) 0
  | 0x300000 => w.busyMask 8 2 * 2 ^ 8 + w.busyMask 7 8
  | 0x300100 => (match SMap.get (fun _ => none) s.ingest a.i with | some g => g.sealedTo | none => 0)
  | _ => s.stored a

/-- A value as its fields read (R546): reserved and write-only bits read 0, and a field may give its stored value another reading. -/
def RegRow.readAs (r : RegRow) (v : Nat) : Nat :=
  r.fields.foldl (fun w f => if f.acc = .wo then w else w + f.rd.app (bits v f.hi f.lo) * 2 ^ f.lo) 0

/-- Which reads return a value (R522): before READY only the blocks below 0x1_0000. -/
def State.readable (s : State) (off : Nat) : Bool := s.ready || decide (off < 0x10000)

/-- The register's value as a read returns it. -/
def State.readReg (s : State) (a : RegAt) : Nat := if s.readable a.off then a.row.readAs (s.reading a) else 0

/-- One aligned 32-bit read. -/
def State.read32 (s : State) (off : Nat) : Nat :=
  match regAt off with
  | some a => s.readReg a / 2 ^ (8 * a.byte) % 2 ^ 32
  | none => 0

/-- A read of BAR0 of `bytes` bytes: aligned 32-bit and 64-bit reads alone return a value (R543, R544). -/
def State.bar0Read (s : State) (off bytes : Nat) : Nat :=
  if bytes = 4 ∧ off % 4 = 0 then s.read32 off
  else if bytes = 8 ∧ off % 8 = 0 then s.read32 off + 2 ^ 32 * s.read32 (off + 4)
  else 0

end Sys2Proof.Machine
end

