-- ==== Sys2Proof/Tests/Slice0.lean ====
section
/-! SUPPORT. The author's tests: well-formedness refuses what it must, a few single steps against the spec's own numbers, and for every
statement with hypotheses a concrete state and operands that meet them together. -/

set_option Elab.async false

namespace Sys2Proof.Machine
open Sys2Proof

/-! ## Ill-formed terms are refused -/

theorem test_illformed_moment : (Instr.washTick (2 ^ 64) 0).wellFormed = false := by decide
theorem test_wellformed_moment : (Instr.washTick (2 ^ 64 - 1) 0).wellFormed = true := by decide
theorem test_illformed_sequence : (Instr.nakReceived 0 65536).wellFormed = false := by decide
theorem test_illformed_domain : (Instr.ptpMessage 256 0 0).wellFormed = false := by decide
theorem test_illformed_granule : (Instr.fillDone 6291456 true).wellFormed = false := by decide
theorem test_illformed_scrub : (Instr.hbmScrub 0 3).wellFormed = false := by decide
theorem test_illformed_steps : (Instr.readDisturbSample 0 [0, 1, 2, 0, 1, 2] 0).wellFormed = false := by decide
theorem test_illformed_block : (Instr.reclaim 1048576 true).wellFormed = false := by decide
theorem test_illformed_cell : (Instr.tileTestDone 0 [(1024, 0)]).wellFormed = false := by decide
theorem test_illformed_pending : (Instr.pendingFieldWrite .pcie 0x180040 0).wellFormed = false := by decide
theorem test_illformed_rate : (Instr.trainingDone 0 0).wellFormed = false := by decide
theorem test_illformed_priority : (Instr.pfcFrame 0 8 true).wellFormed = false := by decide

/-! ## Small states -/

/-- Reset with some registers at given values. -/
def tRegs (rs : List (Nat × W32)) : State := rs.foldl (fun s e => s.setReg e.1 e.2) State.reset

/-- A dispatched command with token 0. -/
def tCmd (op : Nat) (par : List Nat) (phase : Phase := .dispatched) : Cmd :=
  { tok := 0, qid := 0, op := op, flags := 0, tag := 0, notBefore := 0, waitValue := 0, signalValue := 0, signalObj := 0, waitObj := 0
    stream := 0, epoch := 0, seed := 0, par := par ++ List.replicate (16 - par.length) 0, phase := phase }

/-- `s` with one command. -/
def tWith (c : Cmd) (s : State := State.reset) : State := { s with cmds := [c], nextTok := 1 }

/-- A lone command that need not wait begins. -/
theorem begins_alone {s : State} {tok op : Nat} {c : Cmd} (h : s.cmds = [c])
    (hs : (s.live && c.phase == .dispatched && !c.begun && !s.mustWait [] c && c.status == 0 && c.detail == 0 && c.tok == tok && c.op == op) =
      true) : s.Begins tok op c := by
  simp only [Bool.and_eq_true, beq_iff_eq, Bool.not_eq_true'] at hs
  obtain ⟨⟨⟨⟨⟨⟨⟨hl, hp⟩, hb⟩, hw⟩, h1⟩, h2⟩, rfl⟩, rfl⟩ := hs
  refine ⟨?_, ?_, h1, h2⟩
  · simp [State.mayBegin, hl, State.unbegun, h, hp, hb, State.firstFree, hw]
  · intro d hd _; rw [h] at hd; simpa using hd

/-- A lone running command runs. -/
theorem runs_alone {s : State} {tok : Nat} {c : Cmd} (h : s.cmds = [c]) (hs : (s.live && c.phase == .running && c.tok == tok) = true) :
    s.Runs tok c := by
  simp only [Bool.and_eq_true, beq_iff_eq] at hs
  obtain ⟨⟨hl, hp⟩, rfl⟩ := hs
  refine ⟨?_, ?_⟩
  · simp [State.running, hl, State.cmd, h, hp]
  · intro d hd _; rw [h] at hd; simpa using hd

/-! ## The machine as a whole -/

theorem witness_StepRunsFrontCommand : ({ State.reset with pending := [.powerOn, .perst] } : State).pending = .powerOn :: [.perst] := rfl

theorem witness_EveryStepKeepsSiliconAndQueueRest :
    (∃ t, step State.reset = .next t) ∧ ∃ t, step { State.reset with pending := [.hotReset] } = .next t := ⟨⟨_, rfl⟩, ⟨_, rfl⟩⟩

/-- A record of the OWNED state with both keys. -/
def tOwned : LcRecord := { st := .owned, issuer := List.replicate 32 1, owner := List.replicate 32 2 }

theorem witness_EveryStepKeepsLifeCycleRecordRules : State.reset.lc.ok ∧ ({ State.reset with lc := tOwned } : State).lc.ok ∧
    ∃ t, step { State.reset with lc := tOwned, pending := [.lcGo .mgmt] } = .next t :=
  ⟨⟨rfl, by decide, rfl, rfl⟩, ⟨rfl, by decide, by decide, by decide⟩, ⟨_, rfl⟩⟩

theorem witness_OnlyResetsAndRequestsChangeLifeCycle : ∃ t, exec (.nop 0) State.reset = .next t := ⟨_, rfl⟩

/-! ## Register writes -/

/-- Safe state by register, not READY, and in a transition. -/
def tSafe : State := tRegs [(0x260010, 1)]
def tNotReady : State := tRegs [(0x108, 0)]

theorem witness_WritesNotTakenChangeNothing : tSafe.safe = true ∧ tSafe.accepts (qBase 511) = false ∧ tSafe.accepts 0x18000 = false ∧
    tSafe.accepts (0x18004 + 8 * 511) = false ∧ tNotReady.ready = false ∧ (tRegs [(0x1000, 16)]).scraping = true := by decide +kernel

theorem reset_openRegs : State.reset.openRegs := ⟨by decide +kernel, by decide +kernel, by decide +kernel⟩

theorem witness_ClearResetsItsCounters : State.reset.openRegs := reset_openRegs
theorem witness_ClearReachesTables : State.reset.openRegs := reset_openRegs
theorem witness_LockSetsItsBit : State.reset.openRegs := reset_openRegs

/-- The register at an offset, by its row in the map. -/
theorem witness_WriteGivesEachFieldItsValue : ∃ a f, regAt 0x200004 = some a ∧ f ∈ a.row.fields ∧ f.acc = .rwl ∧
    (tRegs [(0x20003C, 1)]).locked a = true ∧ State.reset.locked a = false := by
  refine ⟨_, _, rfl, List.mem_cons_self .., ?_⟩
  decide +kernel

theorem witness_PlainRegisterWrite :
    (∃ a, regAt 0x120 = some a ∧ a.plain = true ∧ State.reset.accepts 0x120 = true ∧ a.byte = 0 ∧ a.row.wide = false) ∧
    (∃ a, regAt 0x128 = some a ∧ a.plain = true ∧ State.reset.accepts 0x128 = true ∧ a.byte = 0 ∧ a.row.wide = true) := by
  refine ⟨⟨_, rfl, ?_⟩, ⟨_, rfl, ?_⟩⟩ <;> decide +kernel

theorem witness_IgnoredAndStagedWrites : (¬(2 = 4 ∧ 0x120 % 4 = 0) ∧ ¬(2 = 8 ∧ 0x120 % 8 = 0)) ∧
    ∃ a, regAt 0x128 = some a ∧ a.row.wide = true ∧ a.byte = 0 ∧ 0x128 % 4 = 0 := by
  refine ⟨by decide, _, rfl, ?_⟩; decide +kernel


/-! ## Supply, adaptive loops -/

theorem witness_SafeStateEntry : State.reset.safe = false ∧ State.reset.openRegs ∧ State.reset.ready = true ∧ 37999 < 38000 ∧ 62000 < 62001 ∧
    State.reset.upkeep = true ∧ 105 ≤ 105 ∧ State.reset.fld 0x280030 23 16 ≤ 105 := ⟨by decide +kernel, reset_openRegs, by decide +kernel⟩

theorem witness_SupplyEvents : State.reset.ready = true ∧ 39999 < 40000 ∧ 40000 ≤ 40000 ∧ State.reset.fld 0x280000 12 12 = 0 ∧
    (tRegs [(0x280014, 0)]).fld 0x280014 17 16 = 0 ∧ (tRegs [(0x280014, 0x10000)]).fld 0x280014 17 16 = 1 ∧
    (tRegs [(0x280014, 0x20000)]).fld 0x280014 17 16 = 2 ∧ (tRegs [(0x280014, 0x20000)]).safe = false := by decide +kernel

/-- Panel 3 is clamped and throttled at 1,000 MHz. -/
def tClamped : State := { State.reset with power := { clamp := [(3, 1000)], thermal := [(3, 1000)] } }

theorem witness_DroopAndRailSteps : State.reset.upkeep = true ∧ State.reset.fld (adaptReg 63) 0 0 = 0 ∧
    (tRegs [(adaptReg 63, 1)]).upkeep = true ∧ (tRegs [(adaptReg 63, 1)]).fld (adaptReg 63) 0 0 = 1 ∧
    tClamped.upkeep = true ∧ SMap.get (fun _ => 0) tClamped.power.clamp 3 ≠ 0 := by decide +kernel

theorem witness_ThermalSteps : State.reset.upkeep = true ∧ State.reset.fld 0x280030 23 16 ≤ 104 ∧
    tClamped.upkeep = true ∧ SMap.get (fun _ => 0) tClamped.power.thermal 3 ≠ 0 ∧
    (tClamped.fld 0x280030 23 16 - tClamped.fld 0x280030 3 0 - 1) + tClamped.fld 0x280030 3 0 < tClamped.fld 0x280030 23 16 := by decide +kernel

theorem witness_GovernorAndWash : State.reset.upkeep = true ∧
    (∃ w, (State.reset.setFld 0x28002C 15 0 (min w 65535)).powerBound < w ∧ State.reset.burning = false) ∧
    (∃ w, (State.reset.setFld 0x28002C 15 0 (min w 65535)).powerBound = w) ∧
    (∃ s : State, ∃ w, s = tRegs [(0x280000, 0x100)] ∧ s.power.wStart = true ∧ (s.setFld 0x28002C 15 0 (min w 65535)).powerBound < w ∧
      s.burning = true ∧ s.upkeep = true) ∧
    (∃ w, w < ({ State.reset with power := { wStart := false } } : State).powerBound ∨ w = 0) ∧
    State.reset.washOn = true ∧ State.reset.power.lastTick = none ∧ 0 < State.reset.ticksTo (0 % 2 ^ 64) ∧
    (∃ s : State, s = { State.reset with power := { lastTick := some 0 } } ∧ s.upkeep = true ∧ s.washOn = true ∧
      s.ticksTo ((2 * (s.reg 0x280024).toNat) % 2 ^ 64) = s.ticksTo 0 + 2) ∧
    (tRegs [(0x260004, 2), (adaptReg 63, 2)]).profile = 2 ∧ (tRegs [(0x260004, 2), (adaptReg 63, 2)]).fld (adaptReg 63) 1 1 = 1 ∧
    (tRegs [(0x260004, 2), (adaptReg 63, 2)]).upkeep = true := by
  refine ⟨by decide +kernel, ⟨2300, by decide +kernel⟩, ⟨2200, by decide +kernel⟩, ⟨_, 2300, rfl, by decide +kernel⟩, ⟨0, .inr rfl⟩, by decide +kernel, by decide +kernel, by decide +kernel, ⟨_, rfl, by decide +kernel⟩, ?_⟩
  decide +kernel

/-! ## Residency and movement -/

/-- Granule 0 is resident in frame 0 and as given; the flash map is loaded. -/
def tGran (x : Granule) : State := { tRegs [(0x1C0000, 0)] with gran := [(0, x)] }

theorem witness_HintsChangeGranules :
    (∃ s c, c = tCmd 0x0302 [1, 0, 2097152, 0, 0] ∧ s = tWith c ∧ s.Begins 0 0x0302 c ∧ c.granuleRange = .error 0x1001 ∧ c.f 0x50 2 0 = 0) ∧
    (∃ s c, c = tCmd 0x0302 [0, 0, 2097152, 0, 0] ∧ s = tWith c (tGran { resident := true }) ∧ s.Begins 0 0x0302 c ∧ c.granuleRange = .ok [0] ∧
      (s.granule 0).resident = true ∧ (s.granule 0).move = 0 ∧ (s.granule 0).by_ = 0 ∧ s.pinned + 1 + 1024 ≤ s.resFrames ∧ c.f 0x50 2 0 = 0) ∧
    (∃ s c, c = tCmd 0x0302 [0, 0, 2097152, 0, 0] ∧ s = tWith c (tRegs [(0x180004, 1184)]) ∧ s.Begins 0 0x0302 c ∧ c.granuleRange = .ok [0] ∧
      (s.granule 0).pin = false ∧ s.resFrames < s.pinned + 1 + 1024 ∧ c.f 0x50 2 0 = 0) ∧
    (∃ s c, c = tCmd 0x0302 [0, 0, 2097152, 0, 6] ∧ s = tWith c (tGran {}) ∧ s.Begins 0 0x0302 c ∧ c.granuleRange = .ok [0] ∧
      c.f 0x50 2 0 = 6 ∧ (s.granule 0).resident = false ∧ (s.granule 0).move = 0 ∧ s.fillQ = [] ∧ s.freeFrame = some 0 ∧ s.moving < 1024 ∧
      s.ftlState ≠ 1) := by
  refine ⟨⟨_, _, rfl, rfl, begins_alone rfl (by decide +kernel), rfl, by decide +kernel⟩, ⟨_, _, rfl, rfl, begins_alone rfl (by decide +kernel), rfl, by decide +kernel⟩,
    ⟨_, _, rfl, rfl, begins_alone rfl (by decide +kernel), rfl, by decide +kernel⟩, ⟨_, _, rfl, rfl, begins_alone rfl (by decide +kernel), rfl, by decide +kernel⟩⟩

theorem witness_MigrateMovesGranules :
    (∃ s c, c = tCmd 0x0301 [0, 0, 2097152, 0, 0] ∧ s = tWith c (tGran {}) ∧ s.Begins 0 0x0301 c ∧ c.granuleRange = .ok [0] ∧ c.targets = [] ∧
      c.items = [] ∧ c.savedPal = [] ∧ s.fillQ = [] ∧ c.f 0x50 1 0 = 0 ∧ (s.granule 0).resident = false ∧ (s.granule 0).move = 0 ∧
      (s.granule 0).poison = false ∧ s.ftlState ≠ 1 ∧ s.ftlState ≠ 3 ∧ s.freeFrame = some 0 ∧ s.moving < 1024) ∧
    (∃ s c, c = tCmd 0x0301 [0, 0, 2097152, 0, 1] ∧ s = tWith c (tGran { resident := true, dirty := true }) ∧ s.Begins 0 0x0301 c ∧
      c.granuleRange = .ok [0] ∧ s.ftlState = 0 ∧ (s.granule 0).resident = true ∧ (s.granule 0).move = 0 ∧ (s.granule 0).by_ = 0 ∧ c.f 0x50 1 0 = 1 ∧
      c.targets = [] ∧ c.items = [] ∧ c.savedPal = [] ∧ s.fillQ = [] ∧ (s.granule 0).dirty = true ∧ s.moving < 1024) ∧
    (∃ s c, c = tCmd 0x0301 [0, 0, 2097152, 0, 2] ∧ s = tWith c (tGran { resident := true }) ∧ s.Begins 0 0x0301 c ∧
      c.granuleRange = .ok [0] ∧ s.ftlState = 0 ∧ (s.granule 0).resident = true ∧ (s.granule 0).move = 0 ∧ (s.granule 0).by_ = 0 ∧ c.f 0x50 1 0 = 2 ∧
      c.targets = [] ∧ c.items = [] ∧ c.savedPal = [] ∧ s.fillQ = [] ∧
      (s.granule 0).dirty = false ∧ (s.granule 0).pin = false) ∧
    (∃ s c, c = tCmd 0x0301 [0, 0, 2097152, 0, 3] ∧ s = tWith c (tGran { resident := true }) ∧ s.Begins 0 0x0301 c ∧
      c.granuleRange = .ok [0] ∧ c.f 0x50 1 0 = 3 ∧ c.targets = [] ∧ c.items = [] ∧ c.savedPal = [] ∧ s.fillQ = [] ∧
      (s.granule 0).resident = true ∧ (s.granule 0).move = 0 ∧ (s.granule 0).by_ = 0) := by
  refine ⟨⟨_, _, rfl, rfl, begins_alone rfl (by decide +kernel), rfl, by decide +kernel⟩, ⟨_, _, rfl, rfl, begins_alone rfl (by decide +kernel), rfl, by decide +kernel⟩,
    ⟨_, _, rfl, rfl, begins_alone rfl (by decide +kernel), rfl, by decide +kernel⟩, ⟨_, _, rfl, rfl, begins_alone rfl (by decide +kernel), rfl, by decide +kernel⟩⟩

theorem tGran_memWf (x : Granule) : (tGran x).MemWf := ⟨rfl, rfl, rfl, rfl, rfl⟩

theorem witness_MovementsEnd :
    (∃ s, s = tGran { move := 1 } ∧ s.live = true ∧ s.MemWf ∧ s.ftlState = 0 ∧ s.NoMoves ∧ (s.granule 0).move = 1 ∧
      (s.granule 0).poison = false) ∧
    (∃ s, s = tGran { resident := true, dirty := true, move := 2 } ∧ s.live = true ∧ s.MemWf ∧ s.ftlState = 0 ∧ s.NoMoves ∧
      (s.granule 0).move = 2 ∧ (s.granule 0).by_ = 0 ∧ s.badIn (gBytes * (s.granule 0).frame) gBytes = false) ∧
    (∃ s c, c = { tCmd 0x0301 [0, 0, 2097152, 0, 1] .running with items := [[0]], targets := [0] } ∧
      s = tWith c (tGran { resident := true, dirty := true, by_ := 1 }) ∧ s.ftlState = 0 ∧ s.live = true ∧ s.fillQ = [] ∧ s.MemWf ∧ s.Runs 0 c ∧ c.op = 0x0301 ∧ c.f 0x50 1 0 = 1 ∧
      c.status = 0 ∧ c.detail = 0 ∧ (s.granule 0).resident = true ∧ (s.granule 0).move = 0 ∧ (s.granule 0).by_ = 0 + 1 ∧ (s.granule 0).met = false ∧
      s.badIn (gBytes * (s.granule 0).frame) gBytes = false) := by
  refine ⟨⟨_, rfl, by decide +kernel, tGran_memWf _, by decide +kernel, ⟨rfl, by decide +kernel, by intro d hd; cases hd⟩, by decide +kernel⟩,
    ⟨_, rfl, by decide +kernel, tGran_memWf _, by decide +kernel, ⟨rfl, by decide +kernel, by intro d hd; cases hd⟩, by decide +kernel⟩,
    ⟨_, _, rfl, rfl, by decide +kernel, by decide +kernel, rfl, ⟨rfl, rfl, rfl, rfl, rfl⟩, runs_alone rfl (by decide +kernel), by decide +kernel⟩⟩

theorem witness_RegulatorGrants : State.reset.live = true ∧ State.reset.fld 0x181000 0 0 = 0 ∧
    (∀ u ∈ State.reset.sch.units, u.kind ≠ 0 / 4096) ∧
    (∃ s, s = tRegs [(0x181000, 1), (0x181004, 15), (0x1811F0, 0x80000001)] ∧ s.live = true ∧ s.fld 0x181000 0 0 = 1 ∧ s.unitPart 0 = 15 ∧
      s.fld (0x181100 + 0x10 * 15) 15 0 ≠ 0 ∧
      min (SMap.get (fun _ => 0) s.buckets 0 - s.fld 0x1811F0 15 0 * 0) (max 1 (s.fld 0x1811F4 15 0) * 12288) + 6144 ≤
        max 1 (s.fld 0x1811F4 15 0) * 12288) := by
  refine ⟨by decide +kernel, by decide +kernel, by decide +kernel, _, rfl, by decide +kernel⟩

theorem witness_HbmUpkeep : State.reset.upkeep = true ∧
    State.reset.fld 0x180004 19 0 * 32768 - 1 < State.reset.fld 0x180004 19 0 * 32768 ∧
    hbmTarget State.reset.mapped ((State.reset.fld 0x180004 19 0 * 32768 - 1) * 64) < 384 ∧ State.reset.fld 0x183000 31 31 = 0 := by decide +kernel

/-- The flash map is loaded; `f` is its record, `bs` are its blocks. -/
def tFlash (f : FlashRec) (bs : SMap EBlock) : State := { tRegs [(0x1C0000, 0)] with ftl := f, blocks := bs }

theorem witness_FlashLayerUpkeep :
    (∃ s, s = tFlash {} [] ∧ s.ftlActs = true ∧ (s.block 1048575).since < (s.block 1048575).interval.getD (s.reg 0x1C0020).toNat ∧
      s.ftl.totalReads < 1048576) ∧
    (∃ s, s = tFlash {} [(0, { since := 4294967295 })] ∧ s.ftlActs = true ∧ (s.block 0).interval.getD (s.reg 0x1C0020).toNat ≤ (s.block 0).since ∧
      s.fld 0x1C0028 7 0 ≤ 255 ∧ 0 < s.fld 0x1C0028 7 0 ∧ s.readsOf 0 + 1 < (s.reg 0x1C0024).toNat ∧ s.mostlyInvalid 0 = false) ∧
    (∃ s, s = tFlash { spare := 256, groups := [(0, [0])], cur := 1 } [] ∧ s.ftlActs = true ∧ s.ftl.spare ≤ 256 ∧ s.ftlState = 0 ∧
      (s.block 0).bad = false ∧ s.mostlyInvalid 0 = true) ∧
    (∃ s, s = tFlash { spare := 257, groups := [(0, [0])], cur := 1 } [] ∧ s.ftlActs = true ∧ 256 < s.ftl.spare ∧ (s.block 0).bad = false ∧
      s.mostlyInvalid 0 = true) ∧
    (∃ s, s = tFlash {} [(0, { erases := 101 })] ∧ s.ftlActs = true ∧ (s.block 1).bad = false ∧ (s.block 1).erases = s.wearRange.1 ∧
      s.wearRange.1 + 100 < s.wearRange.2) ∧
    (∃ s, s = tFlash { totalReads := 1048576 } [] ∧ s.ftlActs = true ∧ 1048576 ≤ s.ftl.totalReads ∧
      SMap.wf (fun _ => ({} : EBlock)) s.blocks = true) := by
  refine ⟨⟨_, rfl, by decide +kernel⟩, ⟨_, rfl, by decide +kernel⟩, ⟨_, rfl, by decide +kernel⟩, ⟨_, rfl, by decide +kernel⟩,
    ⟨_, rfl, by decide +kernel⟩, ⟨_, rfl, by decide +kernel⟩⟩

theorem witness_FlashMapDecidesState : State.reset.held = false ∧ State.reset.ftlState = 1 ∧ State.reset.NoMoves :=
  ⟨rfl, by decide +kernel, ⟨rfl, by decide +kernel, by intro d hd; cases hd⟩⟩

/-! ## Links between modules -/

/-- Port 11 as given, in MODE `m`, and port 0 UP. -/
def tPort (m : Nat) (x : Port) : State := { tRegs [(0x2003C0, BitVec.ofNat 32 m)] with ports := [(0, { st := .up }), (11, x)] }

/-- A frame that was sent `n` times. -/
def tFrame (n : Nat) : Frame := { seq := 5, msg := .own 0, part := 0, len := 64, sends := n, firstAt := 0, lastAt := 0 }

theorem witness_LinkFrames :
    (∃ s, s = tPort 1 { st := .up, rxSeq := 65535, frames := [tFrame 7] } ∧ s.carries 11 1 = true ∧ 65535 % 65536 = (s.port 11).rxSeq ∧
      65534 % 65536 ≠ (s.port 11).rxSeq ∧ s.live = true ∧ s.portUp 11 = true ∧ ∀ f ∈ (s.port 11).frames, f.seq = 5 % 65536 → f.sends < 8) ∧
    (tPort 2 { st := .up }).carries 11 2 = true := by
  refine ⟨⟨_, rfl, by decide +kernel⟩, by decide +kernel⟩

theorem witness_PortTraining :
    (∃ s, s = { tPort 1 { st := .up, frames := [{ tFrame 8 with spent := true }] } with itNow := 1000000 } ∧ s.live = true ∧
      s.portUp 11 = true ∧ ∃ f ∈ (s.port 11).frames, s.frameFailed 11 f = true) ∧
    (∃ s, s = tPort 1 { st := .retrain, trained := true } ∧ s.live = true ∧ (s.port 11).st = .retrain ∧ (s.port 11).trained = true) ∧
    (∃ s, s = tPort 1 { st := .training } ∧ s.live = true ∧ (s.port 11).st = .training ∧ s.portMode 11 ≠ 0 ∧
      s.fld (0x200100 + 0x40 * 11) 6 4 = 0 ∧ (s.port 11).tryAt + 10000000 ≤ max s.itNow (10000000 % 2 ^ 64)) ∧
    State.reset.NothingWaits := by
  refine ⟨⟨_, rfl, by decide +kernel⟩, ⟨_, rfl, by decide +kernel⟩, ⟨_, rfl, by decide +kernel⟩, ⟨fun _ => rfl, ?_⟩⟩
  intro x hx; cases hx

theorem witness_EthernetPort : ∃ s, s = (tPort 2 { st := .up }).setReg 0x2003C0 0xF002 ∧ s.carries 11 2 = true ∧
    (BitVec.ofNat 32 (65536 * s.fld 0x200018 31 16 + s.fld 0x200000 15 0)).toNat = 65536 * s.fld 0x200018 31 16 + s.fld 0x200000 15 0 ∧
    s.fld (0x200100 + 0x40 * 11) 12 12 = 1 ∧ s.fld (0x200100 + 0x40 * 11) 15 13 = 7 := ⟨_, rfl, by decide +kernel⟩

/-- A transaction from module 2 of client 63, in its time; module 2's replies leave on port 0. -/
def tTx (add : Bool) (payload : List Byte) : RxTx :=
  { dst := 0, src := 2, client := 63, epoch := 1, seq := 0xFFFFFFFF, deadline := 1, incarnation := 7, floorSeq := 0xFFFFFFFF, add := add
    obj := 16383, amount := 1, addr := 0, payload := payload, e2e := false, e2eOk := false }

def tSource (held : List RxTx) : Source := { src := 2, inc := 7, held := held }

/-- Port 11 carries links, module 2 is known. -/
def tResponder (held : List RxTx) : State :=
  { tPort 1 { st := .up } with sources := [tSource held], gran := [(0, { resident := true })] }

theorem tFresh (add : Bool) (p : List Byte) : (tResponder []).Fresh (tSource []) (tTx add p) 0 := by
  refine ⟨rfl, ?_, rfl, .inl rfl, rfl, rfl, ?_, ?_, ⟨?_, ?_⟩, ?_, ?_⟩
  · show (0 : Nat) = _; decide +kernel
  · show max 0 (0 % 2 ^ 64) < 1; decide
  · intro h; cases h
  · intro h; cases h
  · intro f h; cases h
  · intro h; cases h
  · intro f h; cases h

theorem witness_ResponderAppliesOnce : (tResponder []).live = true ∧ (tResponder []).portUp 11 = true ∧
    (tResponder []).Fresh (tSource []) (tTx true []) 0 ∧ (tTx true []).add = true ∧ (tResponder []).route 2 = some 15 ∨
    (tResponder []).live = true ∧ (tResponder []).portUp 11 = true ∧
    (tResponder []).Fresh (tSource []) (tTx true []) 0 ∧ (tResponder []).Fresh (tSource []) (tTx false [1]) 0 ∧
    [(1 : Byte)] ≠ [] ∧ gBytes * 0 ≤ 0 ∧ 0 + 1 ≤ gBytes * (0 + 1) ∧ gBytes * (0 + 1) ≤ dvaEnd ∧ ((tResponder []).granule 0).resident = true ∧
    ((tResponder []).granule 0).move ≠ 2 ∧ (tResponder [tTx true []]).source 2 = some (tSource [tTx true []]) ∧
    (tTx true []).deadline.toNat ≤ max (tResponder [tTx true []]).itNow (1 % 2 ^ 64) :=
  .inr ⟨by decide +kernel, by decide +kernel, tFresh _ _, tFresh _ _, by decide +kernel⟩

/-- An open transaction to module 2. -/
def tOpen (resend : Nat) : OpenTx :=
  { id := 9, dest := 2, seq := 3, client := 0, epoch := 1, deadline := 100, add := true, obj := 1, amount := 1, addr := 0, payload := [], e2e := false
    port := some 0, sentOn := some 0, tok := some 0, proxy := none, detail := 2, floorSeq := 3, resendAt := resend }

/-- That transaction is open; module 2 is reached by port 0. -/
def tRequester (resend : Nat) : State := { (tPort 1 { st := .up }).setReg 0x210000 0 with openTx := [tOpen resend] }

theorem witness_RequesterSeesReplies :
    (∃ s, ∃ rep : RxReply, s = tRequester 0 ∧ rep = { src := 2, epoch := 1, seq := 3, incarnation := 1, result := 5 } ∧ s.live = true ∧
      (∀ x ∈ s.openTx, x.sentOn.isSome = true) ∧ s.portUp 11 = true ∧
      (s.openTx.find? fun y => y.dest == rep.src.toNat && y.seq == rep.seq.toNat && y.epoch == rep.epoch.toNat && y.sentOn.isSome &&
        rep.incarnation.toNat == s.lc.incarnation % 65536) = some (tOpen 0) ∧
      (s.openTx.find? fun y => y.id == 9 && y.sentOn.isSome) = some (tOpen 0) ∧
      (tOpen 0).deadline + (s.reg 0x20000C).toNat ≤ max s.itNow (10100 % 2 ^ 64)) ∧
    (∃ s, s = tRequester 5 ∧ s.live = true ∧ (s.openTx.find? fun y => y.id == 9 && y.resendAt != 0) = some (tOpen 5) ∧
      (s.openTx.find? fun y => y.id == 9) = some (tOpen 5) ∧ (tOpen 5).resendAt ≤ max s.itNow (5 % 2 ^ 64) ∧ s.route 2 = some 0) ∧
    (∃ s, s = tPort 1 { st := .up } ∧ s.live = true ∧ s.openTx = []) := by
  refine ⟨⟨_, _, rfl, rfl, by decide +kernel⟩, ⟨_, rfl, by decide +kernel⟩, ⟨_, rfl, by decide +kernel⟩⟩

theorem witness_TransitGoesOn : ∃ s, ∃ tx : RxTx, s = tRequester 0 ∧ tx = { tTx true [] with dst := 2 } ∧ s.carries 11 1 = true ∧
    tx.dst.toNat ≠ s.moduleId ∧ s.route tx.dst.toNat = some 0 := ⟨_, _, rfl, rfl, by decide +kernel⟩

/-! ## Registers whose write starts something -/

theorem witness_WritesThatStartUnits : State.reset.openRegs ∧ State.reset.fld 0x28006C 0 0 = 0 ∧ State.reset.fld 0x180040 0 0 = 0 ∧
    State.reset.fld 0x20003C 0 0 = 0 ∧ (0 : W32).toNat < (State.reset.reg 0x200014).toNat ∧ 1000 ≤ (30000 : W32).toNat ∧
    (30000 : W32).toNat ≤ 30000 ∧ State.reset.reg 0x200008 ≠ 1000 ∧ State.reset.fld 0x20018 31 31 = 0 ∧ State.reset.fld 0x181000 0 0 = 0 ∧
    (tRegs [(0x280018, 0)]).openRegs ∧ (tRegs [(0x280018, 0)]).washOn = false ∧ State.reset.washOn = true :=
  ⟨reset_openRegs, by decide +kernel, by decide +kernel, by decide +kernel, by decide +kernel, by decide +kernel, by decide +kernel,
    by decide +kernel, by decide +kernel, by decide +kernel, ⟨by decide +kernel, by decide +kernel, by decide +kernel⟩, by decide +kernel⟩

theorem witness_PortConfiguration : State.reset.openRegs ∧ State.reset.fld 0x20003C 0 0 = 0 ∧ bits (0x432 : W32).toNat 3 0 ≤ 2 ∧
    bits (0x432 : W32).toNat 6 4 ≤ 3 ∧ bits (0x432 : W32).toNat 11 8 ≤ 4 := ⟨reset_openRegs, by decide +kernel⟩

theorem witness_PendingFieldsAreHeld : State.reset.openRegs ∧ State.reset.fld 0x180040 0 0 = 0 ∧ bits (0x8000017F : W32).toNat 8 0 ≤ 383 ∧
    State.reset.fld 0x220048 0 0 = 0 ∧ 1000000 ≤ (1000000000 : W32).toNat ∧ (1000000000 : W32).toNat ≤ 1000000000 ∧
    (State.reset.reg 0x220024).toNat < (1000000000 : W32).toNat ∧ (9999999 : W32).toNat < (State.reset.reg 0x220020).toNat ∧
    ∀ f ∈ pendingFields, f.1 ≠ 0x180040 := ⟨reset_openRegs, by decide +kernel⟩

/-- A switch to Finish is in progress. -/
def tSwitching : State := { tRegs [(0x260000, 2), (0x260004, 5)] with switchTo := some 2 }

theorem witness_ProfileSwitch : State.reset.openRegs ∧ State.reset.fld 0x260050 0 0 = 0 ∧ State.reset.switching = false ∧
    bits (2 : W32).toNat 1 0 ≤ 2 ∧ bits (2 : W32).toNat 1 0 ≠ State.reset.fld 0x260000 1 0 ∧ tSwitching.switching = true ∧
    tSwitching.switchTo = some 2 ∧ tSwitching.upkeep = true ∧ tSwitching.portHeld (srcHub 0) = false := ⟨reset_openRegs, by decide +kernel⟩

/-! ## Reset, life cycle, primer -/

theorem witness_ResetsStartTheModuleAnew : State.reset.lc.marker = none ∧ State.reset.held = false ∧
    ({ State.reset with held := true, coldPend := true } : State).lc.marker = none ∧ State.reset.accepts 0x100 = true ∧
    bits (0xA501 : W32).toNat 0 0 = 1 ∧ bits (0xA501 : W32).toNat 15 8 = 0xA5 ∧ State.reset.primerJob = none ∧
    SMap.wf (fun _ => ({} : Tile)) State.reset.tiles = true := by decide +kernel

theorem witness_LifeCycleRequest_refused : State.reset.accepts 0x1010 = true ∧ State.reset.lcCheck = .error 5 := ⟨by decide +kernel, rfl⟩

/-- ISSUED, with an erase running on slot A. -/
def tPrimer : State := { State.reset with lc := { st := .issued, issuer := List.replicate 32 1 }, primerJob := some { op := 1, slotB := false, req := .pcie } }

theorem witness_PrimerSlots : State.reset.accepts 0x2020 = true ∧ State.reset.fld 0x2024 3 0 ≠ 1 ∧ State.reset.lc.st = .blank ∧
    tPrimer.accepts 0x2020 = true ∧ tPrimer.fld 0x2024 3 0 ≠ 1 ∧ tPrimer.lc.st = .issued ∧ tPrimer.fld 0x2028 0 0 = 0 ∧
    (tRegs [(0x2028, 1)]).fld 0x2028 0 0 = 1 ∧ tPrimer.ready = true ∧ tPrimer.primerJob = some { op := 1, slotB := false, req := .pcie } ∧
    State.reset.primerSource = none := by decide +kernel

/-! ## Queues, objects and windows -/

/-- Queue 511 as given. -/
def tQueue (x : Queue) : State := { State.reset with queues := [(511, x)] }

theorem witness_QueueRegisters :
    (State.reset.accepts (qBase 511) = true ∧ (State.reset.queue 511).st = .disabled ∧ State.reset.accepts (0x18000 + 8 * 511) = true ∧
      State.reset.accepts (0x18004 + 8 * 511) = true) ∧
    (∃ s, s = tQueue { st := .enabled, unread := 1 } ∧ s.accepts (qBase 511) = true ∧ (s.queue 511).st = .enabled ∧
      (0 : W32).toNat % 65536 < s.sqSize 511 ∧ (0 : W32).toNat % 65536 < s.cqSize 511 ∧ ¬((0xFFFF : W32).toNat % 65536 < s.sqSize 511)) ∧
    (∃ s, s = tQueue { st := .draining } ∧ s.live = true ∧ (s.queue 511).st = .draining ∧ ∀ c ∈ s.cmds, c.qid ≠ 511) ∧
    (∃ s, s = tWith { tCmd 0 [] with qid := 511 } (tQueue { st := .draining }) ∧ s.live = true ∧ ∃ c ∈ s.cmds, c.qid = 511) := by
  refine ⟨by decide +kernel, ⟨_, rfl, by decide +kernel⟩, ⟨_, rfl, by decide +kernel⟩, ⟨_, rfl, by decide +kernel⟩⟩

theorem witness_AddsSaturate : (State.reset.obj 0).value < 2 ^ 64 ∧ 1 ≠ 0 := by decide +kernel

/-- A command waits for object 16383 to reach 5. -/
def tWaits : State := tWith { tCmd 0 [] .wait with flags := 65536, waitObj := 16383, waitValue := 5 }

theorem witness_ObjectValueWrite : tWaits.openRegs ∧ ∃ c, tWaits.cmd 0 = some c ∧ c.phase = .wait ∧ c.waitEn = true ∧ c.waitObj = 16383 ∧
    (4 : W64).toNat < c.waitValue := by
  refine ⟨⟨by decide +kernel, by decide +kernel, by decide +kernel⟩, _, rfl, by decide +kernel⟩

theorem witness_QueriesAndNotes : State.reset.openRegs ∧ dvaEnd ≤ (BitVec.ofNat 64 dvaEnd).toNat ∧
    (BitVec.ofNat 64 (dvaEnd - 1)).toNat < dvaEnd ∧ State.reset.sb.mram.length < 64512 ∧ State.reset.upkeep = true ∧
    State.reset.sb.dropRun = none ∧ State.reset.fld 0x148838 0 0 = 0 ∧ (∀ e ∈ State.reset.scenes, e.2 = none) ∧ State.reset.poolRegs.pages = 0 ∧
    14 ≤ State.reset.poolRegs.pageLog2 ∧ State.reset.poolRegs.pageLog2 ≤ 16 ∧ 12 ≤ State.reset.poolRegs.dirLog2 ∧
    State.reset.poolRegs.dirLog2 ≤ 28 ∧ State.reset.poolRegs.base % 2097152 = 0 ∧
    State.reset.fld 0x148804 3 0 ≠ 1 ∧ (tRegs [(0x148804, 1)]).openRegs ∧ (tRegs [(0x148804, 1)]).fld 0x148804 3 0 = 1 ∧
    (∃ s : State, s = { tRegs [(0x148804, 0), (0x148810, 1)] with gran := (List.range 256).map fun i => (i, { frame := i, resident := true }) } ∧
      s.openRegs ∧ 0 < s.poolRegs.pages ∧ s.poolRegs.last ≤ dvaEnd ∧ (s.poolRegs.scales - s.poolRegs.base) / gBytes ≤ 256 ∧ s.poolRegs.base = 0 ∧
      ∀ g ∈ List.range 256, (s.granule g).resident = true ∧ (s.granule g).move = 0) ∧
    (∃ s, s = tRegs [(0x148810, 1)] ∧ 0 < s.poolRegs.pages ∧ s.poolRegs.last ≤ dvaEnd ∧ s.ftlState = 1 ∧ (s.granule 0).resident = false) :=
  ⟨reset_openRegs, by decide +kernel, by decide +kernel, by decide +kernel, by decide +kernel, by decide +kernel, by decide +kernel, by decide +kernel,
    by decide +kernel, by decide +kernel, by decide +kernel, by decide +kernel, by decide +kernel, by decide +kernel, by decide +kernel,
    ⟨by decide +kernel, by decide +kernel, by decide +kernel⟩, by decide +kernel,
    ⟨_, rfl, ⟨by decide +kernel, by decide +kernel, by decide +kernel⟩, by decide +kernel⟩, ⟨_, rfl, by decide +kernel⟩⟩

/-! ## Tiles and diagnostics -/

/-- Tile 63 as given. -/
def tTile (x : Tile) : State := { State.reset with tiles := [(63, x)] }

theorem witness_TileControlAndRepair :
    (State.reset.openRegs ∧ (State.reset.tile 63).st = .idle ∧ (State.reset.tile 63).retireFuse = false) ∧
    (∃ s, s = tTile { st := .replaying } ∧ s.openRegs ∧ (s.tile 63).st = .replaying ∧ (s.tile 63).retireFuse = false) ∧
    (∃ s, s = tTile { st := .retired, retireFuse := true } ∧ s.openRegs ∧ (s.tile 63).retireFuse = true) ∧
    (∃ s, s = tTile { st := .quarantined } ∧ s.openRegs ∧ (s.tile 63).st = .quarantined ∧ (s.tile 63).retireFuse = false ∧ s.fld (0x100288 + 0x1000 * 63) 3 0 ≠ 1 ∧
      s.fld (0x10028C + 0x1000 * 63) 0 0 = 0 ∧ bits (s.reg (0x100280 + 0x1000 * 63)).toNat 30 28 ≤ 4 ∧
      bits (s.reg (0x100280 + 0x1000 * 63)).toNat 3 0 = 15 ∧ spareRefused (s.tile 63) (s.reg (0x100280 + 0x1000 * 63)).toNat = false) ∧
    (∃ s, s = tTile { st := .quarantined, staged := some 0x1000000F } ∧ s.ready = true ∧ (s.tile 63).staged = some 0x1000000F ∧
      bits 0x1000000F 30 28 ≤ 1 ∧ stageSpare (s.tile 63) 0x1000000F = some 0 ∧ (s.tile 63).recs.length < 16) ∧
    (∃ s, s = tTile { st := .quarantined, staged := some 0x40000000 } ∧ s.ready = true ∧ bits 0x40000000 30 28 = 4) := by
  refine ⟨⟨reset_openRegs, by decide +kernel⟩, ⟨_, rfl, ⟨by decide +kernel, by decide +kernel, by decide +kernel⟩, by decide +kernel⟩,
    ⟨_, rfl, ⟨by decide +kernel, by decide +kernel, by decide +kernel⟩, by decide +kernel⟩,
    ⟨_, rfl, ⟨by decide +kernel, by decide +kernel, by decide +kernel⟩, by decide +kernel⟩, ⟨_, rfl, by decide +kernel⟩, ⟨_, rfl, by decide +kernel⟩⟩

theorem witness_Diagnostics :
    (∃ s, s = tTile { st := .quarantined } ∧ s.ready = true ∧ s.fld 0x2C0004 0 0 = 0 ∧ s.testResult 63 ≠ 1 ∧ (s.tile 63).st = .quarantined ∧
      bits (0x400 : W32).toNat 11 8 ≤ 4 ∧ s.fld 0x2C0104 31 28 ≠ 1 ∧ s.safe = false ∧ s.eyeResult 11 ≠ 1) ∧
    (∃ s, s = tRegs [(0x260010, 1), (testCtl 63 + 4, 0x10000000), (0x2C0104, 0x10000000), (eyeCtl 11 + 4, 0x10000000)] ∧ s.ready = true ∧
      s.fld 0x2C0004 0 0 = 0 ∧ s.testResult 63 = 1 ∧ (∀ c ∈ s.cmds, c.op ≠ 0x0700 ∧ c.op ≠ 0x0701) ∧ s.fld 0x2C0104 31 28 = 1 ∧
      s.eyeResult 11 = 1) ∧
    (∃ s, s = tRegs [(0x260010, 1)] ∧ s.ready = true ∧ s.safe = true ∧ bits (0xB200 : W32).toNat 15 12 ≤ 11 ∧
      bits (0xB200 : W32).toNat 9 8 ≤ 2) := by
  refine ⟨⟨_, rfl, by decide +kernel⟩, ⟨_, rfl, by decide +kernel⟩, ⟨_, rfl, by decide +kernel⟩⟩

/-! ## Time -/

/-- The loop is LOCKED; the last pulse was at 1 ms of its source. -/
def tLocked (tod : Option Nat) : State := { State.reset with time := { st := 2, tod := tod, lastPulse := some 1000000 } }

theorem witness_InstallationTime : State.reset.ready = true ∧ State.reset.timeSource = 0 ∧ (tLocked (some 1000000)).ready = true ∧
    (tLocked (some 1000000)).time.tod = some 1000000 ∧ (tLocked none).time.tod = none ∧ (tLocked none).time.st = 2 ∧
    (tLocked none).time.lastPulse = some 1000000 ∧ State.reset.time.tod = none ∧ State.reset.time.st ≠ 2 ∧
    (tRegs [(0x220008, 1)]).timeSource = 1 ∧ 255 ≠ State.reset.fld 0x220008 31 24 ∧
    (tLocked none).time.lastUpdate + 3000000 ≤ max (tLocked none).itNow (3000000 % 2 ^ 64) ∧ State.reset.todOk [] = false := by decide +kernel

theorem witness_CadenceWindowCloses : State.reset.live = true ∧
    (((max State.reset.itNow (10049999 % 2 ^ 64) : Nat) : Int) < State.reset.winEnd State.reset.openWin + ((State.reset.reg 0x220028).toNat : Int)) ∧
    (State.reset.winEnd State.reset.openWin + ((State.reset.reg 0x220028).toNat : Int) ≤ ((max State.reset.itNow (10050000 % 2 ^ 64) : Nat) : Int)) ∧
    SMap.wf (fun _ => ({} : Granule)) State.reset.gran = true ∧ State.reset.fld 0x20018 31 31 = 0 := by decide +kernel

/-! ## Commands and the scheduler -/

theorem witness_QueueControlCommands : (∃ s c, c = tCmd 0 [] ∧ s = tWith c ∧ s.Begins 0 0 c) ∧ (∃ s c, c = tCmd 3 [] ∧ s = tWith c ∧ s.Begins 0 3 c) ∧
    State.reset.mayBegin 0 0 = none := by
  refine ⟨⟨_, _, rfl, rfl, begins_alone rfl (by decide +kernel)⟩, ⟨_, _, rfl, rfl, begins_alone rfl (by decide +kernel)⟩, ?_⟩
  simp [State.mayBegin, State.unbegun, State.reset, State.firstFree]

/-- Queue 511 has one packet, at host address 0: zeros but for the two bytes at 0x2C. -/
def tFetch (b : Byte) : State :=
  { tRegs [(qBase 511 + 0xC, 0x80000000), (qBase 511 + 0x14, 0x80000000), (0x19000 + 4 * 63, 0)] with
    queues := [(511, { st := .enabled, sqTail := 1 })], host := if b = 0 then [] else [(2, 0x3F), (3, 7), (0x2C, b), (0x2D, b)] }

theorem witness_PacketFetch :
    (State.reset.live = true ∧ State.reset.switching = false ∧ State.reset.portHeld (srcHub 0) = false ∧ State.reset.cmds = [] ∧ (∀ q, q < 512 → State.reset.hasPacket q = false) ∧
      State.reset.pickQueue.isNone = true) ∧
    (∃ s, s = { tFetch 0 with nextTok := 2 } ∧ ∃ t : State, t = { s with regs := (s.setReg (0x19000 + 4 * 63) 1).regs, cmds := [{ tCmd 0 [] with qid := 511 }] } ∧
      t.live = true ∧ t.switching = false ∧ t.portHeld (srcHub 0) = false ∧ (∀ c ∈ t.cmds, c.tok < t.nextTok) ∧ t.pickQueue.isNone = true ∧ t.hasPacket 511 = true) ∧
    (∃ s u, s = tFetch 0xFF ∧ s.live = true ∧ s.switching = false ∧ s.portHeld (srcHub 0) = false ∧ s.pickQueue = some (u, 511) ∧
      (locH (s.reg64 (qBase 511 + 8))).plus (128 * (s.queue 511).sqHead) = .host 0 ∧
      ∃ bs, s.bytesAt (.host 0) 128 = .ok bs ∧ fetchCheck 511 (wordsOf 32 bs) = none) ∧
    (∃ s u, s = tFetch 0 ∧ s.live = true ∧ s.switching = false ∧ s.portHeld (srcHub 0) = false ∧ s.pickQueue = some (u, 511) ∧
      ∃ bs, s.bytesAt (.host 0) 128 = .ok bs ∧ fetchCheck 511 (wordsOf 32 bs) = some 0) := by
  have some_of {x : Option (State × Nat)} (h : x.map (·.2) = some 511) : ∃ u, x = some (u, 511) := by
    cases x with
    | none => cases h
    | some y => exact ⟨y.1, by simp only [Option.map_some, Option.some.injEq] at h; rw [← h]⟩
  refine ⟨by decide +kernel, ⟨_, rfl, _, rfl, by decide +kernel⟩, ?_, ?_⟩
  · obtain ⟨u, hu⟩ := some_of (x := (tFetch 0xFF).pickQueue) (by decide +kernel)
    exact ⟨_, u, rfl, by decide +kernel, by decide +kernel, by decide +kernel, hu, by decide +kernel, _, rfl, by decide +kernel⟩
  · obtain ⟨u, hu⟩ := some_of (x := (tFetch 0).pickQueue) (by decide +kernel)
    exact ⟨_, u, rfl, by decide +kernel, by decide +kernel, by decide +kernel, hu, _, rfl, by decide +kernel⟩

theorem witness_DispatchAndNotBefore :
    (∃ s c, c = tCmd 0 [] .ready ∧ s = tWith c ∧ s.live = true ∧ s.switching = false ∧ s.portHeld (srcHub 0) = false ∧ (s.queue 0).suspended = false ∧ s.readyHead 0 = some c ∧
      (∀ d ∈ s.cmds, d.tok = c.tok → d = c) ∧ c.countBad = none ∧ s.syncBad c = none ∧ c.dvaBad = false ∧ s.readLists c = .ok (s, c) ∧
      s.readShared c = .ok (s, c) ∧ c ∈ s.cmds) ∧
    (∃ s c, c = tCmd 0x0302 [0, 0x80000000] .ready ∧ s = tWith c ∧ s.readyHead 0 = some c ∧ c.countBad = none ∧ s.syncBad c = none ∧ c.dvaBad = true) ∧
    (∃ s c, c = tCmd 0x0202 [0] .ready ∧ s = tWith c ∧ s.readyHead 0 = some c ∧ c.countBad = some 0x40) ∧
    (∃ s c, c = { tCmd 0 [] .time with notBefore := 5 } ∧ s = tWith c ∧ s.live = true ∧ s.cmd 0 = some c ∧ c.phase = .time ∧
      0 ∈ heads [] s.cmds ∧ c.notBefore ≤ max s.itNow (5 % 2 ^ 64)) := by
  refine ⟨⟨_, _, rfl, rfl, by decide +kernel, by decide +kernel, by decide +kernel, by decide +kernel, by decide +kernel, by decide +kernel,
      by decide +kernel, by decide +kernel, by decide +kernel, rfl, rfl, by decide +kernel⟩,
    ⟨_, _, rfl, rfl, by decide +kernel⟩, ⟨_, _, rfl, rfl, by decide +kernel⟩, ⟨_, _, rfl, rfl, by decide +kernel⟩⟩

/-- Queue 0's completion queue is at host address 0. -/
def tCompletes (c : Cmd) (q : Queue) : State :=
  { tWith c (tRegs [(qBase 0 + 0x14, 0x80000000)]) with queues := [(0, q)] }

theorem witness_CommandCompletes :
    (∃ s c, c = { tCmd 0 [] .ended with flags := 0x120000 } ∧ s = tCompletes c { st := .enabled } ∧ s.live = true ∧ s.cmd 0 = some c ∧
      (∀ d ∈ s.cmds, d.tok = 0 → d = c) ∧ (∀ d ∈ s.cmds, d.qid = c.qid → d.phase ≠ .recordWait ∨ d.tok = 0) ∧ c.rfail = none ∧
      c.remotes = 0 ∧ c.check = none ∧ c.signalEn = true ∧ statusGood c.status = true ∧ bits (s.obj c.signalObj).config.toNat 31 31 = 0 ∧
      c.quiet = true ∧ c.status / 256 = 0) ∧
    (∃ s c, c = tCmd 0 [] .recordWait ∧ s = tCompletes c { st := .enabled } ∧ s.live = true ∧ s.cmd 0 = some c ∧ c.quiet = false ∧
      (s.queue c.qid).unread < s.cqSize c.qid ∧ (locH (s.reg64 (qBase c.qid + 0x10))).plus (32 * (s.queue c.qid).cqWrite) = .host 0 ∧
      s.hostOk 0 32 = true) ∧
    (∃ s c, c = tCmd 0 [] .recordWait ∧ s = tCompletes c { st := .enabled, unread := 65536 } ∧ s.cmd 0 = some c ∧ s.cqSize c.qid ≤ (s.queue c.qid).unread) := by
  refine ⟨⟨_, _, rfl, rfl, by decide +kernel⟩, ⟨_, _, rfl, rfl, by decide +kernel⟩, ⟨_, _, rfl, rfl, by decide +kernel⟩⟩

/-- One unit of the lone command, as given. -/
def tUnit (kind : Nat) (tiles : List Nat) (held : Bool) : SUnit :=
  { id := 0, tok := 0, kind := kind, entry := 0, tiles := tiles, held := held, inst := 0, since := 0, readySeq := 0, readyAt := 0, asLc := false }

/-- `c` with that unit. -/
def tUnits (c : Cmd) (us : List SUnit) (s : State := State.reset) : State := { tWith c s with sch := { units := us, nextUnit := 1 } }

theorem tWaiting {s : State} {u : SUnit} (h : s.sch.units = [u]) (hh : u.held = false) (hm : s.mayHold u = true) :
    s.waitingUnits u.kind = [u] := by
  simp [State.waitingUnits, h, hh, hm]

theorem witness_SchedulerGrants :
    (∃ s c u, c = { tCmd 0x0101 [] .running with lc := true } ∧ u = tUnit 0 [63] false ∧ s = tUnits c [u] ∧ s.live = true ∧
      ((s.waitingUnits 0).filter fun u => !s.beUnit u) = u :: [] ∧ s.freeInst u = some 0 ∧ s.cmd u.tok = some c ∧ c.phase = .running ∧
      (∀ d ∈ s.cmds, d.phase ≠ .saved) ∧ s.blockedTile u.tiles = none) ∧
    (∃ s c u, c = tCmd 0x0300 [] .running ∧ u = tUnit 6 [] false ∧ s = tUnits c [u] ∧ s.live = true ∧
      ((s.waitingUnits 6).filter fun u => !s.beUnit u) = [] ∧ ((s.waitingBe 6).filterMap fun u => (s.freeInst u).map fun i => (u, i)) = (u, 0) :: []) ∧
    State.reset.waitingUnits 9 = [] ∧
    (∃ it, State.reset.sch.lastQuantum / max 1 (State.reset.reg 0x20004).toNat < it % 2 ^ 64 / max 1 (State.reset.reg 0x20004).toNat) ∧
    0 % 2 ^ 64 / max 1 (State.reset.reg 0x20004).toNat ≤ State.reset.sch.lastQuantum / max 1 (State.reset.reg 0x20004).toNat ∧ State.reset.fld 0x20000 0 0 = 1 ∧
    (tRegs [(0x20000, 0)]).fld 0x20000 0 0 = 0 ∧ (tRegs [(0x20010, 100)]).live = true := by
  refine ⟨⟨_, _, _, rfl, rfl, rfl, by decide +kernel, ?_, by decide +kernel, by decide +kernel, rfl, by decide +kernel, by decide +kernel⟩,
    ⟨_, _, _, rfl, rfl, rfl, by decide +kernel, ?_, ?_⟩, ?_, ⟨2 ^ 63, by decide +kernel⟩, by decide +kernel⟩
  · rw [show State.waitingUnits _ 0 = _ from tWaiting (u := tUnit 0 [63] false) rfl rfl (by decide +kernel)]; decide +kernel
  · rw [show State.waitingUnits _ 6 = _ from tWaiting (u := tUnit 6 [] false) rfl rfl (by decide +kernel)]; decide +kernel
  · have h : State.waitingBe (tUnits (tCmd 0x0300 [] .running) [tUnit 6 [] false]) 6 = [tUnit 6 [] false] := by
      rw [State.waitingBe, show State.waitingUnits _ 6 = _ from tWaiting (u := tUnit 6 [] false) rfl rfl (by decide +kernel)]
      rw [show List.filter _ [tUnit 6 [] false] = [tUnit 6 [] false] from by decide +kernel]; simp
    rw [h]; decide +kernel
  · simp [State.waitingUnits, State.reset]

/-- A command of queue 8 with token 0. -/
def tPre (ph : Phase) (d : Bool) : Cmd := { tCmd 0x0300 [] ph with begun := true, discard := d }

theorem witness_Preemption :
    (∃ s c, c = tPre .stopping false ∧ s = tWith c ∧ s.live = true ∧ s.cmd 0 = some c ∧ c.stop = none ∧ s.quiescent c = true) ∧
    (∃ s c, c = tPre .draining false ∧ s = tWith c ∧ s.cmd 0 = some c ∧ c.remotes = 0 ∧ (c.drainFail = false ∨ c.rfail = none) ∧ c.discard = false) ∧
    (∃ s c, c = { tPre .draining false with rfail := some (0x5001, 1), drainFail := true } ∧ s = tWith c ∧ s.cmd 0 = some c ∧ c.remotes = 0 ∧
      c.drainFail = true ∧ 0x5001 ≠ 0x4002 ∧ 0x5001 ≠ 0x1002 ∧
      c.run = none ∧ c.fork = none) ∧
    (∃ s c, c = tPre .draining true ∧ s = tWith c ∧ s.cmd 0 = some c ∧ c.discard = true ∧ c.preBy = 0 ∧ c.begun = true ∧ c.rtc = none ∧ c.remotes = 0 ∧
      c.rfail = none ∧ c.run = none ∧ c.fork = none ∧ c.movesGranules = false) ∧
    (∃ s c, c = tPre .saving false ∧ s = tWith c ∧ s.cmd 0 = some c ∧ c.preBy = 0 ∧ c.discard = false) ∧
    (∃ s c, c = tPre .restoring false ∧ s = tWith c ∧ s.cmd 0 = some c ∧ c.savedPal = [] ∧ c.preNext = false) ∧
    (∃ s c, c = tCmd 0x0600 [0, 0] ∧ s = tWith c ∧ s.Begins 0 0x0600 c ∧ c.flag 0 = false ∧ c.f 0x44 7 0 = 0) ∧
    (∃ s c d, c = { tCmd 0x0600 [0, 2] with tok := 1 } ∧ d = { tPre .running false with qid := 1 } ∧ s = { tWith c with cmds := [c, d], nextTok := 2 } ∧
      s.mayBegin 1 0x0600 = some c ∧ c.f 0x44 7 0 ≠ 0 ∧ (∀ d ∈ s.cmds, d.phase ≠ .saved ∧ (d.phase = .dispatched → d.begun = false)) ∧
      s.preTargets c.maskQueues false = [0] ∧ s.cmd 0 = some d ∧ d.phase = .running ∧ s.hasPoint d = true ∧ s.saveTaken 0 = false) ∧
    (∃ s c, c = tCmd 0x0600 [0, 1] .running ∧ s = tWith c ∧ s.Runs 0 c ∧ s.preDone c = true ∧ c.flag 0 = false ∧ s.mayBegin 0 0x0600 = none) ∧
    (∃ s c, c = tCmd 0x0601 [0, 1] ∧ s = tWith c ∧ s.Begins 0 0x0601 c ∧ ∀ q ∈ c.maskQueues, (s.queue q).suspended = false) ∧
    (∃ s c, c = tCmd 0x0601 [0, 1] ∧ s = { tWith c with queues := [(0, { suspended := true })] } ∧ s.Begins 0 0x0601 c ∧
      ∃ q ∈ c.maskQueues, (s.queue q).suspended = true) := by
  refine ⟨⟨_, _, rfl, rfl, by decide +kernel⟩, ⟨_, _, rfl, rfl, by decide +kernel⟩, ⟨_, _, rfl, rfl, by decide +kernel⟩, ⟨_, _, rfl, rfl, by decide +kernel⟩,
    ⟨_, _, rfl, rfl, by decide +kernel⟩, ⟨_, _, rfl, rfl, by decide +kernel⟩, ⟨_, _, rfl, rfl, begins_alone rfl (by decide +kernel), by decide +kernel⟩,
    ⟨_, _, _, rfl, rfl, rfl, ?_, by decide +kernel⟩, ⟨_, _, rfl, rfl, runs_alone rfl (by decide +kernel), by decide +kernel, by decide +kernel, ?_⟩,
    ⟨_, _, rfl, rfl, begins_alone rfl (by decide +kernel), by decide +kernel⟩, ⟨_, _, rfl, rfl, begins_alone rfl (by decide +kernel), by decide +kernel⟩⟩
  · have h : State.mustWait { tWith { tCmd 0x0600 [0, 2] with tok := 1 } with
        cmds := [{ tCmd 0x0600 [0, 2] with tok := 1 }, { tPre .running false with qid := 1 }], nextTok := 2 } [] { tCmd 0x0600 [0, 2] with tok := 1 } =
        false := by decide +kernel
    have hl : State.live { tWith { tCmd 0x0600 [0, 2] with tok := 1 } with
        cmds := [{ tCmd 0x0600 [0, 2] with tok := 1 }, { tPre .running false with qid := 1 }], nextTok := 2 } = true := by decide +kernel
    rw [State.mayBegin, hl]
    simp only [if_true, State.unbegun]
    rw [show List.filter _ [_, _] = [{ tCmd 0x0600 [0, 2] with tok := 1 }] from by decide +kernel, sortBy_singleton]
    simp only [State.firstFree, h]
    decide +kernel
  · simp [State.mayBegin, State.unbegun, tWith, tCmd, State.firstFree]

/-! ## Scenes and streams -/

/-- A computation that answers has an answer. -/
theorem ok_of {α β : Type} {x : Except α β} (h : (match x with | .ok _ => true | .error _ => false) = true) : ∃ a, x = .ok a := by
  cases x with
  | ok a => exact ⟨a, rfl⟩
  | error e => cases h

/-- A program with one entry of each kind and no code. -/
def tProg : Program :=
  { image := { entries := [{ kind := 0, start := [] }, { kind := 1, start := [] }, { kind := 2, start := [] }] }, map := [], palBase := []
    groupPanel := [], shrBase := [], statics := [], flags := 0, crc := 0 }

/-- A scene of that program in slot 0, of handle 0. -/
def tScene : Scene :=
  { program := 0, rows := 1, cols := 1, maxStreams := 2, stateBase := 0, stateBytes := 0, condBase := 0, condBytes := 0, pageSync := 0, defQuota := 0 }

/-- The program is loaded; scene 0 is open unless `free`; stream 3 is as given. -/
def tOpened (x : Stream) (free : Bool := false) : State :=
  { State.reset with progs := [(0, { prog := some tProg })], scenes := if free then [] else [(0, some tScene)]
                     streams := if x.st = .free then [] else [(3, x)], gran := (List.range 5).map fun i => (i, { frame := i, resident := true }) }

/-- A command on stream 3 with OP_FLAGS `fl`. -/
def tOn (op fl : Nat) (par : List Nat) : Cmd := { tCmd op par with flags := fl, stream := 3 }

theorem witness_CloseSceneBusy : ∃ s c, c = { tOn 0x0206 1 [] with stream := 0xFFFF } ∧ s = tWith c (tOpened { st := .ready }) ∧ s.Begins 0 0x0206 c ∧
    c.flag 0 = true ∧ (s.scene (c.f 0x40 4 0)).isSome = true ∧ (s.strm 3).st ≠ .free ∧ (s.strm 3).scene = c.f 0x40 4 0 :=
  ⟨_, _, rfl, rfl, begins_alone rfl (by decide +kernel), by decide +kernel⟩

theorem witness_ScenesAndStreams_scene :
    (∃ s c, c = tCmd 0x0200 [0] ∧ s = tWith c (tOpened {}) ∧ s.Begins 0 0x0200 c ∧ (s.scene (c.f 0x40 4 0)).isSome = true) ∧
    (∃ s c, c = tCmd 0x0200 [0x10000] ∧ s = tWith c (tOpened {} true) ∧ s.Begins 0 0x0200 c ∧ s.scene (c.f 0x40 4 0) = none ∧
      s.programFor c (c.f 0x40 31 16) = none) ∧
    (∃ s c p, c = tCmd 0x0200 [23, 0x01000100, 0x4000] ∧ p = tProg ∧ s = tWith c (tOpened {} true) ∧ s.Begins 0 0x0200 c ∧
      s.scene (c.f 0x40 4 0) = none ∧ s.programFor c (c.f 0x40 31 16) = some p ∧ c.f 0x40 4 0 < 24 ∧ c.f 0x44 8 0 = 256 ∧ c.f 0x44 24 16 = 256 ∧
      c.f 0x48 14 0 = 16384 ∧ c.q 0x50 % 4096 = 0 ∧ c.f 0x48 14 0 * 2 * p.image.sBytes ≤ c.q 0x58 ∧
      s.scenes.foldl (fun n e => n + e.2.elim 0 (·.maxStreams)) 0 + c.f 0x48 14 0 ≤ 16384 ∧ p.image.missingEntry = none ∧
      p.image.badChunk (c.f 0x44 8 0 * c.f 0x44 24 16) = none ∧ s.badAttention p (c.f 0x44 8 0 * c.f 0x44 24 16) = none) := by
  refine ⟨⟨_, _, rfl, rfl, begins_alone rfl (by decide +kernel), by decide +kernel⟩, ⟨_, _, rfl, rfl, begins_alone rfl (by decide +kernel), by decide +kernel⟩,
    ⟨_, _, _, rfl, rfl, rfl, begins_alone rfl (by decide +kernel), by decide +kernel⟩⟩

theorem witness_ScenesAndStreams_open :
    (∃ s c, c = { tCmd 0x0201 [1] with stream := 0xFFFF } ∧ s = tWith c (tOpened {}) ∧ s.Begins 0 0x0201 c ∧ s.scene (c.f 0x40 4 0) = none) ∧
    (∃ s c, c = { tCmd 0x0201 [0] with stream := 3 } ∧ s = tWith c (tOpened { st := .ready }) ∧ s.Begins 0 0x0201 c ∧ s.scene (c.f 0x40 4 0) = some tScene ∧
      c.stream ≠ 0xFFFF ∧ s.idFree c.stream = false) ∧
    (∃ s c, c = { tCmd 0x0201 [0] with stream := 0xFFFF } ∧ s = { tWith c (tOpened { st := .ready }) with scenes := [(0, some { tScene with maxStreams := 1 })] } ∧
      s.Begins 0 0x0201 c ∧ s.scene (c.f 0x40 4 0) = some { tScene with maxStreams := 1 } ∧ 1 ≤ (s.slotsUsed (c.f 0x40 4 0)).length) ∧
    (∃ s c, c = { tCmd 0x0201 [0] with stream := 0xFFFF } ∧ s = tWith c (tOpened {}) ∧ s.Begins 0 0x0201 c ∧ s.scene (c.f 0x40 4 0) = some tScene ∧
      (s.freeIds 1)[0]? = some 0 ∧ (s.slotsUsed (c.f 0x40 4 0)).length < tScene.maxStreams ∧ s.sceneProg tScene = some tProg ∧
      ∃ u, s.openStream 0 (c.f 0x40 4 0) tScene tProg tScene.defQuota = .ok u) := by
  refine ⟨⟨_, _, rfl, rfl, begins_alone rfl (by decide +kernel), by decide +kernel⟩, ⟨_, _, rfl, rfl, begins_alone rfl (by decide +kernel), by decide +kernel⟩,
    ⟨_, _, rfl, rfl, begins_alone rfl (by decide +kernel), by decide +kernel⟩,
    ⟨_, _, rfl, rfl, begins_alone rfl (by decide +kernel), by decide +kernel, by decide +kernel, by decide +kernel, by decide +kernel, ok_of (by decide +kernel)⟩⟩

theorem witness_ScenesAndStreams_park :
    (∃ s c, c = tOn 0x0205 0 [] ∧ s = tWith c (tOpened { st := .ready }) ∧ s.Begins 0 0x0205 c ∧ c.flag 0 = false ∧ (s.strm c.stream).st = .ready) ∧
    (∃ s c, c = tOn 0x0205 1 [] ∧ s = tWith c (tOpened { st := .parked, parkReason := 1 }) ∧ s.Begins 0 0x0205 c ∧ c.flag 0 = true ∧
      (s.strm c.stream).st = .parked ∧ (s.strm c.stream).parkReason ≠ 4) ∧
    (∃ s c, c = tOn 0x0205 1 [] ∧ s = tWith c (tOpened { st := .parked, parkReason := 4 }) ∧ s.Begins 0 0x0205 c ∧ c.flag 0 = true ∧
      (s.strm c.stream).st = .parked ∧ (s.strm c.stream).parkReason = 4) ∧
    (∃ s c, c = tOn 0x0205 0 [] ∧ s = tWith c (tOpened {}) ∧ s.Begins 0 0x0205 c ∧ c.flag 0 = false ∧ (s.strm c.stream).st = .free) := by
  refine ⟨⟨_, _, rfl, rfl, begins_alone rfl (by decide +kernel), by decide +kernel⟩, ⟨_, _, rfl, rfl, begins_alone rfl (by decide +kernel), by decide +kernel⟩,
    ⟨_, _, rfl, rfl, begins_alone rfl (by decide +kernel), by decide +kernel⟩, ⟨_, _, rfl, rfl, begins_alone rfl (by decide +kernel), by decide +kernel⟩⟩

theorem witness_ScenesAndStreams_close :
    (∃ s c, c = tOn 0x0206 0 [] ∧ s = tWith c (tOpened {}) ∧ s.Begins 0 0x0206 c ∧ c.flag 0 = false ∧ (s.strm c.stream).st = .free) ∧
    (∃ s c, c = tOn 0x0206 0 [] ∧ s = tWith c (tOpened { st := .ready }) ∧ s.Begins 0 0x0206 c ∧ c.flag 0 = false ∧ (s.strm c.stream).st ≠ .free ∧
      ∃ u, (if s.poolActive then (s.showSt c.stream .closing 0).closeDir c.stream else .ok (s.showSt c.stream .closing 0)) = .ok u) ∧
    (∃ s c, c = { tOn 0x0206 1 [] with stream := 0xFFFF } ∧ s = tWith c (tOpened {} true) ∧ s.Begins 0 0x0206 c ∧ c.flag 0 = true ∧
      s.scene (c.f 0x40 4 0) = none) ∧
    (∃ s c, c = { tOn 0x0206 1 [] with stream := 0xFFFF } ∧ s = tWith c (tOpened {}) ∧ s.Begins 0 0x0206 c ∧ c.flag 0 = true ∧
      (s.scene (c.f 0x40 4 0)).isSome = true ∧ s.slotsUsed (c.f 0x40 4 0) = [] ∧ SMap.get (fun _ => none) s.ingest (c.f 0x40 4 0) = none) := by
  refine ⟨⟨_, _, rfl, rfl, begins_alone rfl (by decide +kernel), by decide +kernel⟩,
    ⟨_, _, rfl, rfl, begins_alone rfl (by decide +kernel), by decide +kernel, by decide +kernel, ok_of (by decide +kernel)⟩,
    ⟨_, _, rfl, rfl, begins_alone rfl (by decide +kernel), by decide +kernel⟩, ⟨_, _, rfl, rfl, begins_alone rfl (by decide +kernel), by decide +kernel⟩⟩

theorem witness_StreamWork_fork :
    (∃ s c, c = tOn 0x0202 1 [1] ∧ s = tWith c (tOpened {}) ∧ s.Begins 0 0x0202 c ∧ (s.strm c.stream).st = .free) ∧
    (∃ s c, c = tOn 0x0202 1 [1] ∧ s = tWith c (tOpened { st := .ready }) ∧ s.Begins 0 0x0202 c ∧ c.f 0x40 8 0 = 1 ∧ c.flag 0 = true ∧
      c.flag 1 = false ∧ (s.strm c.stream).st = .ready ∧ s.streamProg c.stream = some (tScene, tProg) ∧ (s.freeIds 1).length = 1 ∧
      (s.slotsUsed (s.strm c.stream).scene).length + 1 ≤ tScene.maxStreams ∧ (∀ i ∈ s.freeIds 1, s.idFree i = true) ∧
      (s.freeIds 1).eraseDups.length = (s.freeIds 1).length ∧ s.poolActive = false ∧ (s.strm c.stream).quota = 0 ∧ 1 * 0 ≤ s.poolFree ∧
      ∃ u, s.beginFork c tScene tProg (s.freeIds 1) (s.freeSlots (s.strm c.stream).scene 1) 0 [] = .ok u) ∧
    (∃ s c w, w = { parent := 3, prior := .ready, children := [0], slots := [1], tails := [[]], quota := 0, wasParked := 0 } ∧
      c = { tOn 0x0202 0 [1] with phase := .running, begun := true, fork := some w } ∧ s = tWith c (tOpened { st := .forking }) ∧ s.Runs 0 c ∧
      c.fork = some w ∧ c.pieces = [] ∧ c.flag 0 = false ∧ s.poolActive = false ∧ w.parent ∉ w.children ∧ w.slots.length = w.children.length ∧
      ∃ u, s.commitFork w = .ok u) := by
  refine ⟨⟨_, _, rfl, rfl, begins_alone rfl (by decide +kernel), by decide +kernel⟩,
    ⟨_, _, rfl, rfl, begins_alone rfl (by decide +kernel), by decide +kernel, by decide +kernel, by decide +kernel, by decide +kernel, by decide +kernel,
      by decide +kernel, by decide +kernel, by decide +kernel, by decide +kernel, by decide +kernel, by decide +kernel, by decide +kernel,
      ok_of (by decide +kernel)⟩,
    ⟨_, _, _, rfl, rfl, rfl, runs_alone rfl (by decide +kernel), rfl, rfl, by decide +kernel, by decide +kernel, by decide +kernel, by decide +kernel,
      ok_of (by decide +kernel)⟩⟩

theorem witness_StreamWork_step :
    (∃ s c, c = tOn 0x0203 0 [0, 0, 0, 0, 0, 0, 0, 0, 0, 0, 1] ∧ s = tWith c (tOpened { st := .ready }) ∧ s.Begins 0 0x0203 c ∧
      c.stageBase % mib2 ≠ 0 ∧ c.f 0x40 12 0 = 0) ∧
    (∃ s c, c = { tOn 0x0203 0 [0, 1] with items := [[3, 0, 0]] } ∧ s = tWith c (tOpened { st := .ready }) ∧ s.Begins 0 0x0203 c ∧ c.stageBase % mib2 = 0 ∧ c.f 0x40 12 0 = 0 ∧
      (c.items.map fun e => e.headD 0xFFFF).find? (fun i => decide (i < 16384) && (s.strm i).st != .free) = some 3 ∧
      s.streamProg 3 = some (tScene, tProg) ∧ tProg.image.badBinding 2 (c.stepBuf tScene (max 1 (c.f 0x40 12 0))) = none ∧
      s.blockedTile (tProg.needed ((tProg.image.firstEntry 1).getD 0)) = none ∧ s.cmd 0 = some c ∧ c.tok = 0 ∧ (s.strm 3).scene = 0 ∧
      (s.strm 3).quota = 0 ∧ (s.strm 3).pos + tScene.f < 2 ^ 64 ∧ tProg.layers tScene.f = [] ∧ tProg.image.rowsOver 1 tScene.f = none ∧
      tProg.image.boundsUsed 1 = [] ∧ c.f 0x40 12 0 ≤ 1 ∧ 0 < c.w 0x44 ∧
      s.portHeld (srcHub 0) = false ∧ notAtHub .none) ∧
    (∃ s c, c = { tOn 0x0203 0 [0, 1] with items := [[3, 0, 0]] } ∧ s = tWith c (tOpened { st := .ready }) ∧
      ∃ u, s.launch c tScene (s.strm 3).scene tProg ((tProg.image.firstEntry 1).getD 0) 1 tScene.f c.items c.syncs
        (tProg.bufs 2 (c.stepBuf tScene (max 1 (c.f 0x40 12 0)))) .none = .ok u) ∧
    (∃ s c, c = tOn 0x0204 0 [0, 0, 0, 0, 0, 0, 0, 0, 0, 0, 1] ∧ s = tWith c (tOpened { st := .ready }) ∧ s.Begins 0 0x0204 c ∧ c.stageBase % mib2 ≠ 0) ∧
    (∃ s c, c = tOn 0x0204 0 [1] ∧ s = tWith c (tOpened { st := .parked }) ∧ s.Begins 0 0x0204 c ∧ c.stageBase % mib2 = 0 ∧ (s.strm c.stream).st = .parked) ∧
    (∃ s c, c = tOn 0x0204 0 [0x100000] ∧ s = tWith c (tOpened { st := .ready }) ∧ s.Begins 0 0x0204 c ∧ c.stageBase % mib2 = 0 ∧
      (s.strm c.stream).st = .ready ∧ s.streamProg c.stream = some (tScene, tProg) ∧ 1 ≤ c.w 0x40 ∧ c.w 0x40 ≤ 2 ^ 20 ∧ c.w 0x40 % tScene.f = 0 ∧
      tProg.image.badBinding 2 (c.stepBuf tScene 1) = none ∧ s.blockedTile (tProg.needed ((tProg.image.firstEntry 2).getD 0)) = none ∧
      ∃ u, s.launch c tScene (s.strm c.stream).scene tProg ((tProg.image.firstEntry 2).getD 0) 2 (c.w 0x40) [[c.stream, 0, 0]] c.syncs
        (tProg.bufs 2 (c.stepBuf tScene 1)) .none = .ok u) := by
  refine ⟨⟨_, _, rfl, rfl, begins_alone rfl (by decide +kernel), by decide +kernel⟩,
    ⟨_, _, rfl, rfl, begins_alone rfl (by decide +kernel), by decide +kernel, by decide +kernel, by decide +kernel, by decide +kernel, by decide +kernel,
      by decide +kernel, by decide +kernel, by decide +kernel, by decide +kernel, by decide +kernel, by decide +kernel, by decide +kernel, by decide +kernel,
      by decide +kernel, by decide +kernel, by decide +kernel, by decide +kernel, trivial⟩,
    ⟨_, _, rfl, rfl, ok_of (by decide +kernel)⟩,
    ⟨_, _, rfl, rfl, begins_alone rfl (by decide +kernel), by decide +kernel⟩, ⟨_, _, rfl, rfl, begins_alone rfl (by decide +kernel), by decide +kernel⟩,
    ⟨_, _, rfl, rfl, begins_alone rfl (by decide +kernel), by decide +kernel, by decide +kernel, by decide +kernel, by decide +kernel, by decide +kernel,
      by decide +kernel, by decide +kernel, by decide +kernel, ok_of (by decide +kernel)⟩⟩

/-- The run of a STEP of stream 3 that scatters. -/
def tStepRun : ProgRun :=
  { handle := 0, entry := 1, kind := 1, syncs := [], binds := [], words := [], bounds := [], scene := 0, frame := 1
    streams := [{ listIdx := 0, stream := 3, p0 := 0, inOff := 0, outOff := 0, passed := true, pend := [], status := 0, committed := false }]
    tiles := [], entries := [], wrote := true, started := true, scattering := true, listLen := 0 }

theorem witness_StreamWork_commit : ∃ s c r x, r = tStepRun ∧ c = { tOn 0x0203 0 [0, 1] with phase := .running, begun := true, run := some r } ∧
    s = tWith c (tOpened { st := .stepping }) ∧ s.Runs 0 c ∧ c.run = some r ∧ r.scattering = true ∧ c.pieces = [] ∧ c.rfail = none ∧
    (r.streams.find? fun x => x.listIdx == 0 && x.passed && !x.committed && x.status == 0) = some x ∧ s.runProg r = some tProg ∧
    s.poolActive = false ∧ ∃ u, s.commitStream 0 (tProg.layers r.frame) r.frame (r.q c) x = .ok u :=
  ⟨_, _, _, _, rfl, rfl, rfl, runs_alone rfl (by decide +kernel), rfl, rfl, rfl, rfl, rfl, by decide +kernel, by decide +kernel, ok_of (by decide +kernel)⟩

/-! ## Programs and images -/

/-- A computation that answers what a test admits. -/
theorem ok_and {α β : Type} {x : Except β α} {p : α → Bool} (h : (match x with | .ok a => p a | .error _ => false) = true) :
    ∃ a, x = .ok a ∧ p a = true := by
  cases x with
  | ok a => exact ⟨a, rfl, h⟩
  | error e => cases h

/-- A computation that stops with what a test admits. -/
theorem err_and {α β : Type} {x : Except β α} {p : β → Bool} (h : (match x with | .ok _ => false | .error e => p e) = true) :
    ∃ e, x = .error e ∧ p e = true := by
  cases x with
  | ok a => cases h
  | error e => exact ⟨e, rfl, h⟩

/-- A CRC's running value, each step's value taken before the next: the kernel evaluates it without nesting. -/
def crcStrict (a : CrcAlg) : Nat → List Byte → Nat
  | r, [] => r
  | r, b :: bs =>
    match a.step r b with
    | 0 => crcStrict a 0 bs
    | n + 1 => crcStrict a (n + 1) bs

theorem crcStrict_eq (a : CrcAlg) (bs : List Byte) : ∀ r, a.run r bs = crcStrict a r bs := by
  induction bs with
  | nil => intro r; rfl
  | cons b bs ih =>
    intro r
    rw [crcStrict, ← show ∀ n, a.run n bs = _ from ih]
    show bs.foldl a.step (a.step r b) = _
    split <;> next h => rw [h]; first | rfl | exact ih _

theorem crc32c_strict (bs : List Byte) : crc32c bs = crcStrict ⟨32, 0x82F63B78, 0xFFFFFFFF, true, 0xFFFFFFFF⟩ 0xFFFFFFFF bs ^^^ 0xFFFFFFFF := by
  rw [← crcStrict_eq]; rfl

theorem crc64_strict (bs : List Byte) : crc64 bs = crcStrict ⟨64, 0x42F0E1EBA9EA3693, 0, false, 0⟩ 0 bs ^^^ 0 := by
  rw [← crcStrict_eq]; rfl

/-- Bytes at offsets. -/
def tBytes (l : List (Nat × Nat)) : SMap Byte := l.map fun e => (e.1, BitVec.ofNat 8 e.2)

/-- A program image of 640 bytes: one tile in one group of 1 x 1, one entry of kind 0, and END as its only instruction (05 R136-R140,
R150, R166; the check values were computed from R10 outside the model). -/
def tImage : SMap Byte := tBytes ([(0, 65), (1, 66), (2, 82), (3, 68), (4, 1), (8, 22), (9, 36), (12, 128), (13, 2), (16, 4), (60, 160), (61, 25),
  (62, 116), (63, 226), (64, 1), (68, 128), (72, 16), (76, 30), (77, 80), (78, 146), (79, 251), (80, 2), (84, 192), (88, 16), (92, 21),
  (93, 106), (94, 242), (95, 215), (96, 5), (101, 1), (104, 8), (105, 1), (108, 12), (109, 20), (110, 180), (111, 95), (112, 6), (116, 64),
  (117, 2), (120, 64), (124, 97), (125, 113), (126, 29), (127, 114), (132, 64), (140, 1), (192, 1), (193, 1)] ++
  ((List.range 252).map fun i => (0x10C + i, 255)) ++ [(579, 7)])

/-- Bytes of cells from key `k` on, the cells taken in order. -/
def bytesAsc : Nat → Nat → SMap Byte → List Byte
  | _, 0, _ => []
  | k, n + 1, [] => 0 :: bytesAsc (k + 1) n []
  | k, n + 1, (j, v) :: m => if j = k then v :: bytesAsc (k + 1) n m else 0 :: bytesAsc (k + 1) n ((j, v) :: m)

/-- Below its first key a map reads as what is not listed. -/
theorem get_below0 : ∀ (m : SMap Byte) (lo k : Nat), SMap.wfFrom (fun _ => 0) lo m = true → k < lo → SMap.get (fun _ => 0) m k = 0
  | [], _, _, _, _ => rfl
  | (j, v) :: m, lo, k, h, hk => by
    simp only [SMap.wfFrom, Bool.and_eq_true, decide_eq_true_eq] at h
    rw [SMap.get, if_neg (by omega)]
    exact get_below0 m (j + 1) k h.2 (by omega)

theorem bytesAsc_eq (n : Nat) : ∀ k (m : SMap Byte), SMap.wfFrom (fun _ => 0) k m = true →
    (List.range n).map (fun i => SMap.get (fun _ => 0) m (k + i)) = bytesAsc k n m := by
  induction n with
  | zero => intro k m _; rfl
  | succ n ih =>
    intro k m h
    rw [List.range_succ_eq_map, List.map_cons, List.map_map]
    have e (m' : SMap Byte) (h' : SMap.wfFrom (fun _ => 0) (k + 1) m' = true) (hg : ∀ i, SMap.get (fun _ => 0) m (k + 1 + i) = SMap.get (fun _ => 0) m' (k + 1 + i)) :
        (List.range n).map ((fun i => SMap.get (fun _ => 0) m (k + i)) ∘ Nat.succ) = bytesAsc (k + 1) n m' := by
      rw [← ih (k + 1) m' h']
      apply List.map_congr_left
      intro i _
      simp only [Function.comp_apply]
      rw [← hg i, show k + i.succ = k + 1 + i by omega]
    match m, h with
    | [], _ => rw [bytesAsc, e [] rfl (fun _ => rfl)]; rfl
    | (j, v) :: m, h =>
      simp only [SMap.wfFrom, Bool.and_eq_true, decide_eq_true_eq] at h
      obtain ⟨⟨h1, h2⟩, h3⟩ := h
      rw [bytesAsc]
      split
      · next hj =>
        subst hj
        rw [e m h3 (fun i => by rw [SMap.get, if_neg (by omega)])]
        simp [SMap.get]
      · next hj =>
        rw [e ((j, v) :: m) (by simp only [SMap.wfFrom, Bool.and_eq_true, decide_eq_true_eq]; exact ⟨⟨by omega, h2⟩, h3⟩) (fun _ => rfl)]
        simp only [Nat.add_zero, SMap.get, if_neg hj, List.cons.injEq, and_true]
        exact get_below0 m (j + 1) k h3 (by omega)

theorem bytesOf_asc {n : Nat} {m : SMap Byte} (h : SMap.wfFrom (fun _ => 0) 0 m = true) : bytesOf n m = bytesAsc 0 n m := by
  rw [← bytesAsc_eq n 0 m h, bytesOf]; simp only [Nat.zero_add]

/-- Its section table and sections. -/
def tSecs : List Section :=
  [{ typ := 1, skippable := false, resv := 0, off := 128, bytes := 16, crc := 0xFB92501E },
   { typ := 2, skippable := false, resv := 0, off := 192, bytes := 16, crc := 0xD7F26A15 },
   { typ := 5, skippable := false, resv := 0, off := 256, bytes := 264, crc := 0x5FB4140C },
   { typ := 6, skippable := false, resv := 0, off := 576, bytes := 64, crc := 0x721D7161 }]
def tImg : Image :=
  { ltiles := [{ group := 0, y := 0, x := 0, palBytes := 64, codeFirst := 0, codeCount := 1 }], groups := [{ rows := 1, cols := 1, sharedBytes := 0 }]
    entries := [{ kind := 0, start := 0 :: List.replicate 63 0xFFFFFFFF }], code := [0x07000000 :: List.replicate 15 0] }

theorem tImage_read : sectionsOf tImage 4 = tSecs ∧ imageOf tImage tSecs = tImg := by decide +kernel

/-- What the load reads of it. -/
def tLoad : LoadIn := { c := tImage, n := 640, ss := tSecs, im := tImg, statics := [], major := 1, minor := 0 }

theorem tLoad_run (o n : Nat) (h : SMap.wfFrom (fun _ => 0) 0 (SMap.slice o n 0 tImage) = true) :
    tLoad.run o n = bytesAsc 0 n (SMap.slice o n 0 tImage) := bytesOf_asc h

theorem tLoad_crc : tLoad.crc = none := by
  have h0 : cW tLoad.c 0x3C = 0xE27419A0 := by decide +kernel
  have h1 : crc32c (tLoad.run 0 0x3C ++ [0, 0, 0, 0] ++ tLoad.run 0x40 (tLoad.n - 0x40)) = 0xE27419A0 := by
    rw [tLoad_run 0 _ (by decide +kernel), tLoad_run 0x40 _ (by decide +kernel), crc32c_strict]; decide +kernel
  have h2 : firstBad (fun _ (x : Section) => tLoad.inside x && crc32c (tLoad.run x.off x.bytes) != x.crc) tLoad.ss = none := by
    have e1 : crc32c (tLoad.run 128 16) = 0xFB92501E := by rw [tLoad_run 128 _ (by decide +kernel), crc32c_strict]; decide +kernel
    have e2 : crc32c (tLoad.run 192 16) = 0xD7F26A15 := by rw [tLoad_run 192 _ (by decide +kernel), crc32c_strict]; decide +kernel
    have e3 : crc32c (tLoad.run 256 264) = 0x5FB4140C := by rw [tLoad_run 256 _ (by decide +kernel), crc32c_strict]; decide +kernel
    have e4 : crc32c (tLoad.run 576 64) = 0x721D7161 := by rw [tLoad_run 576 _ (by decide +kernel), crc32c_strict]; decide +kernel
    simp [firstBad, tLoad, tSecs, List.range, List.range.loop] at e1 e2 e3 e4 ⊢
    simp [e1, e2, e3, e4]
  rw [LoadIn.crc]
  simp only [h1, h0, h2, ne_eq, not_true_eq_false, if_false]

theorem tLoad_admitted : tLoad.refusal 640 = none := by
  have h1 : tLoad.header 640 = none := by decide +kernel
  have h3 : tLoad.target = none := by decide +kernel
  have h4 : tLoad.section = none := by decide +kernel
  have h5 : tLoad.count = none := by decide +kernel
  have h6 : tLoad.ltile = none := by decide +kernel
  have h7 : tLoad.region = none := by decide +kernel
  have h8 : tLoad.opcode = none := by decide +kernel
  have h9 : tLoad.format = none := by decide +kernel
  have h10 : tLoad.cvt = none := by decide +kernel
  have h11 : tLoad.bound = none := by decide +kernel
  have h12 : tLoad.extent = none := by decide +kernel
  have h13 : tLoad.operand = none := by decide +kernel
  have h14 : tLoad.link = none := by decide +kernel
  have h15 : tLoad.padding = none := by decide +kernel
  have h16 : tLoad.engine = none := by decide +kernel
  have h17 : tLoad.entry = none := by decide +kernel
  have h18 : tLoad.binding = none := by decide +kernel
  simp [LoadIn.refusal, h1, tLoad_crc, h3, h4, h5, h6, h7, h8, h9, h10, h11, h12, h13, h14, h15, h16, h17, h18]

/-- The load of that image, from host address 0. -/
def tLoads (ts : SMap Tile) : State :=
  tWith (tCmd 0x0100 [0, 0x80000000, 640, 0, 0, 0, 0, 0x80000000]) { State.reset with host := tImage, tiles := ts }

theorem tLoads_read (ts : SMap Tile) :
    (tLoads ts).loadIn (tCmd 0x0100 [0, 0x80000000, 640, 0, 0, 0, 0, 0x80000000]) = .ok (tLoads ts, tLoad) := by
  have h1 : SMap.slice 0 640 0 tImage = tImage := by decide +kernel
  have h2 : sectionsOf tImage (cW tImage 0x10 % 65536) = tSecs := by
    rw [show cW tImage 0x10 % 65536 = 4 from by decide +kernel]; exact tImage_read.1
  have hq : locH ((tCmd 0x0100 [0, 0x80000000, 640, 0, 0, 0, 0, 0x80000000]).q 0x40) = .host 0 := by decide +kernel
  have hn : (tCmd 0x0100 [0, 0x80000000, 640, 0, 0, 0, 0, 0x80000000]).w 0x48 = 640 := by decide +kernel
  have hc : (tLoads ts).cells (.host 0) 640 = .ok tImage := by
    rw [State.cells, show (tLoads ts).hostOk 0 640 = true from rfl, if_pos rfl, show (tLoads ts).host = tImage from rfl, h1]
  rw [State.loadIn]
  simp only [hq, hn, hc, h2, tImage_read.2]
  rfl

/-- The same program with a BINDING entry of class 1, and on one tile. -/
def tBound : Program := { tProg with image := { tProg.image with bindings := [{ index := 0, cls := 1, alignLog2 := 0, minBytes := 1 }] } }
def tTiled : Program :=
  { image := { ltiles := [{ group := 0, y := 0, x := 0, palBytes := 64, codeFirst := 0, codeCount := 1 }], groups := [{ rows := 1, cols := 1, sharedBytes := 0 }]
               entries := [{ kind := 0, start := [0] }], code := [0x07000000 :: List.replicate 15 0] }
    map := [63], palBase := [0], groupPanel := [3], shrBase := [0], statics := [], flags := 0, crc := 0 }

theorem witness_ProgramsAndImages_load :
    (∃ s c, c = tCmd 0x0100 [0, 0x80000000, 128] ∧ s = tWith c ∧ s.Begins 0 0x0100 c ∧
      ∃ x, s.loadIn c = .ok x ∧ (x.2.refusal (c.w 0x48) == some (1, 0)) = true) ∧
    (∃ s c, c = tCmd 0x0100 [0, 0x80000000, 640, 0, 0, 0, 0, 0x80000000] ∧ s = tLoads [] ∧ s.Begins 0 0x0100 c ∧ s.loadIn c = .ok (s, tLoad) ∧
      tLoad.refusal (c.w 0x48) = none ∧ s.freeSlot = some 0 ∧ tLoad.im.palInit = [] ∧
      ∃ w, s.place tLoad.im (c.flag 0) = .ok w ∧ (w.map == [0]) = true) ∧
    (∃ s c p, c = tCmd 0x0100 [0, 0x80000000, 640, 0, 0, 0, 0, 0x80000000] ∧ s = tLoads [] ∧ p = tTiled ∧ p.palInits = [] ∧
      ∃ u, ((((s.zeroProgram p).copyCode p).begin_ 0).updCmd 0 fun d => { d with load := some (0, p) }).wr (locH (c.q 0x58))
        (((List.range 64).map fun i => ([0] : List Nat).getD i 0xFF).flatMap (leBytes 1)) = .ok u) ∧
    (∃ s c, c = tCmd 0x0100 [0, 0x80000000, 640, 0, 0, 0, 0, 0x80000000] ∧ s = tLoads ((List.range 64).map fun k => (k, { st := .retired, retireFuse := true })) ∧
      s.Begins 0 0x0100 c ∧ s.loadIn c = .ok (s, tLoad) ∧ tLoad.refusal (c.w 0x48) = none ∧ s.freeSlot = some 0 ∧
      ∃ d, s.place tLoad.im (c.flag 0) = .error d ∧ (d == 1) = true) := by
  refine ⟨⟨_, _, rfl, rfl, begins_alone rfl (by decide +kernel), ok_and (by decide +kernel)⟩,
    ⟨_, _, rfl, rfl, begins_alone rfl (by decide +kernel), tLoads_read _, tLoad_admitted, by decide +kernel, by decide +kernel, ok_and (by decide +kernel)⟩,
    ⟨_, _, _, rfl, rfl, rfl, by decide +kernel, ok_of (by decide +kernel)⟩,
    ⟨_, _, rfl, rfl, begins_alone rfl (by decide +kernel), tLoads_read _, tLoad_admitted, by decide +kernel, err_and (by decide +kernel)⟩⟩

theorem witness_ProgramsAndImages_run :
    (∃ s c, c = tCmd 0x0101 [1] ∧ s = tWith c (tOpened {}) ∧ s.Begins 0 0x0101 c ∧ s.programFor c (c.f 0x40 15 0) = none) ∧
    (∃ s c, c = tCmd 0x0101 [0x10000] ∧ s = tWith c (tOpened {}) ∧ s.Begins 0 0x0101 c ∧ s.programFor c (c.f 0x40 15 0) = some tProg ∧
      tProg.image.entries[c.f 0x40 23 16]?.map (·.kind) ≠ some 0) ∧
    (∃ s c, c = tCmd 0x0101 [0] ∧ s = tWith c (tOpened {}) ∧ s.Begins 0 0x0101 c ∧ s.programFor c (c.f 0x40 15 0) = some tProg ∧
      tProg.image.entries[c.f 0x40 23 16]?.map (·.kind) = some 0 ∧ s.portHeld (srcHub 0) = false ∧ notAtHub .none ∧
      tProg.image.badBinding 1 (fun i => c.bufs[i]?) = none ∧ s.blockedTile (tProg.needed (c.f 0x40 23 16)) = none ∧
      ∃ b, s.startBounds { p := tProg, binds := tProg.bufs 1 fun i => c.bufs[i]? } c.words 0 (c.f 0x40 23 16) .none = .ok b) ∧
    (∃ s c, c = tCmd 0x0101 [0] ∧ s = tWith c { State.reset with progs := [(0, { prog := some tBound })] } ∧ s.Begins 0 0x0101 c ∧
      s.programFor c (c.f 0x40 15 0) = some tBound ∧ tBound.image.badBinding 1 (fun i => c.bufs[i]?) = some 0) ∧
    (∃ s c, c = tCmd 0x0101 [0] ∧ s = tWith c { tTile { st := .quarantined } with progs := [(0, { prog := some tTiled })] } ∧ s.Begins 0 0x0101 c ∧
      s.programFor c (c.f 0x40 15 0) = some tTiled ∧ s.blockedTile (tTiled.needed (c.f 0x40 23 16)) = some 63) := by
  refine ⟨⟨_, _, rfl, rfl, begins_alone rfl (by decide +kernel), by decide +kernel⟩, ⟨_, _, rfl, rfl, begins_alone rfl (by decide +kernel), by decide +kernel⟩,
    ⟨_, _, rfl, rfl, begins_alone rfl (by decide +kernel), by decide +kernel, by decide +kernel, by decide +kernel, trivial, by decide +kernel,
      by decide +kernel, ok_of (by decide +kernel)⟩,
    ⟨_, _, rfl, rfl, begins_alone rfl (by decide +kernel), by decide +kernel⟩, ⟨_, _, rfl, rfl, begins_alone rfl (by decide +kernel), by decide +kernel⟩⟩

theorem witness_ProgramsAndImages_unload :
    (∃ s c, c = tCmd 0x0102 [1] ∧ s = tWith c (tOpened {}) ∧ s.Begins 0 0x0102 c ∧ s.program (c.f 0x40 15 0) = none) ∧
    (∃ s c, c = tCmd 0x0102 [0] ∧ s = tWith c (tOpened {}) ∧ s.Begins 0 0x0102 c ∧ s.program (c.f 0x40 15 0) = some tProg ∧
      ∃ e ∈ s.scenes, e.2 = some tScene ∧ tScene.program = c.f 0x40 15 0) ∧
    (∃ s c, c = tCmd 0x0102 [0] ∧ s = tWith c (tOpened {} true) ∧ s.Begins 0 0x0102 c ∧ s.program (c.f 0x40 15 0) = some tProg ∧ s.scenes = []) := by
  refine ⟨⟨_, _, rfl, rfl, begins_alone rfl (by decide +kernel), by decide +kernel⟩,
    ⟨_, _, rfl, rfl, begins_alone rfl (by decide +kernel), by decide +kernel⟩, ⟨_, _, rfl, rfl, begins_alone rfl (by decide +kernel), by decide +kernel⟩⟩

/-- A checkpoint image of no stream and no page of the scene of `tOpened` (15 R489), with its CRC-64. -/
def tCk : SMap Byte := tBytes [(0, 0x43), (1, 0x4B), (2, 0x50), (3, 0x54), (4, 1), (9, 1), (0x23, 16), (0x24, 12), (0x28, 1), (0x2A, 1), (0xF8, 0x15), (0xF9, 0x51),
  (0xFA, 0x92), (0xFB, 0xBC), (0xFC, 0xD6), (0xFD, 0x45), (0xFE, 0xAC), (0xFF, 0x62)]

/-- It stands at device address 0, the pool is active. -/
def tImaged : State := { (tOpened {}).setFld 0x148804 8 8 1 with hbm := tCk }

theorem witness_ProgramsAndImages_checkpoint :
    (∃ s c, c = tCmd 0x0800 [0] ∧ s = tWith c ∧ s.Begins 0 0x0800 c ∧ s.scene (c.f 0x40 4 0) = none) ∧
    (∃ s c, c = { tCmd 0x0800 [0, 1] with targets := [3] } ∧ s = tWith c (tOpened {}) ∧ s.mayBegin 0 0x0800 = some c ∧
      s.scene (c.f 0x40 4 0) = some tScene ∧ s.sceneProg tScene = some tProg ∧ c.f 0x44 14 0 ≠ 0 ∧ ∃ j ∈ c.targets, (s.strm j).st = .free) ∧
    (∃ s c, c = tCmd 0x0800 [0, 0, 0, 0, 0, 0, 0x1000000] ∧ s = tWith c (tOpened {}) ∧ s.Begins 0 0x0800 c ∧ s.scene (c.f 0x40 4 0) = some tScene ∧
      s.sceneProg tScene = some tProg ∧ c.f 0x44 14 0 = 0 ∧ repeats (s.sceneStreams (c.f 0x40 4 0)) = false ∧ s.sceneStreams (c.f 0x40 4 0) = [] ∧
      c.q 0x50 % mib2 = 0 ∧ s.allPages [] = .ok (s, []) ∧ imageSize s.pool tProg.image.sBytes 0 0 ≤ c.q 0x58 ∧
      ∃ u, (s.begin_ 0).wr (.dva (c.q 0x50)) (List.replicate 64 0) = .ok u) ∧
    (∃ s c w, w = { todo := [], written := true } ∧ c = { tCmd 0x0800 [] .running with begun := true, ck := some w } ∧ s = tWith c (tOpened {}) ∧
      s.Runs 0 c ∧ s.mayBegin 0 0x0800 = none ∧ c.ck = some w ∧ (s.scene (c.f 0x40 4 0)).isSome = true ∧ s.sceneProg tScene = some tProg ∧
      w.send = [] ∧ w.header = [] ∧ c.remotes = 0 ∧ c.targets = [] ∧ c.rfail = none ∧ c.status = 0) := by
  refine ⟨⟨_, _, rfl, rfl, begins_alone rfl (by decide +kernel), by decide +kernel⟩,
    ⟨_, _, rfl, rfl, (begins_alone rfl (by decide +kernel)).may, by decide +kernel⟩,
    ⟨_, _, rfl, rfl, begins_alone rfl (by decide +kernel), by decide +kernel, by decide +kernel, by decide +kernel, by decide +kernel, by decide +kernel,
      by decide +kernel, rfl, by decide +kernel, ok_of (by decide +kernel)⟩,
    ⟨_, _, _, rfl, rfl, rfl, runs_alone rfl (by decide +kernel), ?_, by decide +kernel⟩⟩
  simp [State.mayBegin, State.unbegun, tWith, tCmd, State.firstFree]

/-- An image up to the traffic on a unit of the hub, its CRC's steps taken one before the next: the bytes read, where all are. -/
def readStrict (s : State) (c : Cmd) : E (State × Option Nat × Except (Nat × Nat) (SMap Byte)) := do
  let h ← s.rd (.dva (c.q 0x48)) 0x100
  let n := leNat ((h.2.drop 8).take 8)
  if leNat (h.2.take 4) ≠ 0x54504B43 ∨ leNat ((h.2.drop 4).take 2) ≠ 1 ∨ c.q 0x50 < n then return (h.1, none, .error (0x1003, 0x15))
  let r ← h.1.rdCells true (.dva (c.q 0x48)) n
  if crcStrict ⟨64, 0x42F0E1EBA9EA3693, 0, false, 0⟩ 0 (bytesOf n (SMap.erase 0xF8 8 r.2)) ≠ imgU r.2 0xF8 8 then
    return (r.1, some n, .error (0x7001, 0))
  return (r.1, some n, .ok r.2)

/-- What is read, the traffic counted on unit `20 + k`. -/
def readAt (k : Nat) (y : State × Option Nat × Except (Nat × Nat) (SMap Byte)) : State × Except (Nat × Nat) (SMap Byte) :=
  (match y.2.1 with
   | some n => { y.1.bump64 (0x240008 + 0x1000 * (20 + k)) n with freeCtr := y.1.freeCtr + 1 }
   | none => y.1, y.2.2)

/-- It answers what a test of its strict form admits, whichever of the four units the traffic takes. -/
theorem readImage_ok {s : State} {c : Cmd} {p : State × Except (Nat × Nat) (SMap Byte) → Bool}
    (h : (match readStrict s c with | .ok a => (List.range 4).all fun k => p (readAt k a) | .error _ => false) = true) :
    ∃ x, s.readImage c = .ok x ∧ p x = true := by
  have e : s.readImage c = (readStrict s c).bind fun y => .ok (readAt ((Config.freeWord y.1.freeCtr).toNat % 4) y) := by
    simp only [State.readImage, readStrict, crc64_strict, Nat.xor_zero, bind, pure, Except.pure]
    cases s.rd (.dva (c.q 0x48)) 0x100 with
    | error x => rfl
    | ok x =>
      simp only [Except.bind]
      split
      · rfl
      · cases x.1.rdCells true (.dva (c.q 0x48)) (leNat ((x.2.drop 8).take 8)) with
        | error y => rfl
        | ok y => simp only; split <;> rfl
  rw [e]
  cases hx : readStrict s c with
  | ok a =>
    rw [hx] at h
    simp only [List.all_eq_true, List.mem_range] at h
    exact ⟨_, rfl, h _ (Nat.mod_lt _ (by decide))⟩
  | error e => rw [hx] at h; cases h

theorem witness_ProgramsAndImages_restore :
    (∃ s c, c = tCmd 0x0801 [0] ∧ s = tWith c (tOpened {}) ∧ s.Begins 0 0x0801 c ∧ ∃ x, s.readImage c = .ok x ∧
      (match x.2 with | .ok _ => false | .error e => e == (0x1003, 0x15)) = true) ∧
    (∃ s c, c = { tCmd 0x0801 [0, 0, 0, 0, 256] with flags := 1 } ∧ s = tWith c tImaged ∧ s.Begins 0 0x0801 c ∧ c.flag 0 = true ∧
      ∃ x, s.readImage c = .ok x ∧ (match x.2 with | .ok _ => true | .error _ => false) = true) ∧
    (∃ s c, c = tCmd 0x0801 [0, 0, 0, 0, 256] ∧ s = tWith c tImaged ∧ s.Begins 0 0x0801 c ∧ c.flag 0 = false ∧
      ∃ x, s.readImage c = .ok x ∧ (match x.2 with
        | .ok cs => x.1.restoreBad c cs == none && (match x.1.restore c cs with | .ok _ => true | .error _ => false)
        | .error _ => false) = true) ∧
    (∃ s c, c = tCmd 0x0801 [1, 0, 0, 0, 256] ∧ s = tWith c tImaged ∧ s.Begins 0 0x0801 c ∧ c.flag 0 = false ∧
      ∃ x, s.readImage c = .ok x ∧ (match x.2 with | .ok cs => x.1.restoreBad c cs == some (0x2007, 0) | .error _ => false) = true) := by
  refine ⟨⟨_, _, rfl, rfl, begins_alone rfl (by decide +kernel), readImage_ok (by decide +kernel)⟩,
    ⟨_, _, rfl, rfl, begins_alone rfl (by decide +kernel), by decide +kernel, readImage_ok (by decide +kernel)⟩,
    ⟨_, _, rfl, rfl, begins_alone rfl (by decide +kernel), by decide +kernel, readImage_ok (by decide +kernel)⟩,
    ⟨_, _, rfl, rfl, begins_alone rfl (by decide +kernel), by decide +kernel, readImage_ok (by decide +kernel)⟩⟩

/-! ## Movement -/

/-- A held unit of a kind, on an instance. -/
def tHeld (kind entry inst : Nat) : SUnit := { tUnit kind [] true with entry := entry, inst := inst }

theorem witness_Movement_copy :
    (∃ s c, c = tCmd 0x0300 [0, 0x80000000, 0, 0, 0x1000, 0x80000000, 0, 0, 63] ∧ s = tWith c ∧ s.Begins 0 0x0300 c ∧ c.copyCvt = 0 ∧
      ∃ e, s.plainChecks c = .error e ∧ (e.1 != 0x4002) = true) ∧
    (∃ s c, c = tCmd 0x0300 [0, 0x80000000, 0, 0, 0x1000, 0x80000000, 0, 0, 64] ∧ s = tWith c ∧ s.Begins 0 0x0300 c ∧ c.copyCvt = 0 ∧ c.checkMode = 0 ∧
      0 < c.q 0x60 ∧ ∃ x, s.plainChecks c = .ok x) ∧
    (∃ s c, c = tCmd 0x0300 [0, 0x80000000, 0, 0, 0x1000, 0x80000000, 0, 0, 0] ∧ s = tWith c ∧ s.Begins 0 0x0300 c ∧ c.copyCvt = 0 ∧ c.checkMode = 0 ∧
      c.q 0x60 = 0 ∧ ∃ x, s.plainChecks c = .ok x) ∧
    (∃ s c, c = tCmd 0x0300 [0, 0x80000000, 0, 0, 0x1000, 0x80000000, 0, 0, 64, 0, 0x14000000] ∧ s = tWith c ∧ s.Begins 0 0x0300 c ∧ c.copyCvt = 0 ∧
      c.checkMode ≠ 0 ∧ ∃ x, s.plainChecks c = .ok x) ∧
    (∃ s c, c = tCmd 0x0300 [0, 0x80000000, 0, 0, 0x1000, 0x80000000, 0, 0, 64, 0, 0x0101] ∧ s = tWith c ∧ s.Begins 0 0x0300 c ∧ c.copyCvt ≠ 0 ∧
      0 < c.q 0x60 ∧ ∃ r, State.convChecks c = .ok r) ∧
    (∃ s c, c = tCmd 0x0300 [0, 0x80000000, 0, 0, 0x1000, 0x80000000, 0, 0, 64, 0, 0xF101] ∧ s = tWith c ∧ s.Begins 0 0x0300 c ∧ c.copyCvt ≠ 0 ∧
      ∃ e, State.convChecks c = .error e ∧ (e.1 != 0x4002) = true) := by
  refine ⟨⟨_, _, rfl, rfl, begins_alone rfl (by decide +kernel), by decide +kernel, err_and (by decide +kernel)⟩,
    ⟨_, _, rfl, rfl, begins_alone rfl (by decide +kernel), by decide +kernel, by decide +kernel, by decide +kernel, ok_of (by decide +kernel)⟩,
    ⟨_, _, rfl, rfl, begins_alone rfl (by decide +kernel), by decide +kernel, by decide +kernel, by decide +kernel, ok_of (by decide +kernel)⟩,
    ⟨_, _, rfl, rfl, begins_alone rfl (by decide +kernel), by decide +kernel, by decide +kernel, ok_of (by decide +kernel)⟩,
    ⟨_, _, rfl, rfl, begins_alone rfl (by decide +kernel), by decide +kernel, by decide +kernel, ok_of (by decide +kernel)⟩,
    ⟨_, _, rfl, rfl, begins_alone rfl (by decide +kernel), by decide +kernel, err_and (by decide +kernel)⟩⟩

theorem witness_Movement_rest :
    (∃ s c, c = tCmd 0x0303 [] ∧ s = tWith c ∧ s.Begins 0 0x0303 c ∧ ∃ ps, s.windowPieces c 0 c.items = .ok ps) ∧
    (∃ s c, c = { tCmd 0x0303 [] with items := [[1, 0, 0, 0, 0, 0]] } ∧ s = tWith c ∧ s.mayBegin 0 0x0303 = some c ∧
      ∃ e, s.windowPieces c 0 c.items = .error e ∧ (e.1 != 0x4002) = true) ∧
    (∃ s c p, p = { src := .host 0, dst := .host 64, len := 64 } ∧ c = { tCmd 0x0300 [] .running with begun := true, pieces := [p] } ∧
      s = tUnits c [tHeld 6 0 15] ∧ s.Runs 0 c ∧ c.checkMode = 0 ∧ p.kind = 1 ∧ p.sig = none ∧
      (s.sch.units.find? fun u => u.tok == 0 && u.kind == 6 && u.held && u.inst == 15) = some (tHeld 6 0 15) ∧
      ∃ r, s.rdCells (p.kind != 2) p.src p.len = .ok r ∧ (match r.1.wrCells p.dst p.len r.2 with | .ok _ => true | .error _ => false) = true) ∧
    (∃ s c, c = tCmd 0x0700 [0, 0x80000000, 4] ∧ s = tWith c (tTile { st := .quarantined }) ∧ s.Begins 0 0x0700 c ∧ c.f 0x48 3 0 ≤ 4 ∧ c.q 0x40 = 2 ^ 63 ∧
      (s.tile 63).st = .quarantined ∧ s.testResult 63 ≠ 1) ∧
    (∃ s c, c = tCmd 0x0700 [0, 0, 5] ∧ s = tWith c ∧ s.Begins 0 0x0700 c ∧ 4 < c.f 0x48 3 0) ∧
    (∃ s c, c = tCmd 0x0701 [0x800] ∧ s = tWith c (tPort 1 { st := .up }) ∧ s.Begins 0 0x0701 c ∧ c.f 0x40 11 0 = 2 ^ 11 ∧ s.portUp 11 = true ∧
      s.eyeResult 11 ≠ 1) ∧
    (∃ s c, c = tCmd 0x0701 [0] ∧ s = tWith c ∧ s.Begins 0 0x0701 c ∧ c.f 0x40 11 0 = 0) := by
  refine ⟨⟨_, _, rfl, rfl, begins_alone rfl (by decide +kernel), ok_of (by decide +kernel)⟩,
    ⟨_, _, rfl, rfl, (begins_alone rfl (by decide +kernel)).may, err_and (by decide +kernel)⟩,
    ⟨_, _, _, rfl, rfl, rfl, runs_alone rfl (by decide +kernel), by decide +kernel, rfl, rfl, by decide +kernel, ok_and (by decide +kernel)⟩,
    ⟨_, _, rfl, rfl, begins_alone rfl (by decide +kernel), by decide +kernel⟩, ⟨_, _, rfl, rfl, begins_alone rfl (by decide +kernel), by decide +kernel⟩,
    ⟨_, _, rfl, rfl, begins_alone rfl (by decide +kernel), by decide +kernel⟩, ⟨_, _, rfl, rfl, begins_alone rfl (by decide +kernel), by decide +kernel⟩⟩

/-! ## Tiles and engines -/

/-- An optional value that meets a test. -/
theorem some_and {α : Type} {x : Option α} {p : α → Bool} (h : x.any p = true) : ∃ a, x = some a ∧ p a = true := by
  cases x with
  | some a => exact ⟨a, rfl, h⟩
  | none => cases h

/-- A tile of a command, at instruction `pc`. -/
def tAt (pc : Nat) (mma : Option MmaProg := none) : TileRun :=
  { logical := 0, phys := 63, pc := pc, ended := false, stopped := false, waitObj := none, waitMet := false, mma := mma }

/-- A running RUN of program 0 with these tiles and entries; SYNC 0 is object 5. -/
def tRuns (tiles : List TileRun) (entries : List EntryRun := []) : ProgRun :=
  { handle := 0, entry := 0, kind := 0, syncs := [5], binds := [(0, 0x200000)], words := [], bounds := [], scene := 0, frame := 1
    streams := [{ listIdx := 0, stream := 3, p0 := 0, inOff := 0, outOff := 0, passed := true, pend := [], status := 0, committed := false }]
    tiles := tiles, entries := entries, wrote := false, started := true, scattering := false, listLen := 0 }

/-- A region of binding 0: 64 rows of 64 elements of format 1. -/
def tRegion : Region :=
  { rho := 1, bind := 1, layout := 0, block := 0, fmt := 1, kind := 3, binding := 0, owner := 0, elemBase := 0, elemBytes := 0x2000, scaleBase := 0
    scaleBytes := 0, rowPitch := 128, scalePitch := 0, rows := 64, rowElems := 64 }

/-- The program of `tTiled` with this code, these engine entries and descriptors, and two regions. -/
def tCode (code : List (List Nat)) (engine conv : List (List Nat) := []) : Program :=
  { tTiled with image := { tTiled.image with
      code := code.map (fun w => w ++ List.replicate (16 - w.length) 0), engine := engine.map (fun w => w ++ List.replicate (64 - w.length) 0)
      conv := conv.map (fun w => w ++ List.replicate (32 - w.length) 0), regions := [tRegion, { tRegion with elemBase := 0x10000 }] } }

/-- It runs on tile 63, its tiles granted; `us`: what else it holds or waits for. -/
def tGo (p : Program) (r : ProgRun) (us : List SUnit := [tHeld 0 0 0]) (x : Tile := { st := .running }) : State :=
  tUnits { tCmd 0x0101 [0] .running with begun := true, run := some r } us
    { tTile x with progs := [(0, { prog := some p })], scenes := [(0, some tScene)], streams := [(3, { st := .ready })]
                   gran := (List.range 5).map fun i => (i, { frame := i, resident := true }) }

theorem witness_TileInstructions_issue :
    (∃ s o, s = tGo (tCode [[0]]) (tRuns [tAt 0]) ∧ s.onTile 0 63 = some o ∧
      (o.mayIssue s && o.instr == some .nop && !s.portHeld (srcUnit 0 63) && !(s.tile 63).quarPending) = true) ∧
    (∃ s o, s = tGo (tCode [[0x05000000, 0, 1]]) (tRuns [tAt 0]) ∧ s.onTile 0 63 = some o ∧
      (o.mayIssue s && o.instr == some (.signal 0 1) && bits (s.obj (o.r.syncObj 0)).config.toNat 31 31 == 0) = true) ∧
    (∃ s o, s = tGo (tCode [[0x04000000]]) (tRuns [tAt 0]) ∧ s.onTile 0 63 = some o ∧
      (o.mayIssue s && o.instr == some (.wait 0 0 0) && !o.t.waitMet && o.t.waitObj.isNone) = true ∧ 0 ≤ (s.obj (o.r.syncObj 0)).value) ∧
    (∃ s o, s = tGo (tCode [[0x04000000, 0, 1]]) (tRuns [tAt 0]) ∧ s.onTile 0 63 = some o ∧
      (o.mayIssue s && o.instr == some (.wait 0 1 0) && !o.t.waitMet && o.t.waitObj.isNone && decide ((s.obj (o.r.syncObj 0)).value < 1)) = true) ∧
    (∃ s o, s = tGo (tCode [[0x07000000]]) (tRuns [tAt 0, { tAt 0 with phys := 62 }]) ∧ s.onTile 0 63 = some o ∧
      (o.mayIssue s && o.instr == some .fin && !({ o.r with tiles := o.r.tiles.map fun y => if y.phys = 63 then { y with ended := true } else y } :
        ProgRun).allDone) = true) ∧
    (∃ s o, s = tGo (tCode [[0x07000000]]) (tRuns [tAt 0]) ∧ s.onTile 0 63 = some o ∧
      (o.mayIssue s && o.instr == some .fin && ({ o.r with tiles := o.r.tiles.map fun y => if y.phys = 63 then { y with ended := true } else y } :
        ProgRun).allDone && o.r.kind == 0 && !o.r.scattering) = true) ∧
    (∃ s o, s = tGo (tCode [[0x04000000]]) (tRuns [{ tAt 0 with waitMet := true }]) ∧ s.onTile 0 63 = some o ∧
      (o.instr == some (.wait 0 0 0) && o.t.waitMet && o.c.phase == .running && o.c.stop.isNone) = true) :=
  ⟨⟨_, _, rfl, rfl, by decide +kernel⟩, ⟨_, _, rfl, rfl, by decide +kernel⟩, ⟨_, _, rfl, rfl, by decide +kernel⟩, ⟨_, _, rfl, rfl, by decide +kernel⟩,
    ⟨_, _, rfl, rfl, by decide +kernel⟩, ⟨_, _, rfl, rfl, by decide +kernel⟩, ⟨_, _, rfl, rfl, by decide +kernel⟩⟩

/-- An FWD or a STAGE of `m` rows of 2 elements from region 0 to region 1; an MMA of 2 x 2 x `k` in binary16 between them. -/
def tMove (op m : Nat) : List Nat := [op * 2 ^ 24 + 0x100000, m, 0, 2, 0, 0, 0, 0, 0, 0x10000000, 0, 0, 0, 0, 0, 0x10040000]
def tMma (m : Nat) : List Nat := [0x01110000, m, 2, 2, 0x0101, 0, 0, 0x10000000, 0, 0x10000000, 0, 0, 0, 0, 0, 0x10040000]

/-- The MMA in its first m-group, its blocks as given. -/
def tG (np : Nat) (todo : List (Nat × Nat × Nat)) (mism : Nat := 0) (pend : Bool := false) (rep : List (Nat × Nat × Nat) := []) : MmaProg :=
  { m := 2, n := 2, k := 2, np := np, g := 0, todo := todo, mism := mism, replayPending := pend, replaying := rep }

/-- A tile that runs that MMA, checked by RESIDUE. -/
def tMmaOn (g : Option MmaProg) (m : Nat := 2) : State := tGo (tCode [tMma m]) (tRuns [tAt 0 g]) [tHeld 0 0 0] { st := .running, residueOn := true }

theorem witness_TileInstructions_move :
    (∃ s o, s = tGo (tCode [tMove 2 0]) (tRuns [tAt 0]) ∧ s.onTile 0 63 = some o ∧
      (o.mayIssue s && (match o.instr with
        | some (.fwd i) => (match s.extAt (o.r.ctx o.p) o.r i.m with | .ok m => m.2 == 0 | .error _ => false)
        | _ => false)) = true) ∧
    (∃ s o, s = tGo (tCode [tMove 2 2]) (tRuns [tAt 0]) ∧ s.onTile 0 63 = some o ∧
      (o.mayIssue s && (match o.instr with
        | some (.fwd i) => (match o.move s i (.fwd i) false with | .ok _ => true | .error _ => false)
        | _ => false)) = true) ∧
    (∃ s o, s = tGo (tCode [tMove 3 0]) (tRuns [tAt 0]) ∧ s.onTile 0 63 = some o ∧
      (o.mayIssue s && (match o.instr with
        | some (.stage i) => (match s.extAt (o.r.ctx o.p) o.r i.m with | .ok m => m.2 == 0 | .error _ => false)
        | _ => false)) = true) ∧
    (∃ s o, s = tGo (tCode [tMove 3 2]) (tRuns [tAt 0]) ∧ s.onTile 0 63 = some o ∧
      (o.mayIssue s && (match o.instr with
        | some (.stage i) => (match o.move s i (.stage i) true with | .ok _ => true | .error _ => false)
        | _ => false)) = true) :=
  ⟨⟨_, _, rfl, rfl, by decide +kernel⟩, ⟨_, _, rfl, rfl, by decide +kernel⟩, ⟨_, _, rfl, rfl, by decide +kernel⟩, ⟨_, _, rfl, rfl, by decide +kernel⟩⟩

/-- A fault of physical column 1 in the first block sum of row 0. -/
def tFault : ColFault := { col := 1, row := 0, blk := 0, delta := 1 }

/-- Faults make an event in the m-group run last. -/
def tLate (s : State) (o : OnTile) (g : MmaProg) (fs : List ColFault) : Bool :=
  match o.instr with
  | some (.mma i) => !((o.mctx i g).eventCols s g.last ((g.todo.filter fun b => b.1 == g.last.1 && b.2.1 == g.last.2).map (·.2.2)) fs).isEmpty
  | _ => false

theorem witness_TileInstructions_mma :
    (∃ s o, s = tMmaOn none 0 ∧ s.onTile 0 63 = some o ∧ (o.mayIssue s && (match o.instr with
        | some (.mma i) => (match o.extents s i with | .ok r => r.2.m == 0 | .error _ => false)
        | _ => false)) = true) ∧
    (∃ s o, s = tMmaOn none ∧ s.onTile 0 63 = some o ∧ (o.mayIssue s && (match o.instr with
        | some (.mma i) => (match o.extents s i with
          | .ok r => r.2.m != 0 && r.2.n != 0 && r.2.left && !r.2.halfBusy &&
            (match (o.mctx i r.2).runGroup (((TInstr.mma i).outLinks.foldl (fun s d => s.openTransfer (linkKey 63 d)) (r.1.startInstr 63)).updTile 0 63
              fun y => { y with mma := some r.2 }) with | .ok _ => true | .error _ => false)
          | .error _ => false)
        | _ => false)) = true) ∧
    (∃ s o g, g = tG 0 [] ∧ s = tMmaOn g ∧ s.onTile 0 63 = some o ∧ o.t.mma = some g ∧ g.dead = false ∧ tLate s o g [] = false ∧ (match o.instr with
        | some (.mma i) => g.left && !g.halfBusy && (match (o.mctx i g).runGroup s with | .ok _ => true | .error _ => false)
        | _ => false) = true) ∧
    (∃ s o g, g = tG 1 [(0, 0, 0)] ∧ s = tMmaOn g ∧ s.onTile 0 63 = some o ∧ o.t.mma = some g ∧ g.mism = 0 ∧ g.dead = false ∧
      tLate s o g [tFault] = true) ∧
    (∃ s o g, g = tG 1 [(0, 0, 0)] 1 ∧ s = tMmaOn g ∧ s.onTile 0 63 = some o ∧ o.t.mma = some g ∧ g.mism ≠ 0 ∧ o.r.kind = 0 ∧
      g.dead = false ∧ tLate s o g [tFault] = true) ∧
    (∃ s o g, g = tG 1 [] 1 true [(0, 0, 0)] ∧ s = tMmaOn g ∧ s.onTile 0 63 = some o ∧ o.t.mma = some g ∧ g.replayPending = true ∧
      (match o.instr with
        | some (.mma i) => (match (o.mctx i g).compute s g.last.1 g.last.2 (g.replaying.map fun b => b.2.2) with | .ok _ => true | .error _ => false)
        | _ => false) = true) ∧
    (∃ s o g, g = tG 1 [(0, 0, 0)] ∧ s = tMmaOn g ∧ s.onTile 0 63 = some o ∧ o.t.mma = some g ∧ g.replayPending = false ∧
      (match o.instr with
        | some (.mma i) => (match (o.mctx i g).release s o.c 0 0 0 with | .ok _ => true | .error _ => false)
        | _ => false) = true) ∧
    (∃ s o g, g = tG 0 [] ∧ s = tMmaOn g ∧ s.onTile 0 63 = some o ∧ o.t.mma = some g ∧ g.dead = false ∧ g.todo = [] ∧ s.portHeld (srcUnit 0 63) = false) :=
  ⟨⟨_, _, rfl, rfl, by decide +kernel⟩, ⟨_, _, rfl, rfl, by decide +kernel⟩, ⟨_, _, _, rfl, rfl, rfl, rfl, by decide +kernel⟩,
    ⟨_, _, _, rfl, rfl, rfl, rfl, by decide +kernel⟩, ⟨_, _, _, rfl, rfl, rfl, rfl, by decide +kernel⟩, ⟨_, _, _, rfl, rfl, rfl, rfl, by decide +kernel⟩,
    ⟨_, _, _, rfl, rfl, rfl, rfl, by decide +kernel⟩, ⟨_, _, _, rfl, rfl, rfl, rfl, by decide +kernel⟩⟩

/-- It answers. -/
def isOk {α : Type} (x : E α) : Bool := match x with | .ok _ => true | .error _ => false

theorem isOk_ok {α : Type} {x : E α} (h : isOk x = true) : ∃ a, x = .ok a := by
  cases x with
  | ok a => exact ⟨a, rfl⟩
  | error e => cases h

/-- A chain of computations that answers: its first one answers. -/
theorem bind_isOk {α β : Type} {x : E α} {f : α → E β} (h : isOk (x.bind f) = true) : ∃ a, x = .ok a ∧ isOk (f a) = true := by
  cases x with
  | ok a => exact ⟨a, rfl, h⟩
  | error e => cases h

/-- A chunk of a stateful operation, all its computations in a row. -/
def tChunk (o : OnEntry) (s : State) (a : GlazeAt) (f : GlazeAt → State → List GlazeIn → List Val → E (State × List (List Val) × List Val)) :
    E State :=
  (o.startState s a).bind fun z => (if a.k = 0 then z.1.copyTail o.x a z.2.2 else .ok z.1).bind fun v => (v.chunkIn o.x a).bind fun ins =>
    (f a ins.1 ins.2 (a.fromCodes (if a.k = 0 then z.2.1 else o.u.buf))).bind fun r =>
      (foldE (fun (s : State) y => s.writeY o.x a.g (a.row y.1) y.2) r.1 ((List.range r.2.1.length).zip r.2.1)).bind fun w =>
        o.endChunk w a r.2.2 z.2.2

theorem tChunk_ok {o : OnEntry} {s : State} {a : GlazeAt} {f : GlazeAt → State → List GlazeIn → List Val → E (State × List (List Val) × List Val)}
    (h : isOk (tChunk o s a f) = true) :
    ∃ s1 codes tail v ins r w u, o.startState s a = .ok (s1, codes, tail) ∧ (if a.k = 0 then s1.copyTail o.x a tail else .ok s1) = .ok v ∧
      v.chunkIn o.x a = .ok ins ∧ f a ins.1 ins.2 (a.fromCodes (if a.k = 0 then codes else o.u.buf)) = .ok r ∧
      foldE (fun (s : State) y => s.writeY o.x a.g (a.row y.1) y.2) r.1 ((List.range r.2.1.length).zip r.2.1) = .ok w ∧
      o.endChunk w a r.2.2 tail = .ok u := by
  obtain ⟨⟨s1, codes, tail⟩, h1, h⟩ := bind_isOk h
  obtain ⟨v, h2, h⟩ := bind_isOk h
  obtain ⟨ins, h3, h⟩ := bind_isOk h
  obtain ⟨r, h4, h⟩ := bind_isOk h
  obtain ⟨w, h5, h⟩ := bind_isOk h
  obtain ⟨u, h6⟩ := isOk_ok h
  exact ⟨s1, codes, tail, v, ins, r, w, u, h1, h2, h3, h4, h5, h6⟩

/-- A glaze entry of operation `op` with one channel, one head and one state element, x in region 0 and Y in region 1. -/
def tGlaze (op : Nat) : List Nat :=
  [1 + op * 256 + 0x10000000, 1, 0, 0, 0, 0, 0, 0, 1, 0x10001, 0, 0, 0x01010101, 0, 0, 0, 0, 0x10000000, 0, 0x10000000, 0, 0x10000000, 0, 0x10000000,
   0, 0, 0, 0x10040000]

/-- An entry of a kind with its first unit under way. -/
def tEntry (conv : Bool) (kind chunk : Nat) (buf : List Nat := []) : EntryRun :=
  { conv := conv, idx := 0, kind := kind, started := true, units := [{ n := 0, chunk := chunk, buf := buf }] }

/-- It holds instance 2. -/
def tEngine (kind : Nat) (p : Program) (e : EntryRun) (tiles : List TileRun := [tAt 0]) : State :=
  tGo p { tRuns tiles [e] with frame := 3 } [tHeld 0 0 0, tHeld kind 0 2]

theorem witness_EngineEntries_start :
    (∃ s o, s = tGo (tCode [] [tGlaze 1]) (tRuns [tAt 0] [{ conv := false, idx := 0, kind := 1, units := [], waitOn := some (5, 1) }]) ∧
      s.entryAt 0 0 = some o ∧ o.e.started = false ∧ o.e.done = false ∧ o.e.waitOn.isSome = true ∧ o.e.waitMet = false) ∧
    (∃ s o, s = tGo (tCode [] [tGlaze 1]) (tRuns [tAt 0] [{ conv := false, idx := 0, kind := 1, units := [] }]) ∧
      s.entryAt 0 0 = some o ∧ o.e.started = false ∧ o.e.done = false ∧ o.e.waitOn = none ∧ o.firstUnits s ≠ []) ∧
    (∃ s o, s = tGo (tCode [] [tGlaze 1]) { tRuns [tAt 0] [{ conv := false, idx := 0, kind := 1, units := [] }] with streams := [] } ∧
      s.entryAt 0 0 = some o ∧ o.e.started = false ∧ o.e.done = false ∧ o.e.waitOn = none ∧ o.firstUnits s = []) :=
  ⟨⟨_, _, rfl, rfl, by decide +kernel⟩, ⟨_, _, rfl, rfl, by decide +kernel⟩, ⟨_, _, rfl, rfl, by decide +kernel⟩⟩

theorem witness_EngineEntries_scan : ∃ s o a, s = tEngine 1 (tCode [] [tGlaze 1]) (tEntry false 1 1 [0]) ∧ s.onEntry 0 0 0 = some o ∧
    s.portHeld o.src = false ∧ o.glaze s 1 = some a ∧
    ∃ s1 codes tail v ins r w u, o.startState s a = .ok (s1, codes, tail) ∧ (if a.k = 0 then s1.copyTail o.x a tail else .ok s1) = .ok v ∧
      v.chunkIn o.x a = .ok ins ∧ Except.ok (ins.1, (a.scanAll ins.2 (a.fromCodes (if a.k = 0 then codes else o.u.buf))).1,
        (a.scanAll ins.2 (a.fromCodes (if a.k = 0 then codes else o.u.buf))).2) = (Except.ok r : E _) ∧
      foldE (fun (s : State) y => s.writeY o.x a.g (a.row y.1) y.2) r.1 ((List.range r.2.1.length).zip r.2.1) = .ok w ∧
      o.endChunk w a r.2.2 tail = .ok u :=
  ⟨_, _, _, rfl, rfl, by decide +kernel, rfl, tChunk_ok (f := fun a s ins hs => .ok (s, (a.scanAll ins hs).1, (a.scanAll ins hs).2)) (by decide +kernel)⟩

theorem witness_EngineEntries_carry : ∃ s o a, s = tEngine 1 (tCode [] [tGlaze 3]) (tEntry false 1 1 [0]) ∧ s.onEntry 0 0 0 = some o ∧
    s.portHeld o.src = false ∧ o.glaze s 3 = some a ∧
    ∃ s1 codes tail v ins r w u, o.startState s a = .ok (s1, codes, tail) ∧ (if a.k = 0 then s1.copyTail o.x a tail else .ok s1) = .ok v ∧
      v.chunkIn o.x a = .ok ins ∧ ins.1.carryChunk o.x a ins.2 (a.fromCodes (if a.k = 0 then codes else o.u.buf)) = .ok r ∧
      foldE (fun (s : State) y => s.writeY o.x a.g (a.row y.1) y.2) r.1 ((List.range r.2.1.length).zip r.2.1) = .ok w ∧
      o.endChunk w a r.2.2 tail = .ok u :=
  ⟨_, _, _, rfl, rfl, by decide +kernel, rfl, tChunk_ok (f := fun a s ins hs => s.carryChunk _ a ins hs) (by decide +kernel)⟩

theorem witness_EngineEntries_record : ∃ s o a, s = tEngine 1 (tCode [] [tGlaze 1]) (tEntry false 1 0) ∧ s.onEntry 0 0 0 = some o ∧
    o.glaze s 1 = some a ∧ a.g.keeps = true ∧ a.k = 0 ∧ a.recAt s o.p false ≤ (BitVec.ofNat 64 (a.recAt s o.p false)).toNat ∧
      (BitVec.ofNat 64 (a.recAt s o.p false)).toNat < a.recAt s o.p false + a.g.recBytes :=
  ⟨_, _, _, rfl, rfl, rfl, by decide +kernel⟩

theorem witness_EngineEntries_mask :
    ∃ s o, s = tEngine 1 (tCode [] [tGlaze 2]) (tEntry false 1 1) ∧ s.onEntry 0 0 0 = some o ∧ s.portHeld o.src = false ∧
      (match o.glaze s 2 with
        | some a => (match (s.chunkIn o.x a).bind fun ins => foldE (fun (s : State) y => s.maskHead o.x a ins.2 y) ins.1 (List.range a.g.h) with
          | .ok _ => true | .error _ => false)
        | none => false) = true :=
  ⟨_, _, rfl, rfl, by decide +kernel⟩

/-- A descriptor of image op `op` on region 0 with its output in region 1: one image of 2 x 2 pixels of 4 channels, factor 2, kernel 3 x 3. -/
def tConv (op : Nat) : List Nat :=
  [op, 1, 0, 0x10000, 0, 0, 0, 0, 0x01010303, 0x20101, 0x10001, 0x10001, 0, 0, 1, 2, 2, 4, 0x10004, 0x0101, 0xFFFF]

theorem witness_EngineEntries_rows : ∀ (op : Nat) (n : ItxAt → Nat) (f : ItxAt → Ctx → State → E (State × RowCount)), (op, n, f) ∈
      [(2, fun a => a.th, ItxAt.txInRow), (3, fun a => a.th, ItxAt.txOutRow),
       (4, fun a => a.g.oh, ItxAt.s2dRow), (5, fun a => a.g.oh, ItxAt.d2sRow), (6, fun a => a.g.oh, ItxAt.relayoutRow)] →
    ∃ s o, s = tEngine 3 (tCode [] [] [tConv op]) (tEntry true 3 0) ∧ s.onEntry 0 0 0 = some o ∧
      (match o.itx op with
        | some a => decide (a.k < n a) && (match f a o.x s with | .ok _ => true | .error _ => false)
        | none => false) = true := by
  intro op n f h
  simp only [List.mem_cons, Prod.mk.injEq, List.not_mem_nil, or_false] at h
  obtain ⟨rfl, rfl, rfl⟩ | ⟨rfl, rfl, rfl⟩ | ⟨rfl, rfl, rfl⟩ | ⟨rfl, rfl, rfl⟩ | ⟨rfl, rfl, rfl⟩ := h <;> exact ⟨_, _, rfl, rfl, by decide +kernel⟩

/-- A crop-and-resize entry to 1 x 1 pixels of 4 channels; the box is read from region 0 too. -/
def tCrop : List Nat :=
  [3, 1, 0, 0, 0, 0, 0, 0, 0x10001, 4, 1, 2, 2, 1, 0, 0x0101, 0, 0x10000000, 0, 0x10040000, 0, 0x10000000]

theorem witness_EngineEntries_crop : ∃ s o, s = tEngine 4 (tCode [] [tCrop]) (tEntry false 4 0) ∧ s.onEntry 0 0 0 = some o ∧ o.e.conv = false ∧
    o.e.kind = 4 ∧ s.portHeld o.src = false ∧
    (match o.x.region (CropE.ofWords o.ws).inn.index, o.x.region (CropE.ofWords o.ws).out.index, o.x.region (CropE.ofWords o.ws).box.index with
     | some i, some out, some b =>
       (match (if o.u.chunk = 0 then (s.rd ((o.x.p.planeLoc o.x.binds b false).plus (32 * o.u.n)) 32).bind fun v => .ok (v.1, wordsOf 8 v.2)
           else .ok (s, o.u.buf) : E (State × List Nat)) with
        | .ok v => isOk ((o.crop i out v.2).run o.x v.1 o.u.chunk)
        | .error _ => false)
     | _, _, _ => false) = true :=
  ⟨_, _, rfl, rfl, by decide +kernel⟩

/-- An attention entry of one head of 32 dimensions, on logical tile 0, signalling SYNC 0. -/
def tAtt : List Nat :=
  [2 + 0x10000000, 2, 0x1000, 0, 0, 0, 1, 0, 0x200101, 0, 0, 0x01010000, 0x3F800000, 0, 0, 0, 0, 0x10000000, 0, 0x10000000, 0, 0x10040000, 1]

/-- Its program has a STEP entry; stream 3 has one page for it; tile 63 waits on object `w`. -/
def tAttends (w : Nat) : State :=
  let p := tCode [[0x04000000]] [tAtt]
  let r := tRuns [{ tAt 0 with waitObj := some (w, 1) }] [tEntry false 2 0]
  let s := tGo { p with image := { p.image with entries := [{ kind := 0, start := [0] }, { kind := 1, start := [0] }] } }
    { r with frame := 3, streams := r.streams.map fun x => { x with pend := [{ layer := 0, j := 0, act := .fresh, slot := 0, page := 0, old := 0 }] } }
    [tHeld 0 0 0, tHeld 2 0 2]
  { s with gran := s.gran ++ [(32, { frame := 5, resident := true })] }

theorem witness_EngineEntries_query :
    (∃ s o, s = tAttends 6 ∧ s.onEntry 0 0 0 = some o ∧ s.portHeld o.src = false ∧
      (match o.query s with | some b => !o.lent b.a | none => false) = true) ∧
    (∃ s o, s = tAttends 5 ∧ s.onEntry 0 0 0 = some o ∧ s.portHeld o.src = false ∧
      (match o.query s with
        | some b => o.lent b.a && (match o.queryBlock ((o.lentTiles b.a).foldl (fun s t => s.startInstr t.phys) s) b with | .ok _ => true | .error _ => false)
        | none => false) = true) :=
  ⟨⟨_, _, rfl, rfl, by decide +kernel⟩, ⟨_, _, rfl, rfl, by decide +kernel⟩⟩

/-! ## Ingest -/

/-- Words from an address on, as bytes. -/
def tWords (a : Nat) (ws : List Nat) : List (Nat × Nat) :=
  ((List.range ws.length).zip ws).flatMap fun e => (List.range 4).filterMap fun j =>
    let b := e.2 / 256 ^ j % 256
    if b = 0 then none else some (a + 4 * e.1 + j, b)

/-- Scene 0 is open, device memory holds these words, scene 0 has this ingest context. -/
def tSee (ws : List (Nat × List Nat)) (x : Option Ingest := none) (free : Bool := false) : State :=
  { tOpened {} free with hbm := tBytes (ws.flatMap fun e => tWords e.1 e.2), ingest := match x with | some x => [(0, some x)] | none => [] }

/-- A camera's entry of the sensor table: 1 x 1 pixels at 512 of the slot; its KIND. -/
def tSensor (kind : Nat) : List Nat := [kind + 0x100, 512, 0, 0, 0, 0, 0, 0x10001] ++ List.replicate 24 0

/-- INGEST_OPEN of scene 0 with one sensor: slots of `slot` bytes, two of them, in the ring at 0x200000. -/
def tIngOpen (slot : Nat) (period : Nat := 1000000) : Cmd := tCmd 0x0500 [0, 1, 0, 0, period, 2, 0x200000, 0, slot, 2, 0, 0, 0x1000, 0]

/-- The context it opens, with a sensor of a KIND. -/
def tIngest (kind : Nat) (live : Bool := false) : Ingest :=
  { epoch := 0, period := 1000000, ringBase := 0x200000, ringSlots := 2, slotBytes := 4096, sensors := [Sensor.ofWords (tSensor kind)]
    poseBase := 0x1000, poseCount := 2, live := live, sealSync := 7 }

theorem witness_IngestWork_open :
    (∃ s c, c = tIngOpen 4096 999999 ∧ s = tWith c (tSee []) ∧ s.Begins 0 0x0500 c ∧ c.w 0x50 < 1000000) ∧
    (∃ s c r, c = tIngOpen 4096 ∧ s = tWith c (tSee []) ∧ s.Begins 0 0x0500 c ∧ s.rd (.dva (c.q 0x68)) (128 * c.f 0x44 5 0) = .ok r ∧
      (1000000 ≤ c.w 0x50 ∧ c.w 0x50 ≤ 1000000000 ∧ 2 ≤ c.f 0x54 12 0 ∧ c.f 0x54 12 0 ≤ 4096 ∧ c.w 0x60 % 4096 = 0 ∧ 1 ≤ c.f 0x44 5 0 ∧
        c.f 0x44 5 0 ≤ 32 ∧ 2 ≤ c.w 0x64 ∧ c.w 0x64 ≤ 1048576) ∧ sensorBad (wordsOf 32 (r.2.take 128)) = true) ∧
    (∃ s c r, c = tIngOpen 0 ∧ s = tWith c (tSee [(0, tSensor 1)]) ∧ s.Begins 0 0x0500 c ∧ s.rd (.dva (c.q 0x68)) (128 * c.f 0x44 5 0) = .ok r ∧
      sensorBad (wordsOf 32 (r.2.take 128)) = false ∧ sensorsClash (c.w 0x60) [Sensor.ofWords (wordsOf 32 (r.2.take 128))] = true) ∧
    (∃ s c r, c = tIngOpen 4096 ∧ s = tWith c (tSee [(0, tSensor 1)] (some (tIngest 1))) ∧ s.Begins 0 0x0500 c ∧
      s.rd (.dva (c.q 0x68)) (128 * c.f 0x44 5 0) = .ok r ∧ sensorBad (wordsOf 32 (r.2.take 128)) = false ∧
      sensorsClash (c.w 0x60) [Sensor.ofWords (wordsOf 32 (r.2.take 128))] = false ∧ (r.1.ing c.ingScene).isSome = true) ∧
    (∃ s c r, c = tIngOpen 4096 ∧ s = tWith c (tSee [(0, tSensor 1)] none true) ∧ s.Begins 0 0x0500 c ∧
      s.rd (.dva (c.q 0x68)) (128 * c.f 0x44 5 0) = .ok r ∧ sensorBad (wordsOf 32 (r.2.take 128)) = false ∧
      sensorsClash (c.w 0x60) [Sensor.ofWords (wordsOf 32 (r.2.take 128))] = false ∧ r.1.ing c.ingScene = none ∧ r.1.scene c.ingScene = none) ∧
    (∃ s c r, c = tIngOpen 4096 ∧ s = tWith c (tSee [(0, tSensor 1)]) ∧ s.Begins 0 0x0500 c ∧
      s.rd (.dva (c.q 0x68)) (128 * c.f 0x44 5 0) = .ok r ∧ sensorBad (wordsOf 32 (r.2.take 128)) = false ∧
      sensorsClash (c.w 0x60) [Sensor.ofWords (wordsOf 32 (r.2.take 128))] = false ∧ r.1.ing c.ingScene = none ∧ (r.1.scene c.ingScene).isSome = true) ∧
    (∃ s c, c = tCmd 0x0501 [] ∧ s = tWith c (tSee [] (some (tIngest 1))) ∧ s.Begins 0 0x0501 c) :=
  ⟨⟨_, _, rfl, rfl, begins_alone rfl (by decide +kernel), by decide +kernel⟩,
    ⟨_, _, _, rfl, rfl, begins_alone rfl (by decide +kernel), rfl, by decide +kernel, by decide +kernel⟩,
    ⟨_, _, _, rfl, rfl, begins_alone rfl (by decide +kernel), rfl, by decide +kernel⟩,
    ⟨_, _, _, rfl, rfl, begins_alone rfl (by decide +kernel), rfl, by decide +kernel⟩,
    ⟨_, _, _, rfl, rfl, begins_alone rfl (by decide +kernel), rfl, by decide +kernel⟩,
    ⟨_, _, _, rfl, rfl, begins_alone rfl (by decide +kernel), rfl, by decide +kernel⟩, ⟨_, _, rfl, rfl, begins_alone rfl (by decide +kernel)⟩⟩

theorem witness_IngestWork_begin : ∀ (op kind : Nat), (op, kind) ∈ [(0x0502, 1), (0x0503, 2), (0x0504, 3)] →
    (∃ s c, c = tCmd op [] ∧ s = tWith c (tSee [] (some (tIngest (kind % 3 + 1)))) ∧ s.Begins 0 op c ∧
      (∀ x sn, s.ing c.ingScene = some x → x.sensors[c.f 0x40 12 8]? = some sn → sn.kind ≠ kind)) ∧
    (∃ s c x sn, c = tCmd op [0, 0, 0, 0xFFFFFFFF, 1] ∧ s = tWith c (tSee [] (some (tIngest kind))) ∧ s.Begins 0 op c ∧ s.ing c.ingScene = some x ∧
      x.sensors[c.f 0x40 12 8]? = some sn ∧ sn.kind = kind ∧ dvaEnd < c.q 0x48 + c.q 0x50) ∧
    (∃ s c x sn, c = tCmd op [0, 0, 0, 0, 1] ∧ s = tWith c (tSee [] (some (tIngest kind))) ∧ s.Begins 0 op c ∧ s.ing c.ingScene = some x ∧
      x.sensors[c.f 0x40 12 8]? = some sn ∧ sn.kind = kind ∧ c.q 0x48 + c.q 0x50 ≤ dvaEnd ∧ 0 < c.q 0x50) := by
  intro op kind h
  simp only [List.mem_cons, Prod.mk.injEq, List.not_mem_nil, or_false] at h
  obtain ⟨rfl, rfl⟩ | ⟨rfl, rfl⟩ | ⟨rfl, rfl⟩ := h <;>
    exact ⟨⟨_, _, rfl, rfl, begins_alone rfl (by decide +kernel), fun x sn hx hs => by cases hx; cases hs; decide⟩,
      ⟨_, _, _, _, rfl, rfl, begins_alone rfl (by decide +kernel), rfl, rfl, by decide +kernel⟩,
      ⟨_, _, _, _, rfl, rfl, begins_alone rfl (by decide +kernel), rfl, rfl, by decide +kernel⟩⟩

theorem witness_IngestWork_seal :
    (∃ s c x, c = tCmd 0x0505 [] ∧ s = tWith c (tSee [] (some (tIngest 1))) ∧ s.Begins 0 0x0505 c ∧ s.ing c.ingScene = some x ∧ c.flag 0 = false ∧
      c.flag 1 = false) ∧
    (∃ s c x, c = { tCmd 0x0505 [] with flags := 2 } ∧ s = tWith c (tSee [] (some (tIngest 1))) ∧ s.Begins 0 0x0505 c ∧
      s.ing c.ingScene = some x ∧ c.flag 0 = false ∧ c.flag 1 = true) ∧
    (∃ s c x, c = { tCmd 0x0505 [] with flags := 1 } ∧ s = tWith c (tSee [] (some (tIngest 1 true))) ∧ s.Begins 0 0x0505 c ∧
      s.ing c.ingScene = some x ∧ c.flag 0 = true ∧ c.flag 1 = false ∧ x.live = true) ∧
    (∃ s c x, c = { tCmd 0x0505 [] with flags := 1 } ∧ s = tWith c (tSee [] (some (tIngest 1))) ∧ s.Begins 0 0x0505 c ∧
      s.ing c.ingScene = some x ∧ c.flag 0 = true ∧ c.flag 1 = false ∧ x.live = false ∧ (s.begin_ 0).ingestBefore c = false ∧
      isOk ((State.sealTo c.ingScene (c.q 0x48) (c.q 0x48 + 1 - x.sealedTo) (s.begin_ 0) x).bind fun r =>
        State.sealTo c.ingScene (c.q 0x48) (c.q 0x48 + 1 - r.2.sealedTo) r.1 r.2) = true) ∧
    (∃ s x, s = tSee [] (some (tIngest 1)) ∧ s.live = true ∧ s.ing 0 = some x ∧ x.live = false) ∧
    (∃ s x it, s = tSee [] (some (tIngest 1 true)) ∧ it = 10000000 ∧ s.live = true ∧ s.ing 0 = some x ∧ x.live = true ∧
      x.epoch + (x.sealedTo + 1) * x.period + (s.reg 0x300018).toNat ≤ max s.itNow (it % 2 ^ 64) ∧ isOk ((s.advance it).sealNext 0 x) = true) :=
  ⟨⟨_, _, _, rfl, rfl, begins_alone rfl (by decide +kernel), rfl, by decide +kernel⟩,
    ⟨_, _, _, rfl, rfl, begins_alone rfl (by decide +kernel), rfl, by decide +kernel⟩,
    ⟨_, _, _, rfl, rfl, begins_alone rfl (by decide +kernel), rfl, by decide +kernel⟩,
    ⟨_, _, _, rfl, rfl, begins_alone rfl (by decide +kernel), rfl, by decide +kernel⟩, ⟨_, _, rfl, by decide +kernel, rfl, rfl⟩,
    ⟨_, _, _, rfl, rfl, by decide +kernel, rfl, by decide +kernel⟩⟩

/-- A running ingest command at byte `off` of its range of `n` bytes at 0, its items as given, with its unit. -/
def tTakes (op unit kind off n : Nat) (items : List (List Nat)) (ws : List (Nat × List Nat) := []) : State :=
  let c := { tCmd op [0, 0, 0, 0, n] .running with begun := true, targets := [off], items := items }
  tUnits c [tHeld unit 0 0] (tSee ws (some (tIngest kind)))

theorem witness_IngestWork_frame : ∃ s c u x i sn, s = tTakes 0x0503 7 2 0 64 [[0]] ∧ s.ingWork 0 7 = some (c, u, x, i, sn) ∧
    isOk ((s.rdCells true (.dva (c.q 0x48 + c.targets.headD 0)) (min 8 (c.q 0x50 - c.targets.headD 0))).bind fun r =>
      r.1.takeFrameOf c x i sn ((c.items.getD c.total []).headD 0)
        ((some ({ codec := 3, profile := 0, level := 0, interlaced := false, layered := false, grain := false, entry := true, w := 1, h := 1, depth := 8, chroma := 1, luma := [128], cb := [128], cr := [128] } : Picture)).filter
          fun p => c.decodes p sn)) = true :=
  ⟨_, _, _, _, _, _, rfl, rfl, by decide +kernel⟩

/-- A packet of one invalid point, with its CRC-32C (computed from R10 outside the model). -/
def tPacket : List Nat := [0x31534356, 0x10000, 0, 0, 0, 0xB01B19E9, 0, 0, 0, 0, 0, 0x01000000]

theorem witness_IngestWork_packet :
    (∃ s c u x i sn, s = tTakes 0x0504 8 3 64 64 [] ∧ s.ingWork 0 8 = some (c, u, x, i, sn) ∧ c.q 0x50 < c.targets.headD 0 + 32) ∧
    (∃ s c u x i sn h body poses, s = tTakes 0x0504 8 3 0 64 [] [(0, tPacket)] ∧ s.ingWork 0 8 = some (c, u, x, i, sn) ∧
      c.targets.headD 0 + 32 + 16 * cU h.2 6 2 ≤ c.q 0x50 ∧ 1 ≤ cU h.2 6 2 ∧ cU h.2 6 2 ≤ 4096 ∧
      s.rdCells true (.dva (c.q 0x48 + c.targets.headD 0)) 32 = .ok h ∧
      h.1.rd (.dva (c.q 0x48 + c.targets.headD 0 + 32)) (16 * cU h.2 6 2) = .ok body ∧ cW h.2 0 = 0x31534356 ∧ cU h.2 4 2 = i ∧
      cW h.2 0x14 = crc32c body.2 ∧ body.1.rdCells true (.dva x.poseBase) (48 * x.poseCount) = .ok poses ∧
      isOk (foldE (fun (s : State) p => s.takePoint c i sn poses.2 p) poses.1
        ((List.range (cU h.2 6 2)).map fun j => ScanPt.ofWords (cU h.2 8 8) (wordsOf 4 ((body.2.drop (16 * j)).take 16)))) = true) := by
  refine ⟨⟨_, _, _, _, _, _, rfl, rfl, by decide +kernel⟩, ⟨_, _, _, _, _, _, _, _, _, rfl, rfl, ?_, ?_, ?_, rfl, rfl, ?_, ?_, ?_, rfl, ?_⟩⟩
  all_goals decide +kernel

/-! ## Retouch -/

/-- A dense 1 x 1 block of binary32 whose update program is entry 0, at address 0: its words 0 to 15; `fl`: its flags. -/
def tDesc (fl : Nat := 0) : List Nat := [1 + fl * 0x10000, 0, 0x10001, 0, 1, 1, 64, 0, 0x400, 0, 0, 0, 0, 0, 0x600, 0]

/-- A PRECOND block of 64 x 64 with p = 2 and 2 iterations; `fl`: its other flags. -/
def tRoot (fl : Nat := 0) : List Nat := [1 + (4 + fl) * 0x10000, 0, 0x10001, 0x02020000, 64, 64, 256, 0, 0x8000, 0, 0, 0, 0, 0, 0x10000, 0, 0, 0, 0, 0, 0, 0, 0, 0,
  0x40000, 0, 0, 0, 0, 1]

/-- A running UPDATE (or refresh) of program 0: STEP, list and scalars in host memory; its work and unit. -/
def tRtc (op step : Nat) (w : RtcWork) (desc : List Nat) (claims : List (Nat × Nat) := [(0, 0)]) (fl : Nat := 0) (marks : Nat := 0) : State :=
  let c := { tCmd op [0, 0, step, 0, 0x1000, 0x80000000, if op = 0x0401 then 0x100000 else 0, if op = 0x0401 then 0 else 0x80000000, 32768, 0] .running with
    begun := true, flags := fl, rtc := some w }
  let s := tUnits c [tHeld 5 0 1] (tSee [(0, desc), (0xE0, [marks])])
  { s with claims := claims, progs := [(0, { prog := some (tCode [] [[4, 0, 0xFFFF]]) })] }

/-- Its one block. -/
def tBlock (desc : List Nat := []) : BlockRun := { idx := 0, addr := 0, desc := desc ++ List.replicate (if desc.isEmpty then 0 else 64 - desc.length) 0 }

/-- A claim table full of other claims. -/
theorem tFull (n : Nat) : n ≤ (List.replicate n ((1 : Nat), (1 : Nat))).length ∧ ((0 : Nat), (0 : Nat)) ∉ List.replicate n ((1 : Nat), (1 : Nat)) := by
  constructor <;> simp

theorem witness_RetouchWork_begin :
    (∃ s c, c = { tCmd 0x0400 [] with items := [[0]] } ∧ s = tWith c (tSee []) ∧ s.Begins 0 0x0400 c) ∧
    (∃ s c, c = { tCmd 0x0401 [] with items := [[0]] } ∧ s = tWith c (tSee []) ∧ s.Begins 0 0x0401 c) ∧
    (∃ s c w, w = { blocks := [tBlock] } ∧ s = tRtc 0x0400 1 w (tDesc) [(0, 1)] ∧ s.rtcWork 0 0x0400 = some (c, w) ∧ s.rtcInst 0 = some 1 ∧
      w.claimed = false ∧ s.claimedElse 0 0 = true ∧ s.claims.length + (w.blocks.map (·.addr)).length ≤ 16384 ∧ (0, 0) ∉ s.claims) ∧
    (∃ s c w, w = { blocks := [tBlock] } ∧ s = tRtc 0x0400 1 w (tDesc) [] ∧ s.rtcWork 0 0x0400 = some (c, w) ∧ s.rtcInst 0 = some 1 ∧
      w.claimed = false ∧ (∀ a ∈ w.blocks.map (·.addr), s.claimedElse 0 a = false) ∧ s.claims.length + (w.blocks.map (·.addr)).length ≤ 16384) ∧
    (∃ s c w, w = { blocks := [tBlock] } ∧ s = tRtc 0x0400 1 w (tDesc) (List.replicate 16384 (1, 1)) ∧ s.rtcWork 0 0x0400 = some (c, w) ∧
      s.rtcInst 0 = some 1 ∧ w.claimed = false ∧ 16384 ≤ s.claims.length ∧ (0, 0) ∉ s.claims) :=
  ⟨⟨_, _, rfl, rfl, begins_alone rfl (by decide +kernel)⟩, ⟨_, _, rfl, rfl, begins_alone rfl (by decide +kernel)⟩,
    ⟨_, _, _, rfl, rfl, rfl, by decide +kernel⟩, ⟨_, _, _, rfl, rfl, rfl, by decide +kernel⟩,
    ⟨_, _, _, rfl, rfl, rfl, rfl, rfl, (tFull 16384).1, (tFull 16384).2⟩⟩

/-- An UPDATE with its claims, not yet checked. -/
def tClaimed : RtcWork := { blocks := [tBlock], claimed := true }

/-- A lone running command has begun. -/
theorem begun_alone {s : State} {c : Cmd} {tok op : Nat} (h : s.cmds = [c]) (hb : (c.phase == .running && c.begun) = true) : s.mayBegin tok op = none := by
  simp only [Bool.and_eq_true, beq_iff_eq] at hb
  simp [State.mayBegin, State.unbegun, h, hb.1, hb.2, State.firstFree]

theorem witness_RetouchWork_check :
    (∃ s c, s = tRtc 0x0400 0 tClaimed tDesc ∧ s.rtcWork 0 0x0400 = some (c, tClaimed) ∧ s.rtcInst 0 = some 1 ∧ s.mayBegin 0 0x0400 = none ∧
      c.q 0x48 = 0) ∧
    (∃ s c, s = { tRtc 0x0400 1 tClaimed tDesc with progs := [] } ∧ s.rtcWork 0 0x0400 = some (c, tClaimed) ∧ s.rtcInst 0 = some 1 ∧
      s.mayBegin 0 0x0400 = none ∧ c.q 0x48 ≠ 0 ∧ s.programFor c (c.f 0x40 15 0) = none) ∧
    (∃ s c p, c = { tCmd 0x0400 [0, 0, 1, 0, 0x1000, 0x80000000, 0, 0x7FFFFFFF] .running with begun := true, rtc := some tClaimed } ∧
      s = { tRtc 0x0400 1 tClaimed tDesc with cmds := [c] } ∧ s.rtcWork 0 0x0400 = some (c, tClaimed) ∧ s.rtcInst 0 = some 1 ∧
      s.mayBegin 0 0x0400 = none ∧ c.q 0x48 ≠ 0 ∧ s.programFor c (c.f 0x40 15 0) = some p ∧ ∃ e, s.rd (locH (c.q 0x58)) 112 = .error e ∧
      (match e with | .err st d => ((s.noteRead c (srcUnit 5 1) st d).cmd 0 == some c) | _ => false) = true) ∧
    (∃ s c p r q, s = tRtc 0x0400 1 tClaimed tDesc ∧ s.rtcWork 0 0x0400 = some (c, tClaimed) ∧ s.rtcInst 0 = some 1 ∧ s.mayBegin 0 0x0400 = none ∧
      c.q 0x48 ≠ 0 ∧ s.program (c.f 0x40 15 0) = some p ∧ s.rd (locH (c.q 0x58)) 112 = .ok r ∧ r.1.readDesc 0 = .ok q ∧
      (State.checkBlocks p (c.q 0x48) (c.flag 0) q.1 [] [{ tBlock with desc := q.2 }]).2.isNone = true) ∧
    (∃ s c p r q, s = tRtc 0x0400 2 tClaimed tDesc ∧ s.rtcWork 0 0x0400 = some (c, tClaimed) ∧ s.rtcInst 0 = some 1 ∧ s.mayBegin 0 0x0400 = none ∧
      c.q 0x48 ≠ 0 ∧ s.program (c.f 0x40 15 0) = some p ∧ s.rd (locH (c.q 0x58)) 112 = .ok r ∧ r.1.readDesc 0 = .ok q ∧
      (let k := State.checkBlocks p (c.q 0x48) (c.flag 0) q.1 [] [{ tBlock with desc := q.2 }]
       (match k.2 with | some (.ok st, _) => st == 0x3002 | _ => false) && k.1.cmd 0 == some c) = true) ∧
    (∃ s c p r q, s = tRtc 0x0400 2 tClaimed [] ∧ s.rtcWork 0 0x0400 = some (c, tClaimed) ∧ s.rtcInst 0 = some 1 ∧ s.mayBegin 0 0x0400 = none ∧
      c.q 0x48 ≠ 0 ∧ s.program (c.f 0x40 15 0) = some p ∧ s.rd (locH (c.q 0x58)) 112 = .ok r ∧ r.1.readDesc 0 = .ok q ∧
      (let k := State.checkBlocks p (c.q 0x48) (c.flag 0) q.1 [] [{ tBlock with desc := q.2 }]
       (match k.2 with | some (.ok st, _) => st == 0x3003 | _ => false) && k.1.cmd 0 == some c) = true) := by
  refine ⟨⟨_, _, rfl, rfl, rfl, begun_alone rfl rfl, by decide +kernel⟩, ⟨_, _, rfl, rfl, rfl, begun_alone rfl rfl, by decide +kernel⟩,
    ⟨_, _, _, rfl, rfl, rfl, rfl, begun_alone rfl rfl, ?_, rfl, err_and ?_⟩, ⟨_, _, _, _, _, rfl, rfl, rfl, begun_alone rfl rfl, ?_, rfl, rfl, rfl, ?_⟩,
    ⟨_, _, _, _, _, rfl, rfl, rfl, begun_alone rfl rfl, ?_, rfl, rfl, rfl, ?_⟩, ⟨_, _, _, _, _, rfl, rfl, rfl, begun_alone rfl rfl, ?_, rfl, rfl, rfl, ?_⟩⟩
  all_goals decide +kernel

/-- A checked UPDATE of this block. -/
def tChecked (d : List Nat) : RtcWork := { blocks := [tBlock d], claimed := true, checked := true, scalars := List.replicate 28 0 }

theorem witness_RetouchWork_chunk :
    (∃ s c x u p, s = tRtc 0x0400 1 (tChecked (tDesc 1)) (tDesc 1) ∧ s.rtcWork 0 0x0400 = some (c, tChecked (tDesc 1)) ∧
      (tChecked (tDesc 1)).blocks.find? (fun y => y.idx == 0) = some x ∧ x.status = none ∧ s.blockUnit 0 (tChecked (tDesc 1)) x = some u ∧
      s.program (c.f 0x40 15 0) = some p ∧ s.portHeld (srcUnit 5 u.inst) = false ∧ dFlag x.desc 16 = true ∧
      isOk ((s.updBlock 0 0 fun _ => { x with started := true, unit := u.entry }).consumeFrozen c { x with started := true, unit := u.entry } u.inst) =
        true) ∧
    (∃ s c x u p, s = tRtc 0x0400 1 (tChecked tDesc) tDesc ∧ s.rtcWork 0 0x0400 = some (c, tChecked tDesc) ∧
      (tChecked tDesc).blocks.find? (fun y => y.idx == 0) = some x ∧ x.status = none ∧ s.blockUnit 0 (tChecked tDesc) x = some u ∧
      s.program (c.f 0x40 15 0) = some p ∧ s.portHeld (srcUnit 5 u.inst) = false ∧ dFlag x.desc 16 = false ∧
      dRows x.desc * dCols x.desc ≤ x.next + (elemsOf x.desc x.next).length ∧
      isOk (((s.updBlock 0 0 fun _ => { x with started := true, unit := u.entry }).evalCoef x.desc (c.q 0x48)
        { x with started := true, unit := u.entry }).bind fun k => (k.1.runChunk c (tChecked tDesc) p k.2).bind fun r =>
          r.1.commitBlock c k.2 u.inst) = true) := by
  refine ⟨⟨_, _, _, _, _, rfl, rfl, rfl, rfl, rfl, rfl, ?_⟩, ⟨_, _, _, _, _, rfl, rfl, rfl, rfl, rfl, rfl, ?_⟩⟩
  all_goals decide +kernel

/-- A refresh with its one block in a stage. -/
def tRef (g : RefreshStage) (d : List Nat := tRoot) (x : List Nat := []) (it mat : Nat := 0) : RtcWork :=
  { blocks := [tBlock d], stage := g, x := x, m := x, it := it, mat := mat }

theorem witness_RetouchWork_refresh :
    (∃ s c b, s = tRtc 0x0401 0 (tRef .check) tDesc ∧ s.rtcWork 0 0x0401 = some (c, tRef .check) ∧ s.rtcWork 0 0x0400 = none ∧ s.rtcInst 0 = some 1 ∧
      (tRef .check).blocks[(tRef .check).cur]? = some b ∧ s.mayBegin 0 0x0401 = none ∧ ∃ r, s.readDesc b.addr = .ok r ∧ (!dFlag r.2 18) = true) ∧
    (∃ s c b, s = tRtc 0x0401 0 (tRef .check) tRoot ∧ s.rtcWork 0 0x0401 = some (c, tRef .check) ∧ s.rtcWork 0 0x0400 = none ∧ s.rtcInst 0 = some 1 ∧
      (tRef .check).blocks[(tRef .check).cur]? = some b ∧ s.mayBegin 0 0x0401 = none ∧ c.flag 0 = false ∧ ∃ r, s.readDesc b.addr = .ok r ∧
      (dFlag r.2 18 && !dMark r.2 0 && !dFlag r.2 16 && decide (32768 * dNb r.2 ≤ c.q 0x60) &&
        (match r.1.descInvalid none b.addr r.2 with | .ok v => !v.2 | .error _ => false)) = true) ∧
    (∃ s c b, s = tRtc 0x0401 0 (tRef .snap) tDesc ∧ s.rtcWork 0 0x0401 = some (c, tRef .snap) ∧ s.rtcWork 0 0x0400 = none ∧ s.rtcInst 0 = some 1 ∧
      (tRef .snap).blocks[(tRef .snap).cur]? = some b ∧ s.mayBegin 0 0x0401 = none ∧ isOk (s.refreshSnap c b) = true) ∧
    (∀ g, g = .claimSnap ∨ g = .claimFlip → ∃ s c b, s = tRtc 0x0401 0 (tRef g) tRoot [] ∧ s.rtcWork 0 0x0401 = some (c, tRef g) ∧
      s.rtcWork 0 0x0400 = none ∧ s.rtcInst 0 = some 1 ∧ (tRef g).blocks[(tRef g).cur]? = some b ∧ s.mayBegin 0 0x0401 = none ∧
      s.claimedElse 0 b.addr = false ∧ (b.addr, 0) ∉ s.claims ∧ s.claims.length + 1 ≤ 16384 ∧ s.refreshing 0 b.addr = false) ∧
    (∃ s c b w, w = tRef .compute tRoot [0] ∧ s = tRtc 0x0401 0 w tRoot [] ∧ s.rtcWork 0 0x0401 = some (c, w) ∧ s.rtcWork 0 0x0400 = none ∧
      s.rtcInst 0 = some 1 ∧ w.blocks[w.cur]? = some b ∧ s.mayBegin 0 0x0401 = none ∧ w.x ≠ [] ∧ w.it + 1 < eF b.desc 0xC 23 16) ∧
    (∃ s c b, s = tRtc 0x0401 0 (tRef .flip) tRoot [(0, 0)] 0 1 ∧ s.rtcWork 0 0x0401 = some (c, tRef .flip) ∧ s.rtcWork 0 0x0400 = none ∧
      s.rtcInst 0 = some 1 ∧ (tRef .flip).blocks[(tRef .flip).cur]? = some b ∧ s.mayBegin 0 0x0401 = none ∧ ∃ r, s.readDesc b.addr = .ok r ∧
      dMark r.2 0 = true) ∧
    (∃ s c b, s = tRtc 0x0401 0 (tRef .flip) (tRoot 1) ∧ s.rtcWork 0 0x0401 = some (c, tRef .flip) ∧ s.rtcWork 0 0x0400 = none ∧
      s.rtcInst 0 = some 1 ∧ (tRef .flip).blocks[(tRef .flip).cur]? = some b ∧ s.mayBegin 0 0x0401 = none ∧ ∃ r, s.readDesc b.addr = .ok r ∧
      (!dMark r.2 0 && dFlag r.2 16) = true) ∧
    (∃ s c b, s = tRtc 0x0401 0 (tRef .flip) tRoot ∧ s.rtcWork 0 0x0401 = some (c, tRef .flip) ∧ s.rtcWork 0 0x0400 = none ∧
      s.rtcInst 0 = some 1 ∧ (tRef .flip).blocks[(tRef .flip).cur]? = some b ∧ s.mayBegin 0 0x0401 = none ∧ ∃ r, s.readDesc b.addr = .ok r ∧
      (!dMark r.2 0 && !dFlag r.2 16 && isOk (r.1.wr (.dva (b.addr + 0xC0)) (descLine (eQ r.2 0xC0) 0 (eQ r.2 0xD0) (eQ r.2 0xD8)
        (marksOf false true (!dMark r.2 2) (dueAt r.2 true 0 (eQ r.2 0xC0)))))) = true) := by
  refine ⟨⟨_, _, _, rfl, rfl, rfl, rfl, rfl, begun_alone rfl rfl, ok_and ?_⟩, ⟨_, _, _, rfl, rfl, rfl, rfl, rfl, begun_alone rfl rfl, rfl, ok_and ?_⟩,
    ⟨_, _, _, rfl, rfl, rfl, rfl, rfl, begun_alone rfl rfl, ?_⟩, ?_,
    ⟨_, _, _, _, rfl, rfl, rfl, rfl, rfl, rfl, begun_alone rfl rfl, ?_⟩, ⟨_, _, _, rfl, rfl, rfl, rfl, rfl, begun_alone rfl rfl, ok_and ?_⟩,
    ⟨_, _, _, rfl, rfl, rfl, rfl, rfl, begun_alone rfl rfl, ok_and ?_⟩, ⟨_, _, _, rfl, rfl, rfl, rfl, rfl, begun_alone rfl rfl, ok_and ?_⟩⟩
  case refine_4 =>
    rintro g (rfl | rfl) <;> exact ⟨_, _, _, rfl, rfl, rfl, rfl, rfl, begun_alone rfl rfl, by decide +kernel⟩
  all_goals decide +kernel

/-- What a matrix store needs is the matrix's length alone: a root's end on the second root of a sub-block. -/
theorem newton_length (p : Nat) (x m : Mat) : (newton p x m).1.length = 4096 := by
  rw [newton, matMul, matOf, List.length_map, List.length_range]

theorem leBytes_length : ∀ n v, (leBytes n v).length = n
  | 0, _ => rfl
  | n + 1, v => by rw [leBytes, List.length_cons, leBytes_length n]

theorem matBytes_length : ∀ (x : Mat), (x.flatMap fun v => leBytes 4 (enc32 v)).length = 4 * x.length
  | [] => rfl
  | v :: x => by rw [List.flatMap_cons, List.length_append, leBytes_length, matBytes_length x, List.length_cons]; omega

/-- The state and the work of the witness below. -/
def tNewton : RtcWork := tRef .compute tRoot [0] 1 1
def tNewtonAt : State := tRtc 0x0401 0 tNewton tRoot []

theorem tNewton_ends (c : Cmd) (x m : Mat) (hx : x.length = 4096) : ∃ u, tNewtonAt.endRoot c tNewton (tBlock tRoot) 1 x m = .ok u := by
  have h0 : dMark (tBlock tRoot).desc 2 = false := by decide +kernel
  have h1 : factorAt (tBlock tRoot).desc 0 5 = 0x54000 := by decide +kernel
  have h2 : granulesOf 0x54000 16384 = [0] := by decide +kernel
  have h3 : ∃ t, tNewtonAt.ensureAll [0] = .ok t := ⟨_, rfl⟩
  have h4 : dNb (tBlock tRoot).desc = 1 := by decide +kernel
  obtain ⟨t, ht⟩ := h3
  have hw : tNewtonAt.writeMat 0x54000 x = .ok ([0].foldl (fun s g => s.storePart 0x54000 16384 (cellsOf (x.flatMap fun v => leBytes 4 (enc32 v))) g) t) := by
    rw [State.writeMat, State.wr, State.storeBytes, State.store, matBytes_length, hx, State.dvaStore, if_neg (by decide), if_neg (by decide), h2, ht]
    rfl
  unfold State.endRoot
  simp only [h0, h4, show tNewton.sub = 0 from rfl, show tNewton.mat = 1 from rfl, Bool.false_eq_true, if_false, Nat.reduceAdd, h1, hw, bind,
    Except.bind]
  split
  · exact ⟨_, rfl⟩
  · split <;> exact ⟨_, rfl⟩

theorem witness_RetouchWork_root : ∃ s c b w u, w = tNewton ∧ s = tNewtonAt ∧ s.rtcWork 0 0x0401 = some (c, w) ∧
    s.rtcWork 0 0x0400 = none ∧ s.rtcInst 0 = some 1 ∧ w.blocks[w.cur]? = some b ∧ s.mayBegin 0 0x0401 = none ∧ w.x ≠ [] ∧
    eF b.desc 0xC 23 16 ≤ w.it + 1 ∧
    s.endRoot c w b 1 (newton (eF b.desc 0xC 27 24) (w.x.map dec32) (w.m.map dec32)).1 (newton (eF b.desc 0xC 27 24) (w.x.map dec32) (w.m.map dec32)).2 =
      .ok u := by
  obtain ⟨u, hu⟩ := tNewton_ends ((tNewtonAt.rtcWork 0 0x0401).get rfl).1 _ _ (newton_length (eF (tBlock tRoot).desc 0xC 27 24) (tNewton.x.map dec32) (tNewton.m.map dec32))
  exact ⟨_, _, _, _, u, rfl, rfl, rfl, rfl, rfl, rfl, begun_alone rfl rfl, by decide, by decide +kernel, hu⟩

/-! ## The spec's worked examples -/

/-- The sixteen values of the conversion example (03, after R92). -/
def tSrc : List Val := [0x40A66666, 0xBEBD70A4, 0x41500000, 0x0, 0x40300000, 0xC0E33333, 0x3F828F5C, 0x40533333, 0x3F19999A, 0xBE4CCCCD, 0x41066666, 0x40900000, 0xBFA00000, 0x3F666666, 0x40C33333, 0xC0400000].map dec32

/-- FLOOR: codes, scale code, one saturated element (03, after R92). -/
theorem test_s4_floor : convRow { fmt := .s4, sat := true, ceil := false, block := 16, rnd := 1 } tSrc (allRne tSrc) =
    ([5, 0, 7, 0, 3, 0xE, 1, 3, 1, 0, 6, 4, 9, 1, 5, 0xB], [0x80], 1) := by decide +kernel

/-- CEIL: codes and scale code; no element saturates (03, after R92). -/
theorem test_s4_ceil : convRow { fmt := .s4, sat := true, ceil := true, block := 16, rnd := 1 } tSrc (allRne tSrc) =
    ([3, 0, 5, 0, 1, 0xC, 1, 2, 0, 0, 4, 2, 9, 0, 3, 0xA], [0x81], 0) := by decide +kernel

/-- The element plane bytes of the FLOOR block (03, R78). -/
theorem test_s4_pack : pack .s4 [5, 0, 7, 0, 3, 0xE, 1, 3, 1, 0, 6, 4, 9, 1, 5, 0xB] = [0x05, 0x07, 0xE3, 0x31, 0x01, 0x46, 0x19, 0xB5] := by
  decide +kernel

/-- The block's contribution against S8 halves is 16.5 (03, after R85). -/
theorem test_dot : enc32 (dot .s4 .s8 16 Val.zero { elems := [5, 0, 7, 0, 3, 0xE, 1, 3, 1, 0, 6, 4, 9, 1, 5, 0xB], scales := [0x80] }
    { elems := List.replicate 16 0x30, scales := [0x7F] }) = 0x41840000 := by decide +kernel

/-- 1 + 5 * 2^-10 into L16 in each mode (03, after R96). -/
theorem test_l16_modes : ([RMode.rne, .rtz, .stoch 24576, .stoch 24575].map fun m => (convPlain .l16 false m (.fin false 1029 (-10))).code) =
    [0x3F81, 0x3F80, 0x3F81, 0x3F80] := by decide +kernel

/-- Byte 0x1_2400 of frame 6 lies at target 210; mapped out, at target 64 (11, after R332 and R335). -/
theorem test_hbm_target : hbmTarget [] (6 * 0x200000 + 0x12400) = 210 ∧ hbmTarget [210] (6 * 0x200000 + 0x12400) = 64 := by decide +kernel

/-- The scan with a reset mark at position 3 (06, after R193). -/
theorem test_scan_mark :
    let g := GlazeE.ofWords ([1 + 256 + 0x830000, 1, 0, 0, 0, 0, 0, 0, 1, 0x10001] ++ List.replicate 54 0)
    let a : GlazeAt := { g := g, st := { listIdx := 0, stream := 3, p0 := 0, inOff := 0, outOff := 0, passed := true, pend := [], status := 0, committed := false }
                         n := 0, sc := tScene, q := 8, k := 0 }
    ((a.scanAll ((List.range 8).map fun i => { x := [Val.ofNat 1], a := [.fin false 1 (-1)], b := [Val.ofNat 1], c := [Val.ofNat 1], mark := i == 3 })
      [Val.ofNat 4]).1.flatMap id).map enc32 = [0x40400000, 0x40200000, 0x40100000, 0x3F800000, 0x3FC00000, 0x3FE00000, 0x3FF00000, 0x3FF80000] := by
  decide +kernel

/-- The angle of frame 1,823 of a scene of 256 positions a frame (07, after R221). -/
theorem test_angle : ({ AttE.ofWords (List.replicate 64 0) with pf := 1 } : AttE).angle { tScene with rows := 16, cols := 16 } [18446744073709551] 466943 0 =
    some 0xD2B020 := by decide +kernel

/-- Ring slots of the crossing-survey scene and of RW-2 (07, R217). -/
theorem test_ring_slots : ringSlots 5 96 = 9 ∧ ringSlots 16 256 = 64 := by decide +kernel

/-- The fields of instruction 4 of the Adam program (10). -/
theorem test_update_word : UpdI.ofWords (0x10000000, 0x14100250) = { op := 0x14, dst := 1, a := 0, b := 0x25, c := 1, resv := 0 } := by decide +kernel

/-- The Adam step of element 0: both slots exactly, the master to the seven digits given, 0.9971437 (10). -/
theorem test_adam :
    let is : List UpdI := [(1, 0, 0, 0, 0), (18, 0, 0, 39, 0), (3, 1, 0, 0, 0), (18, 1, 1, 33, 0), (20, 1, 0, 37, 1), (6, 0, 1, 0, 0), (3, 2, 1, 0, 0), (18, 2, 2, 34, 0), (18, 3, 0, 0, 0), (20, 2, 3, 38, 2), (6, 1, 2, 0, 0), (28, 4, 33, 0, 0), (19, 1, 1, 4, 0), (28, 5, 34, 0, 0), (19, 2, 2, 5, 0), (21, 2, 2, 0, 0), (16, 2, 2, 35, 0), (19, 1, 1, 2, 0), (2, 6, 0, 0, 0), (20, 1, 6, 36, 1), (18, 1, 1, 32, 0), (17, 6, 6, 1, 0), (5, 0, 6, 0, 0), (0, 0, 0, 0, 0)].map fun e => { op := e.1, dst := e.2.1, a := e.2.2.1, b := e.2.2.2.1, c := e.2.2.2.2, resv := 0 }
    let x : ElemIn := { g := .fin false 1 (-1), w := Val.ofNat 1, pg := .fin false 1 (-1), slots := [.fin false 1 (-2), .fin false 1 (-4)]
                        scalars := [.fin false 1 (-8), .fin false 7 (-3), .fin false 63 (-6), .fin false 1 (-20), .fin false 1 (-6), .fin false 1 (-3),
                                    .fin false 1 (-6), Val.ofNat 1], n := 3 }
    let o := x.run is {}
    ((SMap.get (fun _ => none) o.slots 0).map enc32 == some 0x3E900000 && (SMap.get (fun _ => none) o.slots 1).map enc32 == some 0x3D860000 &&
      o.w.any fun v => decide (0x3F7F44CE ≤ enc32 v) && decide (enc32 v ≤ 0x3F7F44D0)) = true := by decide +kernel

/-- The crop's samples along x: the pixel before each and its weight (08, after R268). -/
theorem test_crop_axis :
    ((List.range 4).map fun i => let a := cropAxis false 25 4 (Val.ofNat 20) (Val.ofNat 26) i; (a.p, enc32 a.w)) =
      [(some 20, 0x3E800000), (some 21, 0x3F400000), (some 23, 0x3E800000), (some 24, 0x3F400000)] := by decide +kernel

/-- The six groups of the placement example with tile 37 retired (05): G3 on 40 to 47, G4 on 32 to 35, G5 on 36, 38 and 39. -/
theorem test_placement :
    let grp : List (Nat × Nat) := [(4, 4), (4, 4), (4, 4), (2, 4), (1, 4), (1, 3)]
    let im : Image := { groups := grp.map fun g => { rows := g.1, cols := g.2, sharedBytes := 0 }
                        ltiles := ((List.range 6).zip grp).flatMap fun g => (List.range (g.2.1 * g.2.2)).map fun k =>
                          { group := g.1, y := k / g.2.2, x := k % g.2.2, palBytes := 64, codeFirst := 0, codeCount := 1 } }
    (match ({ State.reset with tiles := [(37, { st := .retired, retireFuse := true })] } : State).place im false with
      | .ok w => w.map == List.range 32 ++ (List.range 16).map (· + 48) ++ (List.range 8).map (· + 40) ++ [32, 33, 34, 35, 36, 38, 39]
      | .error _ => false) = true := by decide +kernel

/-- The check values of "123456789" (15, R481). -/
def tDigits : List Byte := [49, 50, 51, 52, 53, 54, 55, 56, 57].map (BitVec.ofNat 8)
theorem test_crc32c : crc32c tDigits = 0xE3069283 := by decide +kernel
theorem test_crc64 : crc64 tDigits = 0x6C40DF5F0B497347 := by decide +kernel
theorem test_crc16 : crc16 tDigits = 0x29B1 := by decide +kernel

/-! ## The life cycle's accepted request -/

/-- A request from BLANK to ISSUED for module 1 with a nonce of 0. -/
def tIssue : State := tRegs [(0x1100, 0x5251434C), (0x1104, 0x0301), (0x1110, 1), (0x1120, 1)]

/-- Whether a signature verifies and what the nonce is are free values: where they suit, the request of `tIssue` is accepted. -/
theorem witness_LifeCycleRequest_accepted (hn : Config.freshNonce tIssue.nonceCtr = 0) (hs : ∀ k m g, Config.sigValid k m g = true) :
    tIssue.accepts 0x1010 = true ∧ ∃ m, tIssue.lcCheck = .ok m := by
  refine ⟨by decide +kernel, ?_⟩
  have h1 : leNat ((tIssue.lcReq.drop 0).take 4) = 0x5251434C ∧ leNat ((tIssue.lcReq.drop 6).take 2) = 0 ∧
      leNat ((tIssue.lcReq.drop 0x18).take 8) = 0 ∧ leNat ((tIssue.lcReq.drop 0x10).take 8) = tIssue.silicon.uid := by decide +kernel
  have h2 : leNat ((tIssue.lcReq.drop 8).take 8) = 0 := by decide +kernel
  have h3 : LcState.ofCode (leNat ((tIssue.lcReq.drop 4).take 1)) = some .issued := by decide +kernel
  have h4 : (tIssue.lcTable .issued (leNat ((tIssue.lcReq.drop 5).take 1)) ((tIssue.lcReq.drop 0x20).take 32)).isSome = true := by decide +kernel
  obtain ⟨p, hp⟩ := Option.isSome_iff_exists.1 h4
  unfold State.lcCheck
  simp only [h1, h2, h3, hp, hn, hs]
  exact ⟨_, rfl⟩
end Sys2Proof.Machine
end

section
/-! SUPPORT. Scenes and streams (01 R12-R14, R25, R26, R43, R44): what each command that opens, parks or closes one does as it begins, and the
statements O52 to O54 settled. -/

namespace Sys2Proof.Machine

/-! ## Tables -/

/-- A key that does not read as the default is listed with the value it reads as. -/
theorem SMap.mem_of_get_ne {α : Type} {d : Nat → α} {k : Nat} : ∀ {m : SMap α}, SMap.get d m k ≠ d k → (k, SMap.get d m k) ∈ m
  | [], h => absurd rfl h
  | (j, w) :: m, h => by
    by_cases hj : j = k
    · simp [SMap.get, hj]
    · simp only [SMap.get, hj, if_false] at h ⊢
      exact List.mem_cons_of_mem _ (SMap.mem_of_get_ne h)

@[simp] theorem State.strm_setStrm_self (s : State) (i : Nat) (x : Stream) : (s.setStrm i x).strm i = x := SMap.get_set_self

theorem State.strm_setStrm_ne (s : State) {i k : Nat} (x : Stream) (h : k ≠ i) : (s.setStrm i x).strm k = s.strm k := SMap.get_set_ne h

@[simp] theorem State.strm_updStrm_self (s : State) (i : Nat) (f : Stream → Stream) :
    (s.updStrm i f).strm i = { f (s.strm i) with commitSeq := ((s.strm i).commitSeq + 1) % 256 } := State.strm_setStrm_self ..

theorem State.strm_updStrm_ne (s : State) {i k : Nat} (f : Stream → Stream) (h : k ≠ i) : (s.updStrm i f).strm k = s.strm k :=
  State.strm_setStrm_ne s _ h

@[simp] theorem State.scene_setScene_self (s : State) (i : Nat) (x : Option Scene) : (s.setScene i x).scene i = x := SMap.get_set_self

theorem State.scene_setScene_ne (s : State) {i k : Nat} (x : Option Scene) (h : k ≠ i) : (s.setScene i x).scene k = s.scene k :=
  SMap.get_set_ne h

/-- A stream that is not FREE is listed in the stream table. -/
theorem State.strm_mem_of_ne_free {s : State} {k : Nat} (h : (s.strm k).st ≠ .free) : (k, s.strm k) ∈ s.streams :=
  SMap.mem_of_get_ne fun he => h (congrArg Stream.st he)

/-- A stream with a parent is listed in the stream table. -/
theorem State.strm_mem_of_hasParent {s : State} {k : Nat} (h : (s.strm k).hasParent = true) : (k, s.strm k) ∈ s.streams :=
  SMap.mem_of_get_ne fun he => by simp [State.strm, he] at h

/-- A scene that holds a stream has a state slot in use. -/
theorem State.slotsUsed_ne_nil {s : State} {k sc : Nat} (h : (s.strm k).st ≠ .free) (hsc : (s.strm k).scene = sc) : s.slotsUsed sc ≠ [] := by
  have hm : (s.strm k).stateSlot ∈ s.slotsUsed sc := by
    refine List.mem_append_left _ (List.mem_filterMap.2 ⟨_, State.strm_mem_of_ne_free h, ?_⟩)
    simp [h, hsc]
  exact List.ne_nil_of_mem hm

/-! ## Commands that begin and end in one step -/

theorem State.updCmd_updCmd (s : State) (tok : Nat) (f g : Cmd → Cmd) (hf : ∀ c, (f c).tok = c.tok) :
    (s.updCmd tok f).updCmd tok g = s.updCmd tok fun c => g (f c) := by
  simp only [State.updCmd, List.map_map]
  congr 1
  refine List.map_congr_left fun c _ => ?_
  by_cases hc : c.tok = tok <;> simp [hc, hf]

/-- A status that carries no address of a failed read makes no ECC record. -/
theorem State.noteCmd_of_no_read (s : State) (tok : Nat) {st : Nat} (d : Nat) (h : st ≠ 0x4002 ∧ st ≠ 0x1002) : s.noteCmd tok st d = s := by
  unfold State.noteCmd State.noteRead
  split <;> simp [eccAddr, h]

theorem ownDetail_of_no_read {st : Nat} (d : Nat) (h : st ≠ 0x4002 ∧ st ≠ 0x1002) : ownDetail st d = d := by
  simp [ownDetail, h]

/-- An instantaneous command with such a status is ended as `endedAt` has it. -/
theorem State.instant_eq_endedAt (s : State) (tok : Nat) {st : Nat} (d : Nat) (h : st ≠ 0x4002 ∧ st ≠ 0x1002) :
    s.instant tok st d = s.endedAt tok st d := by
  unfold State.instant State.endCmd
  rw [State.noteCmd_of_no_read _ _ _ h, ownDetail_of_no_read _ h]
  exact State.updCmd_updCmd _ _ _ _ fun _ => rfl

/-- A command that begins and ends in one step without a fault, naming a stream in its record. -/
theorem State.endCmdS_begin (s : State) (tok i : Nat) :
    (s.begin_ tok).endCmdS tok 0 0 i = s.updCmd tok fun c => { c.endedNow s 0 0 with recStream := i } := by
  unfold State.endCmdS State.finishCmd
  rw [State.noteCmd_of_no_read _ _ _ (by decide)]
  exact State.updCmd_updCmd _ _ _ _ fun _ => rfl

/-- The command that a row of two commands, told apart by a flag, begins. -/
theorem State.Begins.filter_eq {s : State} {tok op : Nat} {c : Cmd} {q : Cmd → Bool} (hb : s.Begins tok op c) (hq : q c = true) :
    (s.mayBegin tok op).filter q = some c := by
  rw [hb.may, Option.filter_some, if_pos hq]

/-! ## Scenes (R12-R14) -/

/-- What CLOSE with SCENE does as it begins (R14, R275). -/
theorem execCloseScene_of_begins {s : State} {tok : Nat} {c : Cmd} (hb : s.Begins tok 0x0206 c) (hf : c.flag 0 = true) :
    exec (.closeScene tok) s = .next (
      if (s.scene (c.f 0x40 4 0)).isNone then s.endedAt tok 0x2007 0
      else if !(s.slotsUsed (c.f 0x40 4 0)).isEmpty || (SMap.get (fun _ => none) s.ingest (c.f 0x40 4 0)).isSome then s.endedAt tok 0x2006 0
      else (s.setScene (c.f 0x40 4 0) none).endedAt tok 0 0) := by
  show execCloseScene tok s = _
  unfold execCloseScene
  rw [hb.filter_eq hf]
  simp [State.instant_eq_endedAt]

/-- SCENE_OPEN into a slot that is open. -/
theorem execSceneOpen_of_open {s : State} {tok : Nat} {c : Cmd} (hb : s.Begins tok 0x0200 c) (h : (s.scene (c.f 0x40 4 0)).isSome = true) :
    exec (.sceneOpen tok) s = .next (s.endedAt tok 0x2006 0) := by
  show execSceneOpen tok s = _
  simp [execSceneOpen, hb.may, h, State.instant_eq_endedAt]

/-- SCENE_OPEN of a handle that names no program. -/
theorem execSceneOpen_of_no_program {s : State} {tok : Nat} {c : Cmd} (hb : s.Begins tok 0x0200 c) (h : s.scene (c.f 0x40 4 0) = none)
    (hp : s.programFor c (c.f 0x40 31 16) = none) : exec (.sceneOpen tok) s = .next (s.endedAt tok 0x1003 (reject 0 0x13)) := by
  show execSceneOpen tok s = _
  simp [execSceneOpen, hb.may, h, hp, State.instant_eq_endedAt]

/-- The scene a SCENE_OPEN describes (R12). -/
def Cmd.sceneOf (c : Cmd) : Scene :=
  { program := c.f 0x40 31 16, rows := c.f 0x44 8 0, cols := c.f 0x44 24 16, maxStreams := c.f 0x48 14 0, stateBase := c.q 0x50
    stateBytes := c.q 0x58, condBase := c.q 0x60, condBytes := c.q 0x68, pageSync := c.f 0x48 29 16, defQuota := c.f 0x4C 23 0 }

/-- SCENE_OPEN that passes its checks (R12, R13). -/
theorem execSceneOpen_of_checks {s : State} {tok : Nat} {c : Cmd} {p : Program} (hb : s.Begins tok 0x0200 c)
    (h : s.scene (c.f 0x40 4 0) = none) (hp : s.programFor c (c.f 0x40 31 16) = some p) (hslot : c.f 0x40 4 0 < 24)
    (hrows : 1 ≤ c.f 0x44 8 0 ∧ c.f 0x44 8 0 ≤ 256) (hcols : 1 ≤ c.f 0x44 24 16 ∧ c.f 0x44 24 16 ≤ 256)
    (hmax : 1 ≤ c.f 0x48 14 0 ∧ c.f 0x48 14 0 ≤ 16384) (hbase : c.q 0x50 % 4096 = 0)
    (hbytes : c.f 0x48 14 0 * 2 * p.image.sBytes ≤ c.q 0x58)
    (htotal : s.scenes.foldl (fun n e => n + e.2.elim 0 (·.maxStreams)) 0 + c.f 0x48 14 0 ≤ 16384)
    (hentry : p.image.missingEntry = none) (hchunk : p.image.badChunk (c.f 0x44 8 0 * c.f 0x44 24 16) = none)
    (hatt : s.badAttention p (c.f 0x44 8 0 * c.f 0x44 24 16) = none) :
    exec (.sceneOpen tok) s = .next ((s.setScene (c.f 0x40 4 0) (some c.sceneOf)).endedAt tok 0 0) := by
  have hrange : ¬ (23 < c.f 0x40 4 0 ∨ c.f 0x44 8 0 = 0 ∨ 256 < c.f 0x44 8 0 ∨ c.f 0x44 24 16 = 0 ∨ 256 < c.f 0x44 24 16 ∨
      c.f 0x48 14 0 = 0 ∨ 16384 < c.f 0x48 14 0 ∨ c.q 0x50 % 4096 ≠ 0 ∨ c.q 0x58 < c.f 0x48 14 0 * 2 * p.image.sBytes) := by omega
  show execSceneOpen tok s = _
  unfold execSceneOpen
  rw [hb.may]
  dsimp only
  rw [if_neg (by simp [h]), hp]
  dsimp only
  rw [if_neg hrange, if_neg ?total, hentry]
  · dsimp only
    rw [hchunk]
    dsimp only
    rw [hatt]
    dsimp only
    rw [State.instant_eq_endedAt _ _ _ (by decide)]
    rfl
  case total =>
    refine Nat.not_lt.2 (Nat.le_trans (Nat.le_of_eq ?_) htotal)
    congr 2
    funext n e
    cases e.2 <;> rfl

/-! ## Streams open (R25, R26) -/

/-- STREAM_OPEN in a scene slot that is not open. -/
theorem execStreamOpen_of_no_scene {s : State} {tok : Nat} {c : Cmd} (hb : s.Begins tok 0x0201 c) (h : s.scene (c.f 0x40 4 0) = none) :
    exec (.streamOpen tok) s = .next (s.endedAt tok 0x2007 0) := by
  show execStreamOpen tok s = _
  simp [execStreamOpen, hb.may, h, State.instant_eq_endedAt]

/-- A STREAM_OPEN for ANY, or of a free identifier, is not refused for its identifier. -/
theorem Cmd.not_taken {s : State} {c : Cmd} (hid : c.stream = 0xFFFF ∨ s.idFree c.stream = true) :
    ¬ (c.stream ≠ 0xFFFF ∧ s.idFree c.stream = false) := by
  rintro ⟨hne, htaken⟩
  simp [hne, htaken] at hid

/-- STREAM_OPEN of an identifier that is not free. -/
theorem execStreamOpen_of_taken {s : State} {tok : Nat} {c : Cmd} {x : Scene} (hb : s.Begins tok 0x0201 c)
    (h : s.scene (c.f 0x40 4 0) = some x) (hany : c.stream ≠ 0xFFFF) (hid : s.idFree c.stream = false) :
    exec (.streamOpen tok) s = .next (s.endedAt tok 0x2005 0) := by
  show execStreamOpen tok s = _
  simp [execStreamOpen, hb.may, h, hany, hid, State.instant_eq_endedAt]

/-- STREAM_OPEN in a scene that has no state slot left: whether ANY finds an identifier makes no difference. -/
theorem execStreamOpen_of_full {s : State} {tok : Nat} {c : Cmd} {x : Scene} (hb : s.Begins tok 0x0201 c)
    (h : s.scene (c.f 0x40 4 0) = some x) (hid : c.stream = 0xFFFF ∨ s.idFree c.stream = true)
    (hfull : x.maxStreams ≤ (s.slotsUsed (c.f 0x40 4 0)).length) :
    exec (.streamOpen tok) s = .next (s.endedAt tok 0x2004 0) := by
  show execStreamOpen tok s = _
  unfold execStreamOpen
  rw [hb.may]
  dsimp only
  rw [h]
  dsimp only
  rw [if_neg (Cmd.not_taken hid)]
  split
  · rw [State.instant_eq_endedAt _ _ _ (by decide)]
  · rw [if_pos hfull, State.instant_eq_endedAt _ _ _ (by decide)]

/-- The identifier a STREAM_OPEN takes (R26): the one it names, or for ANY the lowest free one (log entry 24). -/
def State.takesId (s : State) (c : Cmd) (i : Nat) : Prop :=
  c.stream = 0xFFFF ∧ (s.freeIds 1)[0]? = some i ∨ c.stream ≠ 0xFFFF ∧ c.stream = i ∧ s.idFree i = true

/-- STREAM_OPEN that passes its checks ends with OK in the state `openStream` leaves, its record naming the stream. -/
theorem execStreamOpen_of_checks {s u : State} {tok i : Nat} {c : Cmd} {x : Scene} {p : Program} (hb : s.Begins tok 0x0201 c)
    (h : s.scene (c.f 0x40 4 0) = some x) (hid : s.takesId c i) (hroom : (s.slotsUsed (c.f 0x40 4 0)).length < x.maxStreams)
    (hp : s.sceneProg x = some p)
    (hu : s.openStream i (c.f 0x40 4 0) x p (if c.flag 0 then c.f 0x44 23 0 else x.defQuota) = .ok u) :
    exec (.streamOpen tok) s = .next (u.updCmd tok fun d => { d.endedNow u 0 0 with recStream := i }) := by
  have htake : (if c.stream = 0xFFFF then (s.freeIds 1)[0]? else some c.stream) = some i := by
    rcases hid with ⟨he, hi⟩ | ⟨hne, hi, -⟩
    · rw [if_pos he, hi]
    · rw [if_neg hne, hi]
  show execStreamOpen tok s = _
  unfold execStreamOpen
  rw [hb.may]
  dsimp only
  rw [h]
  dsimp only
  rw [if_neg (Cmd.not_taken (hid.imp And.left fun ⟨_, he, hfree⟩ => he ▸ hfree)), htake]
  dsimp only
  rw [if_neg (by omega), hp]
  dsimp only
  rw [hu, ← State.endCmdS_begin]
  rfl

/-- The entry of a stream that was just opened (R26). -/
theorem State.strm_of_openStream {s u : State} {i sc quota : Nat} {x : Scene} {p : Program} (hu : s.openStream i sc x p quota = .ok u) :
    ∃ n, u.strm i = { commitSeq := n, st := .ready, quota := quota, rootPage := rootOf i, scene := sc
                      stateSlot := (s.freeSlots sc 1).headD 0 } := by
  simp only [State.openStream, bind, Except.bind, pure, Except.pure] at hu
  split at hu
  · cases hu
  · split at hu
    · cases hu
    · cases hu
      exact ⟨_, State.strm_updStrm_self ..⟩

/-! ## PARK (R43) -/

/-- What PARK does as it begins. -/
theorem execPark_of_begins {s : State} {tok : Nat} {c : Cmd} (hb : s.Begins tok 0x0205 c) (hf : c.flag 0 = false) :
    exec (.park tok) s = .next (
      if (s.strm c.stream).st = .ready then (s.setSt c.stream .parked 1).endedAt tok 0 0
      else if (s.strm c.stream).st = .parked then s.endedAt tok 0x0101 0
      else s.endedAt tok 0x2005 0) := by
  show execPark tok s = _
  unfold execPark
  rw [hb.filter_eq (by simp [hf])]
  dsimp only
  cases (s.strm c.stream).st <;> simp [State.instant_eq_endedAt]

/-- What PARK with RELEASE does as it begins. -/
theorem execParkRelease_of_begins {s : State} {tok : Nat} {c : Cmd} (hb : s.Begins tok 0x0205 c) (hf : c.flag 0 = true) :
    exec (.parkRelease tok) s = .next (
      if (s.strm c.stream).st = .ready then s.endedAt tok 0x0101 0
      else if (s.strm c.stream).st = .parked ∧ (s.strm c.stream).parkReason ≠ 4 then (s.setSt c.stream .ready 0).endedAt tok 0 0
      else s.endedAt tok 0x2005 0) := by
  show execParkRelease tok s = _
  unfold execParkRelease
  rw [hb.filter_eq hf]
  dsimp only
  cases (s.strm c.stream).st
  case parked => by_cases hr : (s.strm c.stream).parkReason = 4 <;> simp [hr, State.instant_eq_endedAt]
  all_goals simp [State.instant_eq_endedAt]

/-- A stream whose state alone is set: its entry, the others, and the rest of the module. -/
theorem State.setSt_frame (s : State) (i : Nat) (st : StreamSt) (reason : Nat) :
    (s.setSt i st reason).strm i = { s.strm i with st := st, parkReason := reason, commitSeq := ((s.strm i).commitSeq + 1) % 256 } ∧
    (∀ k, k ≠ i → (s.setSt i st reason).strm k = s.strm k) ∧ { s.setSt i st reason with streams := s.streams } = s :=
  ⟨State.strm_updStrm_self .., fun _ hk => State.strm_updStrm_ne _ _ hk, rfl⟩

/-! ## CLOSE of a stream (R44) -/

/-- CLOSE of a FREE stream. -/
theorem execClose_of_free {s : State} {tok : Nat} {c : Cmd} (hb : s.Begins tok 0x0206 c) (hf : c.flag 0 = false)
    (h : (s.strm c.stream).st = .free) : exec (.close tok) s = .next (s.endedAt tok 0x2005 0) := by
  show execClose tok s = _
  unfold execClose
  rw [hb.filter_eq (by simp [hf])]
  simp [h, State.instant_eq_endedAt]

/-- CLOSE of a stream that is open, after its directory's pages have lost their references. -/
theorem execClose_of_open {s u : State} {tok : Nat} {c : Cmd} (hb : s.Begins tok 0x0206 c) (hf : c.flag 0 = false)
    (h : (s.strm c.stream).st ≠ .free)
    (hu : (if s.poolActive then (s.showSt c.stream .closing 0).closeDir c.stream else .ok (s.showSt c.stream .closing 0)) = .ok u) :
    exec (.close tok) s = .next ((u.closeEntries c.stream).endedAt tok 0 0) := by
  show execClose tok s = _
  unfold execClose
  rw [hb.filter_eq (by simp [hf])]
  dsimp only
  rw [if_neg h, show (s.showSt c.stream .closing 0).poolActive = s.poolActive from rfl, hu,
    ← State.instant_eq_endedAt _ _ _ (by decide)]
  rfl

/-- Changing streams one by one changes the stream table alone. -/
theorem State.foldl_updStrm_rest (f : Stream → Stream) (ks : List Nat) :
    ∀ s : State, { ks.foldl (fun s k => s.updStrm k f) s with streams := s.streams } = s := by
  induction ks with
  | nil => intro s; rfl
  | cons k ks ih => intro s; exact congrArg (fun t : State => { t with streams := s.streams }) (ih (s.updStrm k f))

/-- After every stream of a list has lost its parent, a stream that the list names, or that had none before, has none. -/
theorem State.foldl_updStrm_hasParent {k : Nat} (ks : List Nat) :
    ∀ s : State, k ∈ ks ∨ (s.strm k).hasParent = false →
      ((ks.foldl (fun s k => s.updStrm k fun y => { y with hasParent := false }) s).strm k).hasParent = false := by
  induction ks with
  | nil => intro s h; simpa using h
  | cons j ks ih =>
    intro s h
    refine ih _ ?_
    by_cases hj : k = j
    · subst hj
      exact .inr (by simp)
    · rw [State.strm_updStrm_ne _ _ hj]
      rcases h with h | h
      · exact .inl ((List.mem_cons.1 h).resolve_left hj)
      · exact .inr h

/-- A write of an entry that changes nothing but COMMIT_SEQ keeps every HAS_PARENT. -/
theorem State.updStrm_id_hasParent (s : State) (i k : Nat) : ((s.updStrm i id).strm k).hasParent = (s.strm k).hasParent := by
  by_cases h : k = i
  · subst h; simp
  · rw [State.strm_updStrm_ne _ _ h]

/-- The closed stream's entry is empty but for COMMIT_SEQ. -/
theorem State.closeEntries_self (s : State) (i : Nat) : ∃ n, (s.closeEntries i).strm i = { commitSeq := n } :=
  ⟨_, State.strm_updStrm_self ..⟩

/-- No stream names the closed one as its parent. -/
theorem State.closeEntries_orphans {s : State} {i k : Nat} (hk : (s.strm k).hasParent = true) (hp : (s.strm k).parent = i) :
    ((s.closeEntries i).strm k).hasParent = false := by
  by_cases hi : k = i
  · subst hi
    obtain ⟨n, hn⟩ := State.closeEntries_self s k
    rw [hn]
  · have hmem : k ∈ (s.streams.filter fun e => e.2.hasParent && e.2.parent == i).map (·.1) :=
      List.mem_map.2 ⟨_, List.mem_filter.2 ⟨State.strm_mem_of_hasParent hk, by simp [hk, hp]⟩, rfl⟩
    have hkids := State.foldl_updStrm_hasParent _ s (.inl hmem)
    unfold State.closeEntries
    rw [State.strm_updStrm_ne _ _ hi]
    split
    · rw [State.updStrm_id_hasParent]; exact hkids
    · exact hkids

/-- Closing a stream's entries changes the stream table alone. -/
theorem State.closeEntries_rest (s : State) (i : Nat) : { s.closeEntries i with streams := s.streams } = s := by
  have hkids := State.foldl_updStrm_rest (fun y => { y with hasParent := false })
    ((s.streams.filter fun e => e.2.hasParent && e.2.parent == i).map (·.1)) s
  by_cases hx : (s.strm i).hasParent = true
  · simp only [State.closeEntries, if_pos hx]; exact hkids
  · simp only [State.closeEntries, if_neg hx]; exact hkids

/-! ## The statements -/

/-- Settles O52: the stream keeps a state slot of its scene in use (R14). -/
theorem closeSceneBusy : Obligations.CloseSceneBusy := by
  intro s tok c k hb hf hopen hst hsc
  rw [execCloseScene_of_begins hb hf]
  simp [Option.isSome_iff_ne_none.1 hopen, State.slotsUsed_ne_nil hst hsc]

/-- Settles O53, command by command: what each does as it begins, with the entry it writes and what it leaves alone. -/
theorem scenesAndStreams : Obligations.ScenesAndStreams := by
  intro s tok c
  refine ⟨fun hb => ⟨execSceneOpen_of_open hb, execSceneOpen_of_no_program hb, ?_⟩,
    fun hb => ⟨execStreamOpen_of_no_scene hb, fun x hx => ⟨execStreamOpen_of_taken hb hx, execStreamOpen_of_full hb hx, ?_⟩⟩,
    fun hb => ⟨fun hf => ?_, fun hf => ?_⟩, fun hb => ⟨fun hf => ⟨execClose_of_free hb hf, ?_⟩, fun hf => ?_⟩⟩
  · intro p h hp hslot hrows hcols hmax hbase hbytes htotal hentry hchunk hatt
    exact ⟨_, execSceneOpen_of_checks hb h hp hslot hrows hcols hmax hbase hbytes htotal hentry hchunk hatt,
      State.scene_setScene_self .., fun _ hi => State.scene_setScene_ne _ _ hi, rfl⟩
  · intro i p u hid hroom hp hu
    obtain ⟨n, hn⟩ := State.strm_of_openStream hu
    exact ⟨n, execStreamOpen_of_checks hb hx hid hroom hp hu, hn⟩
  · rw [execPark_of_begins hb hf]
    refine ⟨fun hst => ⟨_, by rw [if_pos hst], State.setSt_frame ..⟩, fun hst => ?_, fun hst => ?_⟩
    · simp [hst]
    · simp [hst]
  · rw [execParkRelease_of_begins hb hf]
    refine ⟨fun hst hr => ⟨_, by rw [if_neg (by simp [hst]), if_pos ⟨hst, hr⟩], State.setSt_frame ..⟩, fun hst => ?_, fun hst => ?_⟩
    · simp [hst]
    · rcases hst with ⟨hst, hr⟩ | hst
      · simp [hst, hr]
      · simp [hst]
  · intro u hst hu
    obtain ⟨n, hn⟩ := State.closeEntries_self u c.stream
    exact ⟨_, n, execClose_of_open hb hf hst hu, hn, fun _ => State.closeEntries_orphans, State.closeEntries_rest ..⟩
  · rw [execCloseScene_of_begins hb hf]
    refine ⟨fun h => by simp [h], fun hopen hslots hing => ⟨s.setScene (c.f 0x40 4 0) none, ?_, State.scene_setScene_self ..,
      fun _ hi => State.scene_setScene_ne _ _ hi, rfl⟩⟩
    simp [Option.isSome_iff_ne_none.1 hopen, hslots, hing]

/-! ## A STEP whose list is not its stream's -/

/-- A program that does nothing. -/
def strayProgram : Program := { image := {}, map := [], palBase := [], groupPanel := [], shrBase := [], statics := [], flags := 0, crc := 0 }

/-- A scene of it. -/
def strayScene : Scene :=
  { program := 0, rows := 1, cols := 1, maxStreams := 2, stateBase := 0, stateBytes := 0, condBase := 0, condBytes := 0, pageSync := 0
    defQuota := 0 }

/-- A dispatched STEP of the single stream 5 (LIST_COUNT 0, R392) whose held list names stream 3. Its dispatch would have left the list
`[[5, 0, 0]]` (`readLists`, R389); the statement does not ask for that. -/
def strayStep : Cmd :=
  { tok := 0, qid := 0, op := 0x0203, flags := 0, tag := 0, notBefore := 0, waitValue := 0, signalValue := 0, signalObj := 0, waitObj := 0
    stream := 5, epoch := 0, seed := 0, par := List.replicate 16 0, phase := .dispatched
    items := [[3, 0, 0]] }

/-- Stream 5 is FREE, stream 3 is PARKED in scene 0, and the STEP may begin. -/
def strayState : State :=
  { State.reset with progs := [(0, { prog := some strayProgram })], scenes := [(0, some strayScene)], streams := [(3, { st := .parked })]
                     cmds := [strayStep], nextTok := 1 }

theorem strayState_begins : strayState.Begins 0 0x0203 strayStep where
  may := by decide +kernel
  alone d hd _ := List.mem_singleton.1 hd
  fresh := ⟨rfl, rfl⟩

/-- What the statement takes for the STEP's work: a run on the streams of its list. -/
def strayLaunch : E State :=
  strayState.launch strayStep strayScene (strayState.strm 3).scene strayProgram ((strayProgram.image.firstEntry 1).getD 0) 1 strayScene.f
    strayStep.items strayStep.syncs (strayProgram.bufs 2 (strayStep.stepBuf strayScene (max 1 (strayStep.f 0x40 12 0)))) .none

/-- The run finds stream 3 PARKED: the command ends STREAM_PARKED. -/
theorem strayLaunch_parked : (strayLaunch.toOption.bind fun u => u.cmd 0).map (·.status) = some 0x2002 := by decide +kernel

/-- The command looks at STREAM and finds it FREE: it ends STREAM_STATE. -/
theorem exec_strayStep_free : ∃ t, exec (.step ⟨0, .none⟩) strayState = .next t ∧ (t.cmd 0).map (·.status) = some 0x2005 :=
  ⟨_, rfl, by decide +kernel⟩

/-- Refutes O54: its clause on STEP finds the leading stream in the command's held list, where the command with LIST_COUNT 0 takes the one in
STREAM (R35). In `strayState` the two differ: the run of the list's stream ends STREAM_PARKED, and the STEP ends STREAM_STATE. The clause lacks
the premise that a STEP with LIST_COUNT 0 holds the list of its own stream, as every dispatch leaves it. -/
theorem not_streamWork : ¬ Obligations.StreamWork := by
  intro h
  obtain ⟨-, -, hstep, -⟩ := h strayState 0 strayStep
  obtain ⟨-, hrun⟩ := hstep .none trivial (by decide +kernel) strayState_begins
  obtain ⟨t, ht, hfree⟩ := exec_strayStep_free
  have hparked := strayLaunch_parked
  cases hu : strayLaunch with
  | error e => simp [hu, Except.toOption] at hparked
  | ok u =>
    have hex := hrun 3 strayScene strayProgram u (by decide +kernel) (by decide +kernel) (by decide +kernel) (by decide +kernel)
      (by decide +kernel) hu
    obtain rfl : t = u := Host.Outcome.next.inj (ht.symm.trans hex)
    simp [hu, Except.toOption, hfree] at hparked

end Sys2Proof.Machine
end

section
/-! SUPPORT. Register words and their fields (18 R543-R546), and a requester's staged half (R544): what a read returns after a write, and what a
write that acts leaves alone. -/

namespace Sys2Proof.Machine

/-! ## Fields of a number -/

/-- The field that was put reads as the value given, cut to its width. -/
theorem bits_putBits_self {v hi lo x : Nat} (h : lo ≤ hi) : bits (putBits v hi lo x) hi lo = x % 2 ^ (hi + 1 - lo) := by
  obtain ⟨n, hn⟩ : ∃ n, hi + 1 = lo + n := ⟨hi + 1 - lo, by omega⟩
  have hw : hi + 1 - lo = n := by omega
  have hpos : 0 < 2 ^ lo := Nat.two_pow_pos lo
  have htop : v / (2 ^ lo * 2 ^ n) * (2 ^ lo * 2 ^ n) = 2 ^ lo * (2 ^ n * (v / (2 ^ lo * 2 ^ n))) := by
    rw [Nat.mul_comm, Nat.mul_assoc]
  have hsum : v / (2 ^ lo * 2 ^ n) * (2 ^ lo * 2 ^ n) + x % 2 ^ n * 2 ^ lo + v % 2 ^ lo =
      v % 2 ^ lo + 2 ^ lo * (x % 2 ^ n + 2 ^ n * (v / (2 ^ lo * 2 ^ n))) := by
    rw [htop, Nat.mul_comm (x % 2 ^ n), ← Nat.mul_add, Nat.add_comm, Nat.add_comm (2 ^ n * _)]
  unfold bits putBits
  rw [hw, hn, Nat.pow_add, hsum, Nat.add_mul_div_left _ _ hpos, Nat.div_eq_of_lt (Nat.mod_lt _ hpos), Nat.zero_add,
    Nat.add_mul_mod_self_left, Nat.mod_mod]

/-- A number in base `n` whose upper digits lie below `m` and whose last digit is `b`. -/
theorem mul_add_lt_mul {a b m n : Nat} (ha : a < m) (hb : b < n) : a * n + b < m * n :=
  calc a * n + b < (a + 1) * n := by rw [Nat.succ_mul]; omega
    _ ≤ m * n := Nat.mul_le_mul_right n ha

/-- A field put inside a 32-bit word leaves a 32-bit word. -/
theorem putBits_lt {v hi lo x : Nat} (h : lo ≤ hi) (hhi : hi < 32) (hv : v < 2 ^ 32) : putBits v hi lo x < 2 ^ 32 := by
  obtain ⟨n, hn⟩ : ∃ n, hi + 1 = n + lo := ⟨hi + 1 - lo, by omega⟩
  obtain ⟨m, hm⟩ : ∃ m, 32 = m + (hi + 1) := ⟨31 - hi, by omega⟩
  have hw : hi + 1 - lo = n := by omega
  have htop : v / 2 ^ (hi + 1) < 2 ^ m := by
    rw [Nat.div_lt_iff_lt_mul (Nat.two_pow_pos _), ← Nat.pow_add, ← hm]
    exact hv
  have hrest : x % 2 ^ n * 2 ^ lo + v % 2 ^ lo < 2 ^ (hi + 1) := by
    rw [hn, Nat.pow_add]
    exact mul_add_lt_mul (Nat.mod_lt _ (Nat.two_pow_pos _)) (Nat.mod_lt _ (Nat.two_pow_pos _))
  unfold putBits
  rw [hw, hm, Nat.pow_add 2 m, Nat.add_assoc]
  exact mul_add_lt_mul htop hrest

/-! ## Words -/

@[simp] theorem State.reg_setReg_self (s : State) (o : Nat) (v : W32) : (s.setReg o v).reg o = v := SMap.get_set_self

theorem State.reg_setReg_ne (s : State) {o k : Nat} (v : W32) (h : k ≠ o) : (s.setReg o v).reg k = s.reg k := SMap.get_set_ne h

theorem State.reg_setFld_ne (s : State) {o k : Nat} (hi lo x : Nat) (h : k ≠ o) : (s.setFld o hi lo x).reg k = s.reg k :=
  State.reg_setReg_ne s _ h

theorem State.fld_setFld_ne (s : State) {o k : Nat} (hi lo x a b : Nat) (h : k ≠ o) : (s.setFld o hi lo x).fld k a b = s.fld k a b := by
  rw [State.fld, State.reg_setFld_ne _ _ _ _ h, State.fld]

/-- A field reads as the value it was set to, cut to its width. -/
theorem State.fld_setFld_self (s : State) (o : Nat) {hi lo : Nat} (x : Nat) (h : lo ≤ hi) (hhi : hi < 32) :
    (s.setFld o hi lo x).fld o hi lo = x % 2 ^ (hi + 1 - lo) := by
  unfold State.fld State.setFld
  rw [State.reg_setReg_self, BitVec.toNat_ofNat, Nat.mod_eq_of_lt (putBits_lt h hhi (s.reg o).isLt), bits_putBits_self h]

/-! ## Ranges of words at their reset value -/

theorem State.reg_clear_in (s : State) {lo n o : Nat} (h : lo ≤ o ∧ o < lo + n) : (s.clear lo n).reg o = regReset o :=
  SMap.get_erase_in h.1 h.2

theorem State.reg_clear_out (s : State) {lo n o : Nat} (h : o < lo ∨ lo + n ≤ o) : (s.clear lo n).reg o = s.reg o := SMap.get_erase_out h

/-- The registers of some ranges (first offset, length) cleared one range after the other. -/
def State.clearAll (s : State) (rs : List (Nat × Nat)) : State := rs.foldl (fun s r => s.clear r.1 r.2) s

@[simp] theorem State.clearAll_nil (s : State) : s.clearAll [] = s := rfl

@[simp] theorem State.clearAll_cons (s : State) (r : Nat × Nat) (rs : List (Nat × Nat)) :
    s.clearAll (r :: rs) = (s.clear r.1 r.2).clearAll rs := rfl

/-- A register outside every cleared range stands. -/
theorem State.reg_clearAll_out {o : Nat} {rs : List (Nat × Nat)} (h : ∀ r ∈ rs, o < r.1 ∨ r.1 + r.2 ≤ o) :
    ∀ s : State, (s.clearAll rs).reg o = s.reg o := by
  induction rs with
  | nil => exact fun s => rfl
  | cons r rs ih =>
    intro s
    rw [State.clearAll_cons, ih (fun q hq => h q (List.mem_cons_of_mem _ hq)), State.reg_clear_out _ (h r List.mem_cons_self)]

/-- A register at its reset value stays there. -/
theorem State.reg_clearAll_reset {o : Nat} (rs : List (Nat × Nat)) : ∀ s : State, s.reg o = regReset o → (s.clearAll rs).reg o = regReset o := by
  induction rs with
  | nil => exact fun s h => h
  | cons r rs ih =>
    intro s h
    refine ih _ ?_
    by_cases hr : r.1 ≤ o ∧ o < r.1 + r.2
    · exact State.reg_clear_in _ hr
    · rw [State.reg_clear_out _ (by omega), h]

/-- A register inside a cleared range reads its reset value. -/
theorem State.reg_clearAll_in {o : Nat} {rs : List (Nat × Nat)} (h : ∃ r ∈ rs, r.1 ≤ o ∧ o < r.1 + r.2) :
    ∀ s : State, (s.clearAll rs).reg o = regReset o := by
  induction rs with
  | nil => simp at h
  | cons r rs ih =>
    intro s
    obtain ⟨q, hq, ho⟩ := h
    rcases List.mem_cons.1 hq with rfl | hq
    · exact State.reg_clearAll_reset rs _ (State.reg_clear_in s ho)
    · exact ih ⟨q, hq, ho⟩ _

/-- Clearing ranges changes the register file alone. -/
theorem State.clearAll_rest (rs : List (Nat × Nat)) : ∀ s : State, { s.clearAll rs with regs := s.regs } = s := by
  induction rs with
  | nil => exact fun s => rfl
  | cons r rs ih => exact fun s => congrArg (fun t : State => { t with regs := s.regs }) (ih (s.clear r.1 r.2))

/-! ## A requester's staged half -/

@[simp] theorem State.setStage_regs (s : State) (r : Requester) (x : Option Stage) : (s.setStage r x).regs = s.regs := by cases r <;> rfl
@[simp] theorem State.setStage_tiles (s : State) (r : Requester) (x : Option Stage) : (s.setStage r x).tiles = s.tiles := by cases r <;> rfl

@[simp] theorem State.reg_setStage (s : State) (r : Requester) (x : Option Stage) (o : Nat) : (s.setStage r x).reg o = s.reg o := by
  simp [State.reg]

@[simp] theorem State.fld_setStage (s : State) (r : Requester) (x : Option Stage) (o hi lo : Nat) :
    (s.setStage r x).fld o hi lo = s.fld o hi lo := by simp [State.fld]

@[simp] theorem State.tile_setStage (s : State) (r : Requester) (x : Option Stage) (k : Nat) : (s.setStage r x).tile k = s.tile k := by
  simp [State.tile]

/-- Where every register is open, every write is taken (R550). -/
theorem State.accepts_of_openRegs {s : State} (h : s.openRegs) (off : Nat) : s.accepts off = true := by
  obtain ⟨hready, hsafe, hscrape⟩ := h
  simp [State.accepts, hready, hsafe, hscrape]

@[simp] theorem State.accepts_setStage (s : State) (r : Requester) (x : Option Stage) (off : Nat) :
    (s.setStage r x).accepts off = s.accepts off := by cases r <;> rfl

/-- A write that acts, where every register is open (R544, R550): its requester's staged half is gone, then the operation runs. -/
theorem State.act_of_openRegs {s : State} (h : s.openRegs) (r : Requester) (off : Nat) (f : State → State) :
    s.act r off f = f (s.setStage r none) :=
  if_pos (by rw [State.accepts_setStage, State.accepts_of_openRegs h])

/-- A write that clears ranges of registers and nothing else. -/
theorem State.cleared_clearAll (s : State) (r : Requester) (rs : List (Nat × Nat)) : s.Cleared ((s.setStage r none).clearAll rs) r rs where
  inside _ h := State.reg_clearAll_in h _
  outside o h := by rw [State.reg_clearAll_out h, State.reg_setStage]
  rest := by
    have h := State.clearAll_rest rs (s.setStage r none)
    rwa [State.setStage_regs] at h

/-! ## Tiles and registers -/

@[simp] theorem State.tile_setTile_self (s : State) (k : Nat) (x : Tile) : (s.setTile k x).tile k = x := SMap.get_set_self

theorem State.tile_setTile_ne (s : State) {k j : Nat} (x : Tile) (h : j ≠ k) : (s.setTile k x).tile j = s.tile j := SMap.get_set_ne h

@[simp] theorem State.reg_setTile (s : State) (k : Nat) (x : Tile) (o : Nat) : (s.setTile k x).reg o = s.reg o := rfl
@[simp] theorem State.fld_setTile (s : State) (k : Nat) (x : Tile) (o hi lo : Nat) : (s.setTile k x).fld o hi lo = s.fld o hi lo := rfl
@[simp] theorem State.tile_setFld (s : State) (o hi lo x k : Nat) : (s.setFld o hi lo x).tile k = s.tile k := rfl

end Sys2Proof.Machine
end

section
/-! SUPPORT. The CLEAR writes that reach beyond the counters (04 R131, 07 R242, 16 R517, R518): the statement O8 settled. -/

namespace Sys2Proof.Machine

/-- RES_CLEAR of tile `n`: its residue counters, and its SUSPECT table. -/
theorem exec_resClear {s : State} (h : s.openRegs) (r : Requester) (n : Fin 64) :
    exec (.resClear r n) s = .next (((s.setStage r none).clearAll [(0x100100 + 0x1000 * n.val, 16)]).setTile n.val
      { s.tile n.val with suspects := [] }) := by
  show execResClear r n s = _
  unfold execResClear
  rw [State.act_of_openRegs h]
  simp [State.clearRes]

/-- POOL_CLEAR: the pool's counters, and LOW at the pages now free. -/
theorem exec_poolClear {s : State} (h : s.openRegs) (r : Requester) :
    exec (.poolClear r) s = .next (((s.setStage r none).clear 0x148820 0x18).setFld 0x14881C 23 0 s.poolFree) := by
  show execPoolClear r s = _
  unfold execPoolClear
  rw [State.act_of_openRegs h]
  simp [State.clearPool, State.poolFree]

/-- The ranges PWR_CLEAR clears: the block's counters, and AVS_CLAMPED of each panel. -/
def pwrRanges : List (Nat × Nat) := (0x280040, 0x28) :: (List.range 4).map fun p => (0x280108 + 0x10 * p, 4)

/-- The supply's record with its running times started again at `now`. -/
def PowerSt.restarted (x : PowerSt) (now : Nat) : PowerSt :=
  { x with throttleAt := x.throttleAt.map fun _ => now, pacedAt := x.pacedAt.map fun _ => now }

/-- PWR_CLEAR: the block's counters, and the running times. -/
theorem exec_pwrClear {s : State} (h : s.openRegs) (r : Requester) :
    exec (.pwrClear r) s = .next { (s.setStage r none).clearAll pwrRanges with power := s.power.restarted s.itNow } := by
  show execPwrClear r s = _
  unfold execPwrClear
  rw [State.act_of_openRegs h]
  cases r <;> rfl

/-- Settles O8: each write is a clear of ranges with one table, one field or one record changed beside it. -/
theorem clearReachesTables : Obligations.ClearReachesTables := by
  intro s r h
  refine ⟨fun n => ⟨_, exec_resClear h r n, ?_⟩, ⟨_, exec_poolClear h r, ?_⟩, ⟨_, exec_pwrClear h r, ?_, ?_⟩⟩
  · refine ⟨?_, ?_, ?_, fun k hk => ?_, ?_⟩
    · rw [State.tile_setTile_self]
    · rw [State.tile_setTile_self]
    · rw [State.tile_setTile_self]
    · rw [State.tile_setTile_ne _ _ hk]
      exact State.tile_setStage ..
    · have hc := s.cleared_clearAll r [(0x100100 + 0x1000 * n.val, 16)]
      exact ⟨hc.inside, hc.outside, by cases r <;> rfl⟩
  · refine ⟨?_, fun o ho => ?_, fun o ho hne => ?_, ?_⟩
    · exact State.fld_setFld_self _ _ _ (by decide) (by decide)
    · rw [State.reg_setFld_ne _ _ _ _ (by omega), State.reg_clear_in _ ho]
    · rw [State.reg_setFld_ne _ _ _ _ hne, State.reg_clear_out _ ho, State.reg_setStage]
    · cases r <;> rfl
  · rfl
  · have hc := s.cleared_clearAll r pwrRanges
    generalize (s.setStage r none).clearAll pwrRanges = u at hc
    have hrest : { u with power := s.power, regs := s.regs } = { s.setStage r none with power := s.power } :=
      congrArg (fun v : State => { v with power := s.power }) hc.rest
    exact ⟨hc.inside, hc.outside, hrest.trans (by cases r <;> rfl)⟩

end Sys2Proof.Machine
end

section
/-! SUPPORT. TILE_CONTROL and field repair (04 R125-R130, R134): what a write and a commit's end do to the tile, and the statement O42 settled. -/

namespace Sys2Proof.Machine

/-! ## TILE_CONTROL -/

/-- A tile whose retire fuse is burned takes no TILE_CONTROL (R126). -/
theorem State.tileControl_of_retireFuse {s : State} {k : Nat} (v : Nat) (h : (s.tile k).retireFuse = true) : s.tileControl k v = s := by
  simp [State.tileControl, h]

/-- QUARANTINE of an IDLE tile. -/
theorem State.tileControl_quarantine_idle {s : State} {k : Nat} (hf : (s.tile k).retireFuse = false) (h : (s.tile k).st = .idle) :
    s.tileControl k 2 = (s.setTile k { s.tile k with st := .quarantined }).unburn k := by
  simp [State.tileControl, hf, h]

/-- QUARANTINE of a tile that executes. -/
theorem State.tileControl_quarantine_busy {s : State} {k : Nat} (hf : (s.tile k).retireFuse = false)
    (h : (s.tile k).st = .running ∨ (s.tile k).st = .replaying) :
    s.tileControl k 2 = s.setTile k { s.tile k with quarPending := true } := by
  rcases h with h | h <;> simp [State.tileControl, hf, h]

/-- RELEASE of a QUARANTINED tile. -/
theorem State.tileControl_release {s : State} {k : Nat} (hf : (s.tile k).retireFuse = false) (h : (s.tile k).st = .quarantined) :
    s.tileControl k 1 = s.setTile k { s.tile k with st := .idle } := by
  simp [State.tileControl, hf, h]

/-- RELEASE of any other tile. -/
theorem State.tileControl_release_ne {s : State} {k : Nat} (h : (s.tile k).st ≠ .quarantined) : s.tileControl k 1 = s := by
  cases hst : (s.tile k).st
  case quarantined => exact absurd hst h
  all_goals simp [State.tileControl, hst]

/-- A tile written after the requester's staged half is gone. -/
theorem State.setTile_setStage_frame (s : State) (r : Requester) (k : Nat) (x : Tile) :
    ((s.setStage r none).setTile k x).tile k = x ∧ (∀ j, j ≠ k → ((s.setStage r none).setTile k x).tile j = s.tile j) ∧
    { (s.setStage r none).setTile k x with tiles := s.tiles } = s.setStage r none :=
  ⟨State.tile_setTile_self .., fun _ hj => (State.tile_setTile_ne _ _ hj).trans (State.tile_setStage ..), by cases r <;> rfl⟩

theorem exec_tileQuarantine {s : State} (h : s.openRegs) (r : Requester) (k : Fin 64) :
    exec (.tileQuarantine r k) s = .next ((s.setStage r none).tileControl k.val 2) := by
  show execTileQuarantine r k s = _
  rw [execTileQuarantine, State.act_of_openRegs h]

theorem exec_tileRelease {s : State} (h : s.openRegs) (r : Requester) (k : Fin 64) :
    exec (.tileRelease r k) s = .next ((s.setStage r none).tileControl k.val 1) := by
  show execTileRelease r k s = _
  rw [execTileRelease, State.act_of_openRegs h]

/-- A tile that leaves burn work: its ADAPT_STATUS shows it, BURNING of the power block follows, and no other register changes. -/
theorem State.unburn_regs (s : State) (k : Fin 64) :
    (s.unburn k.val).fld (adaptReg k.val) 1 1 = 0 ∧ s.OnlyRegs (s.unburn k.val) [adaptReg k.val, 0x280000] := by
  have hne : adaptReg k.val ≠ 0x280000 := by
    have := k.isLt
    unfold adaptReg
    omega
  refine ⟨?_, fun o ho => ?_⟩
  · unfold State.unburn
    rw [State.fld_setFld_ne _ _ _ _ _ _ hne]
    exact State.fld_setFld_self _ _ _ (by decide) (by decide)
  · simp only [List.mem_cons, List.not_mem_nil, or_false, not_or] at ho
    unfold State.unburn
    rw [State.reg_setFld_ne _ _ _ _ ho.2]
    exact State.reg_setFld_ne _ _ _ _ ho.1

/-! ## REPAIR_GO -/

theorem exec_repairGo {s : State} (h : s.openRegs) (r : Requester) (k : Fin 64) :
    exec (.repairGo r k) s = .next ((s.setStage r none).repairGo k.val) := by
  show execRepairGo r k s = _
  rw [execRepairGo, State.act_of_openRegs h]

theorem State.repairResult_fld (s : State) (k n : Nat) (h : n < 16) : (s.repairResult k n).fld (0x100288 + 0x1000 * k) 3 0 = n :=
  (State.fld_setFld_self _ _ _ (by decide) (by decide)).trans (Nat.mod_eq_of_lt h)

theorem State.repairResult_onlyRegs (s : State) (k n : Nat) : s.OnlyRegs (s.repairResult k n) [0x100288 + 0x1000 * k] := by
  intro o ho
  exact State.reg_setFld_ne _ _ _ _ (by simpa using ho)

@[simp] theorem State.tile_repairResult (s : State) (k n j : Nat) : (s.repairResult k n).tile j = s.tile j := rfl

/-- A GO that is not ignored gives a result, and one whose result is BUSY stages the word. -/
theorem State.repairGo_cases {s : State} {k : Nat} (hbusy : s.fld (0x100288 + 0x1000 * k) 3 0 ≠ 1)
    (hlock : s.fld (0x10028C + 0x1000 * k) 0 0 = 0) :
    (∃ n, s.repairGo k = s.repairResult k n) ∨
    s.repairGo k = (s.repairResult k 1).setTile k { s.tile k with staged := some (s.reg (0x100280 + 0x1000 * k)).toNat } := by
  unfold State.repairGo
  dsimp only
  rw [if_neg (by simp [hbusy, hlock])]
  split
  · exact .inl ⟨_, rfl⟩
  · split
    · exact .inl ⟨_, rfl⟩
    · split
      · exact .inl ⟨_, rfl⟩
      · exact .inr rfl

/-- A GO that is not ignored changes REPAIR_RESULT and the tile alone. -/
theorem State.repairGo_frame {s : State} {k : Nat} (hbusy : s.fld (0x100288 + 0x1000 * k) 3 0 ≠ 1)
    (hlock : s.fld (0x10028C + 0x1000 * k) 0 0 = 0) :
    s.OnlyRegs (s.repairGo k) [0x100288 + 0x1000 * k] ∧ { s.repairGo k with tiles := s.tiles, regs := s.regs } = s ∧
    ∀ j, j ≠ k → (s.repairGo k).tile j = s.tile j := by
  rcases State.repairGo_cases hbusy hlock with ⟨n, h⟩ | h
  · rw [h]
    exact ⟨State.repairResult_onlyRegs s k n, rfl, fun _ _ => rfl⟩
  · rw [h]
    exact ⟨State.repairResult_onlyRegs s k 1, rfl, fun _ hj => State.tile_setTile_ne _ _ hj⟩

/-- A GO for a tile that is not QUARANTINED. -/
theorem State.repairGo_of_not_quarantined {s : State} {k : Nat} (hbusy : s.fld (0x100288 + 0x1000 * k) 3 0 ≠ 1)
    (hlock : s.fld (0x10028C + 0x1000 * k) 0 0 = 0) (h : (s.tile k).st ≠ .quarantined) : s.repairGo k = s.repairResult k 4 := by
  simp [State.repairGo, hbusy, hlock, h]

/-- A GO that passes its checks. -/
theorem State.repairGo_of_checks {s : State} {k : Nat} (hbusy : s.fld (0x100288 + 0x1000 * k) 3 0 ≠ 1)
    (hlock : s.fld (0x10028C + 0x1000 * k) 0 0 = 0) (h : (s.tile k).st = .quarantined)
    (hkind : bits (s.reg (0x100280 + 0x1000 * k)).toNat 30 28 ≤ 4)
    (hspare : bits (s.reg (0x100280 + 0x1000 * k)).toNat 30 28 = 4 ∨ bits (s.reg (0x100280 + 0x1000 * k)).toNat 3 0 < 8 ∨
      bits (s.reg (0x100280 + 0x1000 * k)).toNat 3 0 = 15)
    (hfree : spareRefused (s.tile k) (s.reg (0x100280 + 0x1000 * k)).toNat = false) :
    s.repairGo k = (s.repairResult k 1).setTile k { s.tile k with staged := some (s.reg (0x100280 + 0x1000 * k)).toNat } := by
  unfold State.repairGo
  dsimp only
  rw [if_neg (by simp [hbusy, hlock]), if_neg (by simp [h]), if_neg (by omega), if_neg (by simp [hfree])]

/-! ## The end of a commit -/

/-- What every end of a commit of tile `k` leaves: no word is staged, no other tile and no register but REPAIR_RESULT's changes, and outside
the tiles, the registers and the scheduler nothing does. -/
structure State.CommitEnds (s t : State) (k : Nat) : Prop where
  staged : (t.tile k).staged = none
  others : ∀ j, j ≠ k → t.tile j = s.tile j
  regs : s.OnlyRegs t [0x100288 + 0x1000 * k]
  rest : { t with tiles := s.tiles, regs := s.regs, sch := s.sch } = s

/-- A tile without a staged word is written, and its result shown. -/
theorem State.commitEnds_result {s u : State} {k : Nat} {x : Tile} (n : Nat) (hx : x.staged = none) (htiles : u.tiles = s.tiles)
    (hregs : s.OnlyRegs u [0x100288 + 0x1000 * k]) (hrest : { u with tiles := s.tiles, regs := s.regs, sch := s.sch } = s) :
    s.CommitEnds ((u.setTile k x).repairResult k n) k where
  staged := by simpa using hx
  others j hj := by
    rw [State.tile_repairResult, State.tile_setTile_ne _ _ hj]
    simp [State.tile, htiles]
  regs o ho := (State.repairResult_onlyRegs _ k n o ho).trans (hregs o ho)
  rest := hrest

/-- The fuse that retires a tile is burned. -/
theorem State.commitEnds_retire (s : State) (k : Nat) : s.CommitEnds (s.retire k) k := by
  refine State.commitEnds_result 3 rfl ?_ ?_ ?_
  · unfold State.keepTiles; dsimp only; split <;> rfl
  · intro o _; unfold State.keepTiles; dsimp only; split <;> rfl
  · unfold State.keepTiles; dsimp only; split <;> rfl

/-- A record is burned. -/
theorem State.commitEnds_burnRec (s : State) (k : Nat) (x : FieldRec) (n : Nat) : s.CommitEnds (s.burnRec k x n) k :=
  State.commitEnds_result n rfl rfl (fun _ ho => State.reg_setFld_ne _ _ _ _ (by simpa using ho)) rfl

/-- Every commit ends so. -/
theorem State.commitEnds_commitRepair (s : State) (k w : Nat) (ok : Bool) : s.CommitEnds (s.commitRepair k w ok) k := by
  unfold State.commitRepair
  dsimp only
  split
  · exact State.commitEnds_retire s k
  · split
    · exact State.commitEnds_retire s k
    · split
      · split
        · exact State.commitEnds_retire s k
        · exact State.commitEnds_result 7 rfl rfl (fun _ _ => rfl) rfl
      · split
        · exact State.commitEnds_burnRec ..
        · exact State.commitEnds_burnRec ..

/-- The commit of a retirement. -/
theorem State.commitRepair_retire {s : State} (k : Nat) {w : Nat} (ok : Bool) (h : bits w 30 28 = 4) : s.commitRepair k w ok = s.retire k := by
  simp [State.commitRepair, h]

/-- The commit of a MAP whose fuses read back as burned. -/
theorem State.commitRepair_map {s : State} {k w n : Nat} (hk : bits w 30 28 ≤ 1) (hn : stageSpare (s.tile k) w = some n)
    (hroom : (s.tile k).recs.length < 16) :
    s.commitRepair k w true = s.burnRec k { kind := bits w 30 28, logical := bits w 15 8, spare := n } 2 := by
  unfold State.commitRepair
  dsimp only
  have hkind : ¬ bits w 30 28 = 4 := by omega
  have hfull : ¬ 16 ≤ (s.tile k).recs.length := by omega
  rw [if_neg hkind, hn]
  dsimp only
  rw [if_neg hfull, if_pos rfl, decide_eq_true hk, if_pos rfl]

theorem State.retire_tile (s : State) (k : Nat) :
    (s.retire k).tile k = { s.tile k with retireFuse := true, st := .retired, staged := none } := State.tile_setTile_self ..

/-- The count of healthy tiles is kept once a window (R418). -/
theorem State.keepTiles_sch (s : State) :
    s.keepTiles.sch = if s.sch.tilesWin = some (s.winOf s.itNow) then s.sch
      else { s.sch with tilesWin := some (s.winOf s.itNow), winTiles := s.healthyTiles } := by
  unfold State.keepTiles
  dsimp only
  split <;> rfl

/-! ## Records -/

/-- A record takes the next SEQ, whether an entry is open to it or not (R495). -/
@[simp] theorem State.record_nextSeq (s : State) (cat sev src : Nat) (p : List Byte) : (s.record cat sev src p).sb.nextSeq = s.sb.nextSeq + 1 := by
  unfold State.record
  dsimp only
  split <;> rfl

/-- A record changes the sketchbook alone. -/
theorem State.record_eq (s : State) (cat sev src : Nat) (p : List Byte) : s.record cat sev src p = { s with sb := (s.record cat sev src p).sb } := by
  unfold State.record
  dsimp only
  split <;> rfl

theorem State.repairRecord_eq (s : State) (k w : Nat) : s.repairRecord k w = { s with sb := (s.repairRecord k w).sb } := State.record_eq ..

/-- REPAIR_DONE of a staged word. -/
theorem exec_repairDone {s : State} {k : Fin 64} {w : Nat} (ok : Bool) (hready : s.ready = true) (hw : (s.tile k.val).staged = some w) :
    exec (.repairDone k ok) s = .next ((s.commitRepair k.val w ok).repairRecord k.val w) := by
  show execRepairDone k ok s = _
  simp [execRepairDone, hw, hready]

/-! ## The statement -/

/-- Settles O42, write by write: TILE_CONTROL acts on the state the tile holds, GO shows a result and may stage its word, and a commit's end
burns what was staged. -/
theorem tileControlAndRepair : Obligations.TileControlAndRepair := by
  intro s r k
  refine ⟨fun h => ⟨fun hf => ?_, fun hst hf => ?_, fun hst hf => ?_, fun hst hf => ?_, fun hst => ?_, fun hbusy hlock => ?_⟩,
    fun hready w hw ok => ?_⟩
  · rw [exec_tileQuarantine h, exec_tileRelease h, State.tileControl_of_retireFuse _ (by simpa using hf),
      State.tileControl_of_retireFuse _ (by simpa using hf)]
    exact ⟨rfl, rfl⟩
  · have hex : exec (.tileQuarantine r k) s =
        .next (((s.setStage r none).setTile k.val { s.tile k.val with st := .quarantined }).unburn k.val) := by
      rw [exec_tileQuarantine h, State.tileControl_quarantine_idle (by simpa using hf) (by simpa using hst), State.tile_setStage]
    obtain ⟨hburn, hregs⟩ := ((s.setStage r none).setTile k.val { s.tile k.val with st := .quarantined }).unburn_regs k
    refine ⟨_, hex, State.tile_setTile_self .., fun j hj => ?_, hburn, fun o ho => ?_, ?_⟩
    · exact (State.tile_setTile_ne _ _ hj).trans (State.tile_setStage ..)
    · exact (hregs o ho).trans (State.reg_setStage ..)
    · cases r <;> rfl
  · refine ⟨_, ?_, State.setTile_setStage_frame s r k.val _⟩
    rw [exec_tileQuarantine h, State.tileControl_quarantine_busy (by simpa using hf) (by simpa using hst), State.tile_setStage]
  · refine ⟨_, ?_, State.setTile_setStage_frame s r k.val _⟩
    rw [exec_tileRelease h, State.tileControl_release (by simpa using hf) (by simpa using hst), State.tile_setStage]
  · rw [exec_tileRelease h, State.tileControl_release_ne (by simpa using hst)]
  · have hbusy' : (s.setStage r none).fld (0x100288 + 0x1000 * k.val) 3 0 ≠ 1 := by simpa using hbusy
    have hlock' : (s.setStage r none).fld (0x10028C + 0x1000 * k.val) 0 0 = 0 := by simpa using hlock
    obtain ⟨hregs, hrest, hothers⟩ := State.repairGo_frame hbusy' hlock'
    refine ⟨_, exec_repairGo h r k, fun o ho => (hregs o ho).trans (State.reg_setStage ..), by simpa using hrest,
      fun j hj => (hothers j hj).trans (State.tile_setStage ..), fun hst => ?_, fun hst hkind hspare hfree => ?_⟩
    · rw [State.repairGo_of_not_quarantined hbusy' hlock' (by simpa using hst)]
      exact ⟨State.repairResult_fld _ _ _ (by decide), State.setStage_tiles ..⟩
    · rw [State.repairGo_of_checks hbusy' hlock' (by simpa using hst) (by simpa using hkind) (by simpa using hspare) (by simpa using hfree)]
      exact ⟨State.repairResult_fld _ _ _ (by decide), by simp⟩
  · obtain ⟨hstaged, hothers, hregs, hrest⟩ := s.commitEnds_commitRepair k.val w ok
    refine ⟨_, exec_repairDone ok hready hw, ?_⟩
    rw [State.repairRecord_eq]
    refine ⟨hstaged, ?_, hothers, hregs, fun hk => ?_, fun n hk hn hroom hok => ?_, congrArg (fun u : State => { u with sb := s.sb }) hrest⟩
    · have hsb := congrArg (fun u : State => u.sb.nextSeq) hrest
      exact (State.record_nextSeq ..).trans (congrArg (· + 1) hsb)
    · rw [State.commitRepair_retire _ _ hk]
      refine ⟨?_, ?_, State.repairResult_fld _ _ _ (by decide), fun hwin => ?_, fun hwin => ?_⟩
      · exact congrArg Tile.retireFuse (State.retire_tile s k.val)
      · exact congrArg Tile.st (State.retire_tile s k.val)
      · exact (State.keepTiles_sch s).trans (if_neg hwin)
      · exact (State.keepTiles_sch s).trans (if_pos hwin)
    · subst hok
      rw [State.commitRepair_map hk hn hroom]
      exact ⟨congrArg Tile.recs (State.tile_setTile_self ..), State.repairResult_fld _ _ _ (by decide), rfl⟩

end Sys2Proof.Machine
end

section
/-! SUPPORT. Tile instructions (04 R116-R121, R160, R163): the statement O59 refuted. -/

namespace Sys2Proof.Machine

/-! ## A second mismatch event in a command that stops already -/

/-- Rows of binary16 elements in the palette of logical tile 0. -/
def matrixRegion : Region :=
  { rho := 1, bind := 1, layout := 0, block := 0, fmt := 1, kind := 1, binding := 0, owner := 0, elemBase := 0, elemBytes := 0x100, scaleBase := 0
    scaleBytes := 0, rowPitch := 128, scalePitch := 0, rows := 2, rowElems := 64 }

/-- A program of one tile, on tile 0, whose code is one MMA: 2 x 2 x 2 in binary16, all operands in the one region. -/
def mmaProgram : Program :=
  { image := { regions := [matrixRegion]
               code := [[0x01110000, 2, 2, 2, 0x0101, 0, 0, 0x10000000, 0, 0x10000000, 0, 0, 0, 0, 0, 0x10000000]] }
    map := [0], palBase := [0], groupPanel := [], shrBase := [], statics := [], flags := 0, crc := 0 }

/-- Its MMA after its only m-group has run, not yet released, and after a first mismatch event. -/
def replayedMma : MmaProg :=
  { m := 2, n := 2, k := 2, np := 1, g := 0, todo := [(0, 0, 0)], mism := 1, replayPending := false }

/-- The tile that runs it. -/
def mmaTile : TileRun :=
  { logical := 0, phys := 0, pc := 0, ended := false, stopped := false, waitObj := none, waitMet := false, mma := some replayedMma }

/-- Its RUN. -/
def mmaRun : ProgRun :=
  { handle := 0, entry := 0, kind := 0, syncs := [], binds := [], words := [], bounds := [], scene := 0, frame := 1, streams := [], tiles := [mmaTile]
    entries := [], wrote := false, started := true, scattering := false, listLen := 0 }

/-- The running command. It stops already, with ECC_UNCORRECTABLE and as DETAIL the address (one more) of the failed read. `stopCmd` takes the
address out of the DETAIL it keeps (`ownDetail`), so no run of the machine leaves such a `stop`; the statement does not ask for that. -/
def addressedCmd : Cmd :=
  { tok := 0, qid := 0, op := 0x0101, flags := 0, tag := 0, notBefore := 0, waitValue := 0, signalValue := 0, signalObj := 0, waitObj := 0
    stream := 0, epoch := 0, seed := 0, par := List.replicate 16 0, phase := .running, begun := true, run := some mmaRun
    stop := some (0x4002, 1) }

/-- The module that runs it: tile 0 is granted and RUNNING, its results checked by RESIDUE. -/
def addressedState : State :=
  { State.reset with
    progs := [(0, { prog := some mmaProgram })], tiles := [(0, { st := .running, residueOn := true })], cmds := [addressedCmd], nextTok := 1
    sch := { units := [{ id := 0, tok := 0, kind := 0, entry := 0, tiles := [0], held := true, inst := 0, since := 0, readySeq := 0, readyAt := 0
                         asLc := false }], nextUnit := 1 } }

/-- A fault of physical column 1 in the first block sum of row 0. -/
def columnFault : ColFault := { col := 1, row := 0, blk := 0, delta := 1 }

/-- The tile as a row finds it. -/
def addressedTile : OnTile := { c := addressedCmd, r := mmaRun, p := mmaProgram, t := mmaTile }

theorem addressedState_onTile : addressedState.onTile 0 0 = some addressedTile := by decide +kernel

/-- The MMA. -/
def addressedMma : MmaI :=
  { sfmt := 1, afmt := 1, block := 0, init := false, conv := false, m := 2, n := 2, k := 2, cvt := 0x0101, site := 0
    a := { kind := 1, index := 0, row0 := 0, col0 := 0 }, b := { kind := 1, index := 0, row0 := 0, col0 := 0 }
    bias := { kind := 0, index := 0, row0 := 0, col0 := 0 }, add := { kind := 0, index := 0, row0 := 0, col0 := 0 }
    d := { kind := 1, index := 0, row0 := 0, col0 := 0 } }

theorem addressedTile_instr : addressedTile.instr = some (.mma addressedMma) := by decide +kernel

/-- The fault makes an event in the m-group that has run. -/
theorem addressedTile_late : (addressedTile.mctx addressedMma replayedMma).eventCols addressedState replayedMma.last
    ((replayedMma.todo.filter fun b => b.1 == replayedMma.last.1 && b.2.1 == replayedMma.last.2).map (·.2.2)) [columnFault] ≠ [] := by
  decide +kernel

/-- The event writes its RESIDUE record, and the end of the command an ECC record. -/
theorem exec_addressedMma_records : ∃ u, exec (.mma 0 0 [columnFault] .none) addressedState = .next u ∧
    u.sb.nextSeq = addressedState.sb.nextSeq + 2 :=
  ⟨_, rfl, by decide +kernel⟩

/-- Refutes O59: its clause on the second mismatch event says that one record is written. In `addressedState` the command stops already, its
`stop` naming the address of a failed read; the event lets the last tile rest, and the command's end records that read, too. The clause lacks
the premise that `stop` carries no address, as every `stopCmd` leaves it. -/
theorem not_tileInstructions : ¬ Obligations.TileInstructions := by
  intro h
  obtain ⟨-, -, hmma⟩ := h addressedState 0 0 addressedTile addressedState_onTile (by decide +kernel)
  obtain ⟨-, hevent, -⟩ := hmma addressedMma replayedMma addressedTile_instr rfl rfl
  obtain ⟨u, hu, -, hsecond⟩ := hevent [columnFault] addressedTile_late
  obtain ⟨hone, -⟩ := hsecond (by decide) rfl
  obtain ⟨v, hv, htwo⟩ := exec_addressedMma_records
  obtain rfl : u = v := Host.Outcome.next.inj (hu.symm.trans hv)
  omega

end Sys2Proof.Machine
end

section
/-! SUPPORT. Rules that commands with a lasting effect share: the command a token names (12 R383), its end (12 R382 step 6), counters (18 R546),
what a read of memory and a new unit leave alone (11 R338, 13 R415). -/

namespace Sys2Proof.Machine

/-- A fold whose every step keeps a reading of the state keeps it. -/
theorem foldl_keeps {σ α β : Type} {f : σ → α → σ} {g : σ → β} (hf : ∀ s a, g (f s a) = g s) (l : List α) :
    ∀ s, g (l.foldl f s) = g s := by
  induction l with
  | nil => exact fun _ => rfl
  | cons a l ih => exact fun s => (ih (f s a)).trans (hf s a)

/-! ## The command a token names -/

theorem mem_of_mem_insertBy {α : Type} {le : α → α → Bool} {x y : α} {l : List α} (h : y ∈ insertBy le x l) : y = x ∨ y ∈ l := by
  induction l with
  | nil => simpa [insertBy] using h
  | cons z l ih =>
    simp only [insertBy] at h
    split at h
    · simpa using h
    · rcases List.mem_cons.1 h with rfl | h
      · simp
      · exact (ih h).imp id (List.mem_cons_of_mem _)

theorem mem_of_mem_sortBy {α : Type} {le : α → α → Bool} {y : α} : ∀ {l : List α}, y ∈ sortBy le l → y ∈ l
  | [], h => h
  | _ :: _, h => (mem_of_mem_insertBy h).elim (fun e => e ▸ List.mem_cons_self) fun h => List.mem_cons_of_mem _ (mem_of_mem_sortBy h)

theorem State.firstFree_mem {s : State} {c : Cmd} : ∀ {cs seen : List Cmd}, s.firstFree seen cs = some c → c ∈ cs
  | d :: cs, seen, h => by
    unfold State.firstFree at h
    split at h
    · exact List.mem_cons_of_mem _ (State.firstFree_mem h)
    · exact Option.some.inj h ▸ List.mem_cons_self

/-- A command that may begin is in flight under its token. -/
theorem State.mem_of_mayBegin {s : State} {tok op : Nat} {c : Cmd} (h : s.mayBegin tok op = some c) : c ∈ s.cmds ∧ c.tok = tok := by
  unfold State.mayBegin at h
  split at h
  · obtain ⟨hfirst, hc⟩ := Option.filter_eq_some_iff.1 h
    simp only [Bool.and_eq_true, beq_iff_eq] at hc
    exact ⟨(List.mem_filter.1 (mem_of_mem_sortBy (State.firstFree_mem hfirst))).1, hc.1⟩
  · cases h

theorem State.cmd_tok {s : State} {tok : Nat} {c : Cmd} (h : s.cmd tok = some c) : c.tok = tok := by simpa using List.find?_some h

theorem State.Begins.cmd_eq {s : State} {tok op : Nat} {c : Cmd} (hb : s.Begins tok op c) : s.cmd tok = some c := by
  obtain ⟨hmem, htok⟩ := State.mem_of_mayBegin hb.may
  cases hd : s.cmd tok with
  | none => exact absurd (beq_iff_eq.2 htok) (List.find?_eq_none.1 hd c hmem)
  | some d => rw [hb.alone d (List.mem_of_find?_eq_some hd) (State.cmd_tok hd)]

theorem State.Runs.cmd_eq {s : State} {tok : Nat} {c : Cmd} (hr : s.Runs tok c) : s.cmd tok = some c := by
  have h := hr.runs
  unfold State.running at h
  split at h
  · exact (Option.filter_eq_some_iff.1 h).1
  · cases h

/-- A change that keeps tokens finds the same command under every token. -/
theorem State.find_updCmd (s : State) (tok k : Nat) {f : Cmd → Cmd} (hf : ∀ c, (f c).tok = c.tok) :
    (s.updCmd tok f).cmd k = (s.cmd k).map fun c => if c.tok = tok then f c else c := by
  have hp : ((fun c : Cmd => c.tok == k) ∘ fun c => if c.tok = tok then f c else c) = fun c => c.tok == k := by
    funext c
    by_cases hc : c.tok = tok <;> simp [hc, hf]
  unfold State.cmd State.updCmd
  rw [List.find?_map, hp]

theorem State.cmd_updCmd_self (s : State) (tok : Nat) {f : Cmd → Cmd} (hf : ∀ c, (f c).tok = c.tok) :
    (s.updCmd tok f).cmd tok = (s.cmd tok).map f :=
  (State.find_updCmd s tok tok hf).trans (Option.map_congr fun _ hc => if_pos (State.cmd_tok hc))

theorem State.cmd_updCmd_ne (s : State) {tok k : Nat} {f : Cmd → Cmd} (hf : ∀ c, (f c).tok = c.tok) (h : k ≠ tok) :
    (s.updCmd tok f).cmd k = s.cmd k :=
  (State.find_updCmd s tok k hf).trans
    ((Option.map_congr fun _ hc => if_neg fun e => h ((State.cmd_tok hc).symm.trans e)).trans Option.map_id_apply)

/-- The end of a command with a status that carries no address. -/
theorem State.endCmd_of_no_read (s : State) (tok : Nat) {st : Nat} (d : Nat) (h : st ≠ 0x4002 ∧ st ≠ 0x1002) :
    s.endCmd tok st d = s.updCmd tok fun c => { c with phase := .ended, status := st, detail := d, itDone := s.itNow } := by
  unfold State.endCmd
  rw [State.noteCmd_of_no_read _ _ _ h, ownDetail_of_no_read _ h]

/-- A hazard that is neither a hub error nor a corrected one lets a program command start where its port is not stalled (R159). -/
theorem State.meetStart_of_notAtHub {s : State} {c : Cmd} {h : Hazard} {k : State → State} (hh : notAtHub h)
    (hp : s.portHeld (srcHub 0) = false) : s.meetStart c h k = k s := by
  cases h with
  | none => simp [State.meetStart, State.meet, hp]
  | ue st w a =>
    cases st with
    | hub => exact absurd rfl hh
    | _ => rfl
  | ce => exact hh.elim
  | page => exact hh.elim
  | lockstep => exact hh.elim

/-! ## Counters and slots -/

theorem State.fld_word (s : State) (o : Nat) : s.fld o 31 0 = (s.reg o).toNat := by
  simpa [State.fld, bits] using Nat.mod_eq_of_lt (s.reg o).isLt

theorem State.counted_bump (s : State) (o n : Nat) : s.Counted (s.bump o n) o n := by
  unfold State.Counted
  rw [← State.fld_word, ← State.fld_word s, State.bump, State.bumpF, State.fld_setFld_self _ _ _ (by decide) (by decide)]
  exact Nat.mod_eq_of_lt (by omega)

theorem State.onlyRegs_bump (s : State) (o n : Nat) : s.OnlyRegs (s.bump o n) [o] :=
  fun _ hk => State.reg_setFld_ne _ _ _ _ (by simpa using hk)

@[simp] theorem State.pslot_setPslot_self (s : State) (i : Nat) (x : PSlot) : (s.setPslot i x).pslot i = x := SMap.get_set_self

theorem State.pslot_setPslot_ne (s : State) {i k : Nat} (x : PSlot) (h : k ≠ i) : (s.setPslot i x).pslot k = s.pslot k :=
  SMap.get_set_ne h

/-! ## Units -/

@[simp] theorem State.liftVt_units (s : State) (us : List SUnit) (c k : Nat) : (s.liftVt us c k).sch.units = s.sch.units := by
  unfold State.liftVt
  dsimp only
  split
  · rfl
  · split <;> rfl

theorem State.liftVt_rest (s : State) (us : List SUnit) (c k : Nat) : { s.liftVt us c k with sch := s.sch } = s := by
  unfold State.liftVt
  dsimp only
  split
  · rfl
  · split <;> rfl

/-- A new unit is listed last, of its command and kind, and not held (R415). -/
theorem State.addUnit_units (s : State) (tok kind entry : Nat) (tiles : List Nat) (sub : Nat) :
    ∃ u, (s.addUnit tok kind entry tiles sub).sch.units = s.sch.units ++ [u] ∧ u.tok = tok ∧ u.kind = kind ∧ u.held = false := by
  unfold State.addUnit
  dsimp only
  split
  · exact ⟨_, congrArg (· ++ _) (State.liftVt_units ..), rfl, rfl, rfl⟩
  · exact ⟨_, rfl, rfl, rfl, rfl⟩

/-- A new unit changes the scheduler alone. -/
theorem State.addUnit_rest (s : State) (tok kind entry : Nat) (tiles : List Nat) (sub : Nat) (x : Sched) :
    { s.addUnit tok kind entry tiles sub with sch := x } = { s with sch := x } := by
  unfold State.addUnit
  dsimp only
  split
  · exact congrArg (fun t : State => { t with sch := x }) (State.liftVt_rest s s.sch.units _ kind)
  · rfl

theorem State.foldl_addUnit_units (tok kind : Nat) (js : List Nat) : ∀ s : State,
    ∃ l, (js.foldl (fun s j => s.addUnit tok kind j []) s).sch.units = s.sch.units ++ l ∧ l.length = js.length ∧
      ∀ u ∈ l, u.tok = tok ∧ u.kind = kind ∧ u.held = false := by
  induction js with
  | nil => exact fun s => ⟨[], by simp⟩
  | cons j js ih =>
    intro s
    obtain ⟨u, hu, hnew⟩ := State.addUnit_units s tok kind j [] 0
    obtain ⟨l, hl, hlen, hall⟩ := ih (s.addUnit tok kind j [])
    exact ⟨u :: l, by simp [hl, hu], by simp [hlen], List.forall_mem_cons.2 ⟨hnew, hall⟩⟩

theorem State.addUnits_units (s : State) (tok kind cap n : Nat) :
    ∃ l, (s.addUnits tok kind cap n).sch.units = s.sch.units ++ l ∧ l.length = min cap n ∧
      ∀ u ∈ l, u.tok = tok ∧ u.kind = kind ∧ u.held = false := by
  have h := State.foldl_addUnit_units tok kind (List.range (min cap n)) s
  rwa [List.length_range] at h

theorem State.addUnits_rest (s : State) (tok kind cap n : Nat) (x : Sched) :
    { s.addUnits tok kind cap n with sch := x } = { s with sch := x } :=
  foldl_keeps (g := fun t : State => { t with sch := x }) (fun s j => State.addUnit_rest s tok kind j [] 0 x) _ s

section
variable (s : State) (tok : Nat) (ps : List Piece)

/-- Mover work takes at most 16 movers (R346). -/
theorem State.startPieces_units : ∃ l, (s.startPieces tok ps).sch.units = s.sch.units ++ l ∧ l.length = min 16 ps.length ∧
    ∀ u ∈ l, u.tok = tok ∧ u.kind = 6 ∧ u.held = false := State.addUnits_units ..

theorem State.startPieces_cmds :
    (s.startPieces tok ps).cmds = (s.updCmd tok fun d => { d with pieces := ps, total := ps.length }).cmds := by
  have h := congrArg State.cmds
    (State.addUnits_rest (s.updCmd tok fun d => { d with pieces := ps, total := ps.length }) tok 6 16 ps.length s.sch)
  exact h

theorem State.startPieces_rest : { s.startPieces tok ps with cmds := s.cmds, sch := s.sch } = s := by
  have h := congrArg (fun t : State => { t with cmds := s.cmds })
    (State.addUnits_rest (s.updCmd tok fun d => { d with pieces := ps, total := ps.length }) tok 6 16 ps.length s.sch)
  exact h

end

/-! ## Reads: what they do to the granule table leaves every command alone -/

theorem State.readPages_cmds (s : State) (g p n : Nat) : (s.readPages g p n).cmds = s.cmds := by
  unfold State.readPages
  split
  · rfl
  · refine foldl_keeps (g := State.cmds) (fun s i => ?_) _ s
    split <;> rfl

theorem State.sweepTo_cmds (fuel : Nat) : ∀ s : State, (s.sweepTo fuel).1.cmds = s.cmds := by
  induction fuel with
  | zero => exact fun _ => rfl
  | succ fuel ih =>
    intro s
    unfold State.sweepTo
    dsimp only
    split
    · exact ih _
    split
    · exact ih _
    split
    · exact ih _
    · rfl

theorem State.startFill_cmds (s : State) (g : Nat) : (s.startFill g).cmds = s.cmds := by
  unfold State.startFill
  dsimp only
  split
  · rfl
  split
  · rfl
  split
  · rfl
  split
  · rfl
  have hsweep := State.sweepTo_cmds (2 * s.resFrames) s
  split
  · next h =>
    rw [h] at hsweep
    split <;> exact hsweep
  · next h =>
    rw [h] at hsweep
    split <;> exact hsweep

theorem State.touchPart_cmds (s : State) (promote : Bool) (a n g : Nat) : (s.touchPart promote a n g).cmds = s.cmds := by
  have hread (x : Granule) (p n : Nat) : ((s.setGranule g x).readPages g p n).cmds = s.cmds := State.readPages_cmds ..
  unfold State.touchPart
  dsimp only
  split
  · rfl
  split
  · split
    · exact (State.startFill_cmds ..).trans (hread ..)
    · exact hread ..
  · split
    · exact (State.startFill_cmds ..).trans (hread ..)
    · exact hread ..

theorem State.touchLoc_cmds (s : State) (promote : Bool) (l : Loc) (n : Nat) : (s.touchLoc promote l n).cmds = s.cmds := by
  unfold State.touchLoc
  split
  · split
    · rfl
    unfold State.touch
    split
    · rfl
    · exact foldl_keeps (g := State.cmds) (fun s g => State.touchPart_cmds s promote _ n g) _ s
  · rfl

end Sys2Proof.Machine
end

section
/-! SUPPORT. A program's reservations (05 R141, R168, R172): what clearing them leaves, byte by byte and around them. -/

namespace Sys2Proof.Machine

theorem SMap.get_erase_of_default {α : Type} {d : Nat → α} {lo n k : Nat} {m : SMap α} (h : SMap.get d m k = d k) :
    SMap.get d (SMap.erase lo n m) k = d k := by
  by_cases hk : lo ≤ k ∧ k < lo + n
  · exact SMap.get_erase_in hk.1 hk.2
  · rw [SMap.get_erase_out (by omega), h]

/-- After several ranges have been erased, a key in one of them reads as the default. -/
theorem SMap.get_foldl_erase {α β : Type} {d : Nat → α} {lo n : β → Nat} {k : Nat} (xs : List β) : ∀ m : SMap α,
    (SMap.get d m k = d k ∨ ∃ e ∈ xs, lo e ≤ k ∧ k < lo e + n e) →
    SMap.get d (xs.foldl (fun m e => SMap.erase (lo e) (n e) m) m) k = d k := by
  induction xs with
  | nil => intro m h; simpa using h
  | cons e xs ih =>
    intro m h
    refine ih _ ?_
    rcases h with h | ⟨e', he, hk⟩
    · exact .inl (SMap.get_erase_of_default h)
    · rcases List.mem_cons.1 he with rfl | he
      · exact .inl (SMap.get_erase_in hk.1 hk.2)
      · exact .inr ⟨e', he, hk⟩

theorem mem_zip_range {α : Type} {l : List α} {i : Nat} {a : α} (h : l[i]? = some a) : (i, a) ∈ (List.range l.length).zip l := by
  obtain ⟨hi, ha⟩ := List.getElem?_eq_some_iff.1 h
  exact List.mem_iff_getElem?.2 ⟨i, by simp [hi, ha]⟩

section
variable (s : State) (p : Program)

theorem State.zeroProgram_pal : (s.zeroProgram p).pal =
    ((List.range p.image.ltiles.length).zip p.image.ltiles).foldl
      (fun m e => SMap.erase (palBytes * p.phys e.1 + p.palBase.getD e.1 0) e.2.resvBytes m) s.pal := by
  unfold State.zeroProgram
  exact (foldl_keeps (g := State.pal) (fun _ _ => by rfl) _ _).trans (List.foldl_hom State.pal fun _ _ => by rfl).symm

/-- Every byte of a logical tile's reservation is zero. -/
theorem State.zeroProgram_reads_zero {i n : Nat} {l : LTile} (h : p.image.ltiles[i]? = some l) (hn : n < l.resvBytes) :
    SMap.get (fun _ => 0) (s.zeroProgram p).pal (palBytes * p.phys i + p.palBase.getD i 0 + n) = 0 := by
  rw [State.zeroProgram_pal]
  exact SMap.get_foldl_erase _ _ (.inr ⟨(i, l), mem_zip_range h, Nat.le_add_right .., Nat.add_lt_add_left hn _⟩)

theorem State.zeroProgram_rest : { s.zeroProgram p with pal := s.pal, shr := s.shr } = s := by
  unfold State.zeroProgram
  refine Eq.trans (foldl_keeps (g := fun t : State => { t with pal := s.pal, shr := s.shr }) ?_ _ _)
    (foldl_keeps (g := fun t : State => { t with pal := s.pal, shr := s.shr }) ?_ _ s)
  · exact fun _ _ => rfl
  · exact fun _ _ => rfl

theorem State.zeroProgram_cmds : (s.zeroProgram p).cmds = s.cmds := by
  have h := congrArg State.cmds (State.zeroProgram_rest s p)
  exact h

theorem State.pslot_zeroProgram (i : Nat) : (s.zeroProgram p).pslot i = s.pslot i := by
  have h := congrArg (State.pslot · i) (State.zeroProgram_rest s p)
  exact h

theorem State.copyCode_cmds : (s.copyCode p).cmds = s.cmds := by
  unfold State.copyCode
  exact foldl_keeps (g := State.cmds) (fun _ _ => by rfl) _ s

end

end Sys2Proof.Machine
end

section
/-! SUPPORT. LOAD_PROGRAM, RUN and UNLOAD_PROGRAM (05 R141-R144, R159, R168-R172): one lemma per outcome. -/

namespace Sys2Proof.Machine

/-! ## LOAD_PROGRAM (R164, R168-R170) -/

/-- Reading the image leaves every command alone; the static binding list was read at dispatch (R389). -/
theorem State.loadIn_keeps {s : State} {c : Cmd} {x : State × LoadIn} (h : s.loadIn c = .ok x) :
    x.1.cmds = s.cmds ∧ x.2.statics = c.bufs := by
  unfold State.loadIn at h
  dsimp only at h
  split at h
  · obtain rfl := Except.ok.inj h
    exact ⟨State.touchLoc_cmds .., rfl⟩
  · cases h
  · cases h

section
variable {s : State} {tok slot : Nat} {c : Cmd} {x : State × LoadIn}

theorem execLoadProgram_of_refusal {e : Nat × Nat} (hb : s.Begins tok 0x0100 c) (hx : s.loadIn c = .ok x)
    (he : x.2.refusal (c.w 0x48) = some e) : exec (.loadProgram tok) s = .next (x.1.endedAt tok 0x1003 (reject e.2 e.1)) := by
  show execLoadProgram tok s = _
  simp [execLoadProgram, hb.may, hx, he, State.after, bind, Except.bind, pure, Except.pure, State.instant_eq_endedAt]

theorem execLoadProgram_of_no_place {d : Nat} (hb : s.Begins tok 0x0100 c) (hx : s.loadIn c = .ok x)
    (he : x.2.refusal (c.w 0x48) = none) (hslot : x.1.freeSlot = some slot) (hd : x.1.place x.2.im (c.flag 0) = .error d) :
    exec (.loadProgram tok) s = .next (x.1.endedAt tok 0x1004 d) := by
  show execLoadProgram tok s = _
  simp [execLoadProgram, hb.may, hx, he, hslot, hd, State.after, bind, Except.bind, pure, Except.pure, State.instant_eq_endedAt]

theorem execLoadProgram_of_place {w : Placing} (hb : s.Begins tok 0x0100 c) (hx : s.loadIn c = .ok x)
    (he : x.2.refusal (c.w 0x48) = none) (hslot : x.1.freeSlot = some slot) (hw : x.1.place x.2.im (c.flag 0) = .ok w) :
    exec (.loadProgram tok) s = .next (x.1.loadPlaced tok c x.2 slot w) := by
  show execLoadProgram tok s = _
  simp [execLoadProgram, hb.may, hx, he, hslot, hw, State.after, bind, Except.bind, pure, Except.pure]

end

/-- The program that a load makes of an image and its placement (R168). -/
def LoadIn.program (l : LoadIn) (flags : Nat) (w : Placing) : Program :=
  { image := l.im, map := w.map, palBase := w.palBase, groupPanel := w.panel, shrBase := w.shrBase, statics := l.statics
    flags := flags % 4, crc := cW l.c 0x3C }

/-- A load that has reserved: its code stands in its reservations, and its command holds the slot and the program (R168 step 3). -/
def State.loading (s : State) (tok slot : Nat) (p : Program) : State :=
  (((s.zeroProgram p).copyCode p).begin_ tok).updCmd tok fun d => { d with load := some (slot, p) }

theorem State.loadPlaced_eq (s : State) (tok slot : Nat) (c : Cmd) (l : LoadIn) (w : Placing) : s.loadPlaced tok c l slot w =
    if (l.program c.flags w).palInits = [] then (s.loading tok slot (l.program c.flags w)).finishLoad tok
    else (s.loading tok slot (l.program c.flags w)).startPieces tok (l.program c.flags w).palInits := by
  simp only [← List.isEmpty_iff]
  rfl

theorem State.loading_cmd {s : State} {tok slot : Nat} {p : Program} {c : Cmd} (h : s.cmd tok = some c) :
    (s.loading tok slot p).cmd tok = some { c with phase := .running, begun := true, profile := ((s.zeroProgram p).copyCode p).profile
                                                   load := some (slot, p) } := by
  have hc : ((s.zeroProgram p).copyCode p).cmd tok = some c := by
    rw [State.cmd, State.copyCode_cmds, State.zeroProgram_cmds]
    exact h
  unfold State.loading State.begin_
  rw [State.cmd_updCmd_self, State.cmd_updCmd_self, hc]
  · rfl
  · exact fun _ => rfl
  · exact fun _ => rfl

/-- `t` is `s` with program `p` in its slot under the next generation, and its load, `d`, ended with the handle (R168 step 4, R169). -/
structure State.Loaded (s t : State) (tok slot : Nat) (p : Program) (d : Cmd) : Prop where
  cmd : t.cmd tok = some { d with
    load := none, phase := .ended, status := 0, detail := slot + 64 * nextGen (s.pslot slot).gen, itDone := s.itNow }
  filled : t.pslot slot = { gen := nextGen (s.pslot slot).gen, prog := some p }
  slots : ∀ k, k ≠ slot → t.pslot k = s.pslot k
  others : s.SameOthers t tok
  rest : { t with progs := s.progs, cmds := s.cmds } = s

/-- A load whose mapping has been written is finished. -/
theorem State.finishLoad_of_written {s u : State} {tok slot : Nat} {p : Program} {c d : Cmd} (hc : s.cmd tok = some c)
    (hload : c.load = some (slot, p))
    (hu : s.wr (locH (c.q 0x58)) (((List.range 64).map fun i => p.map.getD i 0xFF).flatMap (leBytes 1)) = .ok u)
    (hd : u.cmd tok = some d) : u.Loaded (s.finishLoad tok) tok slot p d := by
  have hend : s.finishLoad tok = ((u.setPslot slot { gen := nextGen (u.pslot slot).gen, prog := some p }).updCmd tok fun c =>
      { c with load := none }).endCmd tok 0 (slot + 64 * nextGen (u.pslot slot).gen) := by
    simp only [State.finishLoad, hc, hload, hu, State.after, bind, Except.bind, pure, Except.pure]
  rw [hend, State.endCmd_of_no_read _ _ _ (by decide), State.updCmd_updCmd]
  case hf => exact fun _ => rfl
  exact {
    cmd := by
      rw [State.cmd_updCmd_self]
      · exact congrArg (Option.map _) hd
      · exact fun _ => rfl
    filled := State.pslot_setPslot_self ..
    slots := fun _ hk => State.pslot_setPslot_ne _ _ hk
    others := fun _ hk => State.cmd_updCmd_ne _ (fun _ => rfl) hk
    rest := rfl }

/-! ## RUN (R120, R159, R171) -/

/-- The work of a RUN whose bounds are resolved (R159, R171). -/
def Cmd.runOf (c : Cmd) (p : Program) (bounds : SMap (Option Nat)) : ProgRun :=
  { handle := c.f 0x40 15 0, entry := c.f 0x40 23 16, kind := 0, syncs := c.syncs, binds := p.bufs 1 fun i => c.bufs[i]?, words := c.words
    bounds := bounds, scene := 0, frame := 1, streams := [], tiles := [], entries := [], wrote := false, started := false
    scattering := false, listLen := 0 }

section
variable {s : State} {tok : Nat} {c : Cmd} {h : Hazard} {p : Program}

theorem execRun_of_no_program (hb : s.Begins tok 0x0101 c) (hh : notAtHub h) (hport : s.portHeld (srcHub 0) = false)
    (hp : s.programFor c (c.f 0x40 15 0) = none) : exec (.run ⟨tok, h⟩) s = .next (s.endedAt tok 0x1003 (reject 0 0x13)) := by
  show execRun ⟨tok, h⟩ s = _
  simp [execRun, hb.may, State.meetStart_of_notAtHub hh hport, hp, State.instant_eq_endedAt]

theorem execRun_of_other_kind (hb : s.Begins tok 0x0101 c) (hh : notAtHub h) (hport : s.portHeld (srcHub 0) = false)
    (hp : s.programFor c (c.f 0x40 15 0) = some p) (hk : p.image.entries[c.f 0x40 23 16]?.map (·.kind) ≠ some 0) :
    exec (.run ⟨tok, h⟩) s = .next (s.endedAt tok 0x1003 (reject (c.f 0x40 23 16) 0x11)) := by
  show execRun ⟨tok, h⟩ s = _
  unfold execRun
  rw [hb.may]
  dsimp only
  rw [State.meetStart_of_notAtHub hh hport, hp]
  dsimp only
  rw [if_pos hk, State.instant_eq_endedAt _ _ _ (by decide)]

/-- RUN of an entry of kind 0: its bindings, then its tiles, then its bounds decide. -/
theorem execRun_of_program (hb : s.Begins tok 0x0101 c) (hh : notAtHub h) (hport : s.portHeld (srcHub 0) = false)
    (hp : s.programFor c (c.f 0x40 15 0) = some p) (hk : p.image.entries[c.f 0x40 23 16]?.map (·.kind) = some 0) :
    (∀ b, p.image.badBinding 1 (fun i => c.bufs[i]?) = some b →
      exec (.run ⟨tok, h⟩) s = .next (s.endedAt tok 0x1003 (reject b 0x12))) ∧
    (∀ k, p.image.badBinding 1 (fun i => c.bufs[i]?) = none → s.blockedTile (p.needed (c.f 0x40 23 16)) = some k →
      exec (.run ⟨tok, h⟩) s = .next (s.endedAt tok 0x4003 k)) ∧
    (∀ b, p.image.badBinding 1 (fun i => c.bufs[i]?) = none → s.blockedTile (p.needed (c.f 0x40 23 16)) = none →
      s.startBounds { p := p, binds := p.bufs 1 fun i => c.bufs[i]? } c.words 0 (c.f 0x40 23 16) h = .ok b →
      exec (.run ⟨tok, h⟩) s =
        .next ((((b.1.begin_ tok).updCmd tok fun d => { d with run := some (c.runOf p b.2) }).startProgram tok).tryFinish tok)) := by
  have hexec : exec (.run ⟨tok, h⟩) s = execRun ⟨tok, h⟩ s := rfl
  rw [hexec]
  unfold execRun
  rw [hb.may]
  dsimp only
  rw [State.meetStart_of_notAtHub hh hport, hp]
  dsimp only
  rw [if_neg fun hne => hne hk]
  refine ⟨fun b hbad => ?_, fun k hbad hblock => ?_, fun b hbad hblock hbounds => ?_⟩
  · simp [hbad, State.after, State.instant_eq_endedAt, pure, Except.pure]
  · simp [hbad, hblock, State.after, State.instant_eq_endedAt, pure, Except.pure]
  · simp only [ProgRun.ctx, hbad, hblock, hbounds, State.after, pure, Except.pure, Cmd.runOf]

end

/-! ## UNLOAD_PROGRAM (R169, R172) -/

theorem State.inScene_eq_true {s : State} {h : Nat} : s.inScene h = true ↔ ∃ e ∈ s.scenes, ∃ x, e.2 = some x ∧ x.program = h := by
  unfold State.inScene
  rw [List.any_eq_true]
  refine exists_congr fun e => and_congr_right fun _ => ?_
  cases e.2 <;> simp

/-- A program out of its slot, its reservations zero. -/
def State.unloaded (s : State) (p : Program) (i : Nat) : State :=
  (s.zeroProgram p).setPslot i { (s.zeroProgram p).pslot i with prog := none }

theorem State.pslot_unloaded_self (s : State) (p : Program) (i : Nat) : (s.unloaded p i).pslot i = { s.pslot i with prog := none } := by
  rw [State.unloaded, State.pslot_setPslot_self, State.pslot_zeroProgram]

theorem State.pslot_unloaded_ne (s : State) (p : Program) {i k : Nat} (h : k ≠ i) : (s.unloaded p i).pslot k = s.pslot k :=
  (State.pslot_setPslot_ne _ _ h).trans (State.pslot_zeroProgram ..)

theorem State.unloaded_rest (s : State) (p : Program) (i : Nat) :
    { s.unloaded p i with progs := s.progs, pal := s.pal, shr := s.shr } = s :=
  congrArg (fun t : State => { t with progs := s.progs }) (State.zeroProgram_rest s p)

section
variable {s : State} {tok : Nat} {c : Cmd} {p : Program}

theorem execUnloadProgram_of_no_program (hb : s.Begins tok 0x0102 c) (hp : s.program (c.f 0x40 15 0) = none) :
    exec (.unloadProgram tok) s = .next (s.endedAt tok 0x1003 (reject 0 0x13)) := by
  show execUnloadProgram tok s = _
  simp [execUnloadProgram, hb.may, hp, State.instant_eq_endedAt]

theorem execUnloadProgram_of_inScene (hb : s.Begins tok 0x0102 c) (hp : s.program (c.f 0x40 15 0) = some p)
    (hin : s.inScene (c.f 0x40 15 0) = true) : exec (.unloadProgram tok) s = .next (s.endedAt tok 0x1003 (reject 0 0x14)) := by
  show execUnloadProgram tok s = _
  simp [execUnloadProgram, hb.may, hp, hin, State.instant_eq_endedAt]

theorem execUnloadProgram_of_unnamed (hb : s.Begins tok 0x0102 c) (hp : s.program (c.f 0x40 15 0) = some p)
    (hin : s.inScene (c.f 0x40 15 0) = false) :
    exec (.unloadProgram tok) s = .next ((s.unloaded p (c.f 0x40 15 0 % 64)).endedAt tok 0 0) := by
  show execUnloadProgram tok s = _
  simp [execUnloadProgram, hb.may, hp, hin, State.instant_eq_endedAt, State.unloaded]

end

end Sys2Proof.Machine
end

section
/-! SUPPORT. CHECKPOINT and RESTORE (15 R487-R492): one lemma per outcome, and the statement O55 settled. -/

namespace Sys2Proof.Machine

/-! ## CHECKPOINT (R487-R490) -/

/-- The streams a CHECKPOINT names: its list, or every stream of the scene (R487). -/
def State.ckStreams (s : State) (c : Cmd) : List Nat := if c.f 0x44 14 0 = 0 then s.sceneStreams (c.f 0x40 4 0) else c.targets

section
variable {s : State} {tok : Nat} {c : Cmd} {sc : Scene} {p : Program}

theorem execCheckpoint_of_no_scene (hb : s.Begins tok 0x0800 c) (h : s.scene (c.f 0x40 4 0) = none) :
    exec (.checkpoint tok) s = .next (s.endedAt tok 0x2007 0) := by
  show execCheckpoint tok s = _
  simp [execCheckpoint, hb.may, h, State.instant_eq_endedAt]

theorem execCheckpoint_of_bad_stream (hb : s.Begins tok 0x0800 c) (hsc : s.scene (c.f 0x40 4 0) = some sc) (hp : s.sceneProg sc = some p)
    (h : ∃ j ∈ s.ckStreams c, (s.strm j).st = .free ∨ (s.strm j).scene ≠ c.f 0x40 4 0 ∨ 16384 ≤ j) :
    exec (.checkpoint tok) s = .next (s.endedAt tok 0x2005 0) := by
  have hany : ((s.ckStreams c).any fun j => (s.strm j).st == .free || (s.strm j).scene != c.f 0x40 4 0 || decide (16384 ≤ j)) = true := by
    obtain ⟨j, hj, hbad⟩ := h
    exact List.any_eq_true.2 ⟨j, hj, by simpa [or_assoc] using hbad⟩
  show execCheckpoint tok s = _
  unfold execCheckpoint
  rw [hb.may]
  dsimp only
  rw [hsc]
  dsimp only
  rw [hp]
  dsimp only
  rw [if_pos (by rw [← State.ckStreams, hany, Bool.or_true]), State.instant_eq_endedAt _ _ _ (by decide)]

/-- A CHECKPOINT that passes its checks clears the image's header, and its captures follow. -/
theorem execCheckpoint_of_checks {ps : State × List Nat} {u : State} (hb : s.Begins tok 0x0800 c)
    (hsc : s.scene (c.f 0x40 4 0) = some sc) (hp : s.sceneProg sc = some p) (hrep : repeats (s.ckStreams c) = false)
    (hss : ∀ j ∈ s.ckStreams c, (s.strm j).st ≠ .free ∧ (s.strm j).scene = c.f 0x40 4 0 ∧ j < 16384) (hbase : c.q 0x50 % mib2 = 0)
    (hps : s.allPages (s.ckStreams c) = .ok ps)
    (hsize : imageSize ps.1.pool p.image.sBytes (s.ckStreams c).length ps.2.length ≤ c.q 0x58)
    (hu : (ps.1.begin_ tok).wr (.dva (c.q 0x50)) (List.replicate 64 0) = .ok u) :
    exec (.checkpoint tok) s = .next (u.updCmd tok fun d => { d with targets := [], ck := some { todo := s.ckStreams c } }) := by
  have hany : ((s.ckStreams c).any fun j => (s.strm j).st == .free || (s.strm j).scene != c.f 0x40 4 0 || decide (16384 ≤ j)) = false := by
    refine List.any_eq_false.2 fun j hj => ?_
    obtain ⟨hst, hscene, hid⟩ := hss j hj
    simp [hst, hscene, hid]
  show execCheckpoint tok s = _
  unfold execCheckpoint
  rw [hb.may]
  dsimp only
  rw [hsc]
  dsimp only
  rw [hp]
  dsimp only
  rw [← State.ckStreams, if_neg (by rw [hrep, hany]; decide), if_neg fun hne => hne hbase]
  simp only [hps, if_neg (Nat.not_lt.2 hsize), hu, State.after, bind, Except.bind, pure, Except.pure]

/-- The last row of a CHECKPOINT that has written everything and met no failure (R490). -/
theorem execCheckpoint_of_written {w : CkWork} (hr : s.Runs tok c) (hphase : c.phase = .running) (hmay : s.mayBegin tok 0x0800 = none)
    (hw : c.ck = some w) (hsc : s.scene (c.f 0x40 4 0) = some sc) (hp : s.sceneProg sc = some p) (htodo : w.todo = [])
    (hwritten : w.written = true) (hsend : w.send = []) (hheader : w.header = []) (hrem : c.remotes = 0) (htargets : c.targets = [])
    (hfail : c.rfail = none) (hst : c.status = 0) : exec (.checkpoint tok) s = .next (s.endCk tok 0 c.detail) := by
  show execCheckpoint tok s = _
  unfold execCheckpoint
  rw [hmay]
  dsimp only
  rw [hr.runs, Option.filter_some, if_pos (by simp [hphase])]
  simp [hw, State.stepCk, hsc, hp, htodo, hwritten, hsend, hheader, hrem, htargets, hfail, hst, State.cmd_tok hr.cmd_eq]

end

/-- A good end counts in CHECKPOINTS and ends the command. -/
theorem State.endCk_good (s : State) (tok d : Nat) : s.endCk tok 0 d = (s.bump 0x260044 1).updCmd tok fun c =>
    { c with ck := none, phase := .ended, status := 0, detail := d, itDone := s.itNow } := by
  unfold State.endCk
  rw [if_pos rfl, State.endCmd_of_no_read _ _ _ (by decide), State.updCmd_updCmd]
  · rfl
  · exact fun _ => rfl

theorem State.cmd_endCk_good {s : State} {tok : Nat} {c : Cmd} (hc : s.cmd tok = some c) (d : Nat) : (s.endCk tok 0 d).cmd tok =
    some { c with ck := none, phase := .ended, status := 0, detail := d, itDone := s.itNow } := by
  rw [State.endCk_good, State.cmd_updCmd_self]
  · exact congrArg (Option.map _) hc
  · exact fun _ => rfl

/-! ## RESTORE (R491, R492) -/

section
variable {s u : State} {tok : Nat} {c : Cmd} {cs : SMap Byte} {e : Nat × Nat}

/-- An image that cannot be restored is told by two statuses, neither of them a failed read's. -/
theorem State.readImage_error (h : s.readImage c = .ok (u, .error e)) : e = (0x1003, 0x15) ∨ e = (0x7001, 0) := by
  unfold State.readImage at h
  simp only [bind, Except.bind, pure, Except.pure] at h
  split at h
  · cases h
  split at h
  · cases h
    exact .inl rfl
  split at h
  · cases h
  split at h
  · cases h
    exact .inr rfl
  · cases h

/-- No check of an image against its scene gives a failed read's status. -/
theorem State.restoreBad_status (h : s.restoreBad c cs = some e) : e.1 ≠ 0x4002 ∧ e.1 ≠ 0x1002 := by
  unfold State.restoreBad at h
  dsimp only at h
  repeat' split at h
  all_goals cases h
  all_goals decide

theorem execRestore_of_bad_image (hb : s.Begins tok 0x0801 c) (h : s.readImage c = .ok (u, .error e)) :
    exec (.restore tok) s = .next (u.endedAt tok e.1 e.2) := by
  have he : e.1 ≠ 0x4002 ∧ e.1 ≠ 0x1002 := by rcases State.readImage_error h with rfl | rfl <;> decide
  show execRestore tok s = _
  simp [execRestore, hb.may, h, State.after, bind, Except.bind, pure, Except.pure, State.instant_eq_endedAt _ _ _ he]

theorem execRestore_of_check_only (hb : s.Begins tok 0x0801 c) (h : s.readImage c = .ok (u, .ok cs)) (hf : c.flag 0 = true) :
    exec (.restore tok) s = .next (u.endedAt tok 0 0) := by
  show execRestore tok s = _
  simp [execRestore, hb.may, h, hf, State.after, bind, Except.bind, pure, Except.pure, State.instant_eq_endedAt]

theorem execRestore_of_bad (hb : s.Begins tok 0x0801 c) (h : s.readImage c = .ok (u, .ok cs)) (hf : c.flag 0 = false)
    (he : u.restoreBad c cs = some e) : exec (.restore tok) s = .next (u.endedAt tok e.1 e.2) := by
  show execRestore tok s = _
  simp [execRestore, hb.may, h, hf, he, State.after, bind, Except.bind, pure, Except.pure,
    State.instant_eq_endedAt _ _ _ (State.restoreBad_status he)]

theorem execRestore_of_good {v : State} (hb : s.Begins tok 0x0801 c) (h : s.readImage c = .ok (u, .ok cs)) (hf : c.flag 0 = false)
    (he : u.restoreBad c cs = none) (hv : u.restore c cs = .ok v) :
    exec (.restore tok) s = .next ((v.bump 0x260048 1).endedAt tok 0 0) := by
  show execRestore tok s = _
  simp [execRestore, hb.may, h, hf, he, hv, State.after, bind, Except.bind, pure, Except.pure, State.instant_eq_endedAt]

end

/-! ## The statement -/

/-- Settles O55, command by command and outcome by outcome. That the lowest free slot is taken and that a load is checked and placed in one
row is the model's choice (log entries 46, 47). -/
theorem programsAndImages : Obligations.ProgramsAndImages := by
  intro s tok c
  refine ⟨fun hb x hx => ⟨fun e he => execLoadProgram_of_refusal hb hx he, fun slot he hslot =>
      ⟨fun d hd => execLoadProgram_of_no_place hb hx he hslot hd, fun w hw => ?_⟩⟩,
    fun h hh hport hb => ⟨execRun_of_no_program hb hh hport, fun p hp => ⟨execRun_of_other_kind hb hh hport hp, fun hk => ?_⟩⟩,
    fun hb => ⟨execUnloadProgram_of_no_program hb, fun p hp => ⟨fun hin => ?_, fun hin => ?_⟩⟩,
    fun hb => ⟨execCheckpoint_of_no_scene hb, fun sc p hsc hp => ⟨execCheckpoint_of_bad_stream hb hsc hp, ?_⟩⟩,
    fun w hr hphase hmay hw hsc hp htodo hwritten hsend hheader hrem htargets hfail hst => ?_,
    fun hb u => ⟨fun e he _ => execRestore_of_bad_image hb he, fun cs hcs => ⟨execRestore_of_check_only hb hcs, fun hf =>
      ⟨fun e he => execRestore_of_bad hb hcs hf he, fun v he hv => ?_⟩⟩⟩⟩
  · obtain ⟨hcmds, hstatics⟩ := State.loadIn_keeps hx
    have hexec := execLoadProgram_of_place hb hx he hslot hw
    rw [State.loadPlaced_eq] at hexec
    refine ⟨x.2.program c.flags w, rfl, rfl, rfl, rfl, rfl, hstatics, fun hinit => ?_, fun u d hinit hu hd _ _ => ?_⟩
    · rw [if_neg hinit] at hexec
      exact ⟨_, hexec, State.startPieces_units .., State.startPieces_cmds .., State.startPieces_rest ..⟩
    · rw [if_pos hinit] at hexec
      have hc : x.1.cmd tok = some c := by rw [State.cmd, hcmds]; exact hb.cmd_eq
      have hdone := State.finishLoad_of_written (State.loading_cmd hc) rfl hu hd
      exact ⟨_, hexec, hdone.cmd, hdone.filled, hdone.slots, hdone.others, hdone.rest⟩
  · obtain ⟨hbind, htile, hstart⟩ := execRun_of_program hb hh hport hp hk
    exact ⟨hbind, htile, fun b hbad hblock hbounds => ⟨c.runOf p b.2, rfl, rfl, rfl, rfl, rfl, rfl, hstart b hbad hblock hbounds⟩⟩
  · exact execUnloadProgram_of_inScene hb hp (State.inScene_eq_true.2 hin)
  · have hout : s.inScene (c.f 0x40 15 0) = false := Bool.eq_false_iff.2 fun h => by
      obtain ⟨e, he, y, hy, hn⟩ := State.inScene_eq_true.1 h
      exact hin e he y hy hn
    have hself := State.pslot_unloaded_self s p (c.f 0x40 15 0 % 64)
    exact ⟨_, execUnloadProgram_of_unnamed hb hp hout, by rw [hself], by rw [hself], fun _ hk => State.pslot_unloaded_ne s p hk,
      fun i l hl n hn => State.zeroProgram_reads_zero s p hl hn, State.unloaded_rest ..⟩
  · exact fun ps u hrep hss hbase hps hsize hu => execCheckpoint_of_checks hb hsc hp hrep hss hbase hps hsize hu
  · obtain ⟨sc, hsc⟩ := Option.isSome_iff_exists.1 hsc
    obtain ⟨p, hp⟩ := Option.isSome_iff_exists.1 (hp sc hsc)
    refine ⟨_, _, execCheckpoint_of_written hr hphase hmay hw hsc hp htodo hwritten hsend hheader hrem htargets hfail hst,
      State.cmd_endCk_good hr.cmd_eq _, rfl, rfl, rfl, ?_⟩
    rw [State.endCk_good]
    exact ⟨State.counted_bump s _ 1, State.onlyRegs_bump s _ 1, fun k hk => State.cmd_updCmd_ne _ (fun _ => rfl) hk, rfl⟩
  · exact ⟨_, execRestore_of_good hb hcs hf he hv, State.counted_bump v _ 1, State.onlyRegs_bump v _ 1, rfl⟩

end Sys2Proof.Machine
end

section
/-! SUPPORT. Rules that engine units share: 64-bit counters (18 R546) and what a unit's step meets (15 R475, R478). -/

namespace Sys2Proof.Machine

/-! ## 64-bit counters -/

theorem State.reg_setReg64_ne (s : State) {o k : Nat} (v : Nat) (h : k ≠ o) (h4 : k ≠ o + 4) : (s.setReg64 o v).reg k = s.reg k :=
  (State.reg_setReg_ne _ _ h4).trans (State.reg_setReg_ne _ _ h)

theorem State.reg64_setReg64_self (s : State) (o : Nat) {v : Nat} (hv : v < 2 ^ 64) : (s.setReg64 o v).reg64 o = v := by
  unfold State.reg64 State.setReg64
  rw [State.reg_setReg_self, State.reg_setReg_ne _ _ (by omega), State.reg_setReg_self, BitVec.toNat_ofNat, BitVec.toNat_ofNat]
  omega

theorem State.counted64_bump64 (s : State) (o n : Nat) : s.Counted64 (s.bump64 o n) o n := State.reg64_setReg64_self _ _ (by omega)

/-- A count leaves a 64-bit register alone that shares no word with it. -/
theorem State.reg64_bump64_apart (s : State) {o k : Nat} (n : Nat) (h : o + 4 < k ∨ k + 4 < o) : (s.bump64 o n).reg64 k = s.reg64 k := by
  unfold State.reg64 State.bump64
  rw [State.reg_setReg64_ne _ _ (by omega) (by omega), State.reg_setReg64_ne _ _ (by omega) (by omega)]

theorem State.reg64_bump_apart (s : State) {o k : Nat} (n : Nat) (h : o < k ∨ k + 4 < o) : (s.bump o n).reg64 k = s.reg64 k := by
  unfold State.reg64
  rw [State.onlyRegs_bump s o n k (by simp; omega), State.onlyRegs_bump s o n (k + 4) (by simp; omega)]

/-- A count changes the registers alone. -/
theorem State.bump_rest (s : State) (o n : Nat) (rs : SMap W32) : { s.bump o n with regs := rs } = { s with regs := rs } := rfl

theorem State.bump64_rest (s : State) (o n : Nat) (rs : SMap W32) : { s.bump64 o n with regs := rs } = { s with regs := rs } := rfl

/-- A row's counts in the block of instance `i` of an engine whose blocks start at `b` (08 R274). -/
def State.countRow (s : State) (b i p q n : Nat) : State :=
  ((s.bump64 (b + 0x1000 * i + 8) p).bump64 (b + 0x1000 * i + 0x10) q).bump (b + 0x1000 * i + 0x18) n

section
variable (s : State) (b i p q n : Nat)

theorem State.countRow_word8 : s.Counted64 (s.countRow b i p q n) (b + 8 + 0x1000 * i) p := by
  unfold State.Counted64 State.countRow
  rw [Nat.add_right_comm b 8, State.reg64_bump_apart _ _ (by omega), State.reg64_bump64_apart _ _ (by omega)]
  exact State.counted64_bump64 ..

theorem State.countRow_word10 : s.Counted64 (s.countRow b i p q n) (b + 0x10 + 0x1000 * i) q := by
  unfold State.Counted64 State.countRow
  rw [Nat.add_right_comm b 0x10, State.reg64_bump_apart _ _ (by omega), State.counted64_bump64, State.reg64_bump64_apart _ _ (by omega)]

theorem State.countRow_word18 : s.Counted (s.countRow b i p q n) (b + 0x18 + 0x1000 * i) n := by
  unfold State.Counted State.countRow
  rw [Nat.add_right_comm b 0x18, State.counted_bump, State.bump64, State.reg_setReg64_ne _ _ (by omega) (by omega), State.bump64,
    State.reg_setReg64_ne _ _ (by omega) (by omega)]

theorem State.countRow_rest : { s.countRow b i p q n with regs := s.regs } = s :=
  (State.bump_rest ..).trans ((State.bump64_rest ..).trans (State.bump64_rest ..))

/-- The counts of a box's row: a row's three, and one more in the next word. -/
def State.countBox (m : Nat) : State := (s.countRow b i p q n).bump (b + 0x1000 * i + 0x1C) m

variable (m : Nat)

theorem State.countBox_word8 : s.Counted64 (s.countBox b i p q n m) (b + 8 + 0x1000 * i) p :=
  (State.reg64_bump_apart _ _ (by omega)).trans (State.countRow_word8 ..)

theorem State.countBox_word10 : s.Counted64 (s.countBox b i p q n m) (b + 0x10 + 0x1000 * i) q :=
  (State.reg64_bump_apart _ _ (by omega)).trans (State.countRow_word10 ..)

theorem State.countBox_word18 : s.Counted (s.countBox b i p q n m) (b + 0x18 + 0x1000 * i) n := by
  unfold State.Counted State.countBox
  rw [State.onlyRegs_bump _ _ _ _ (by simp; omega)]
  exact State.countRow_word18 ..

theorem State.countBox_word1C : s.Counted (s.countBox b i p q n m) (b + 0x1C + 0x1000 * i) m := by
  unfold State.Counted State.countBox State.countRow
  rw [Nat.add_right_comm b 0x1C, State.counted_bump, State.onlyRegs_bump _ _ _ _ (by simp), State.bump64,
    State.reg_setReg64_ne _ _ (by omega) (by omega), State.bump64, State.reg_setReg64_ne _ _ (by omega) (by omega)]

theorem State.countBox_rest : { s.countBox b i p q n m with regs := s.regs } = s :=
  (State.bump_rest ..).trans (State.countRow_rest ..)

end

/-! ## What a step meets -/

/-- A step whose port is not stalled and that meets nothing does its work. -/
theorem State.meet_none {s : State} {src : Nat} (hport : s.portHeld src = false) (c : Option Cmd) (onUe k : State → State) :
    s.meet c src .none onUe k = k s := by
  simp [State.meet, hport]

/-- An uncorrectable error outside the hub, met by a command's unit. -/
theorem State.meet_ue {s : State} {src : Nat} {st : Store} (hport : s.portHeld src = false) (hst : st ≠ .hub) (c : Cmd) (w : BitVec 16)
    (ad : W64) (onUe k : State → State) :
    s.meet (some c) src (.ue st w ad) onUe k = onUe (s.noteUe src st c.client c.op c.tag w.toNat ad.toNat) := by
  simp [State.meet, hport, hst]

end Sys2Proof.Machine
end

section
/-! SUPPORT. ENGINE_ENTRY_START (06 R186, 07 R225, 08 R269). -/

namespace Sys2Proof.Machine

/-! ## The command of an entry -/

theorem State.cmd_of_running {s : State} {tok : Nat} {c : Cmd} (h : s.running tok = some c) : s.cmd tok = some c := by
  unfold State.running at h
  split at h
  · exact (Option.filter_eq_some_iff.1 h).1
  · cases h

/-- An entry stands in the run of the command its token names. -/
theorem State.entryAt_eq_some {s : State} {tok e : Nat} {o : OnEntry} (h : s.entryAt tok e = some o) :
    s.cmd tok = some o.c ∧ o.c.run = some o.r ∧ o.r.entries[e]? = some o.e := by
  unfold State.entryAt at h
  split at h
  · cases h
  next c hc =>
    split at h
    · cases h
    next r hr =>
      split at h
      next p x hp hx =>
        cases h
        exact ⟨State.cmd_of_running (Option.filter_eq_some_iff.1 hc).1, hr, hx⟩
      · cases h

theorem State.cmd_updRun_self {s : State} {tok : Nat} {c : Cmd} {r : ProgRun} (hc : s.cmd tok = some c) (hr : c.run = some r)
    (f : ProgRun → ProgRun) : (s.updRun tok f).cmd tok = some { c with run := some (f r) } := by
  rw [State.updRun, State.cmd_updCmd_self, hc, Option.map_some, hr, Option.map_some]
  exact fun _ => rfl

/-- A run with the progress of entry `e` changed, as `State.updEntry` changes it. -/
def ProgRun.setEntry (r : ProgRun) (e : Nat) (f : EntryRun → EntryRun) : ProgRun :=
  { r with entries := ((List.range r.entries.length).zip r.entries).map fun x => if x.1 = e then f x.2 else x.2 }

theorem ProgRun.entries_setEntry (r : ProgRun) (e : Nat) (f : EntryRun → EntryRun) (j : Nat) :
    (r.setEntry e f).entries[j]? = (r.entries[j]?).map fun x => if j = e then f x else x := by
  unfold ProgRun.setEntry
  rw [List.getElem?_map]
  cases hj : r.entries[j]? with
  | none =>
    have hlen := List.getElem?_eq_none_iff.1 hj
    rw [List.getElem?_eq_none_iff.2 (by simpa using hlen)]
    rfl
  | some x =>
    obtain ⟨hlt, -⟩ := List.getElem?_eq_some_iff.1 hj
    rw [List.getElem?_zip_eq_some (z := (j, x)) |>.2 ⟨List.getElem?_range hlt, hj⟩]
    rfl

theorem State.cmd_updEntry_self {s : State} {tok e : Nat} {o : OnEntry} (h : s.entryAt tok e = some o) (f : EntryRun → EntryRun) :
    (s.updEntry tok e f).cmd tok = some { o.c with run := some (o.r.setEntry e f) } := by
  obtain ⟨hc, hr, -⟩ := State.entryAt_eq_some h
  exact State.cmd_updRun_self hc hr (·.setEntry e f)

theorem State.cmd_updEntry_ne (s : State) {tok k : Nat} (e : Nat) (f : EntryRun → EntryRun) (h : k ≠ tok) :
    (s.updEntry tok e f).cmd k = s.cmd k := State.cmd_updCmd_ne _ (fun _ => rfl) h

/-! ## The units of an entry -/

/-- A new unit is listed last, with its entry and its number within the entry. -/
theorem State.addUnit_sub (s : State) (tok kind entry : Nat) (tiles : List Nat) (sub : Nat) :
    ∃ w, (s.addUnit tok kind entry tiles sub).sch.units = s.sch.units ++ [w] ∧ w.sub = sub ∧
      w.tok = tok ∧ w.kind = kind ∧ w.entry = entry ∧ w.held = false := by
  unfold State.addUnit
  dsimp only
  split
  · exact ⟨_, congrArg (· ++ _) (State.liftVt_units ..), rfl, rfl, rfl, rfl, rfl⟩
  · exact ⟨_, rfl, rfl, rfl, rfl, rfl, rfl⟩

theorem State.foldl_addUnit_subs (tok kind e : Nat) (us : List Nat) : ∀ s : State,
    ∃ l, (us.foldl (fun s n => s.addUnit tok kind e [] n) s).sch.units = s.sch.units ++ l ∧ l.map (·.sub) = us ∧
      ∀ w ∈ l, w.tok = tok ∧ w.kind = kind ∧ w.entry = e ∧ w.held = false := by
  induction us with
  | nil => exact fun s => ⟨[], by simp⟩
  | cons n us ih =>
    intro s
    obtain ⟨w, hw, hsub, hnew⟩ := State.addUnit_sub s tok kind e [] n
    obtain ⟨l, hl, hsubs, hall⟩ := ih (s.addUnit tok kind e [] n)
    exact ⟨w :: l, by simp [hl, hw], by simp [hsub, hsubs], List.forall_mem_cons.2 ⟨hnew, hall⟩⟩

/-- Units added change the scheduler alone. -/
theorem State.foldl_addUnit_rest (tok kind e : Nat) (us : List Nat) (s : State) (x : Sched) :
    { us.foldl (fun s n => s.addUnit tok kind e [] n) s with sch := x } = { s with sch := x } :=
  foldl_keeps (g := fun t : State => { t with sch := x }) (fun s n => State.addUnit_rest s tok kind e [] n x) us s

/-! ## The start -/

/-- An entry as its start leaves it, with units `us`. -/
def EntryRun.startWith (us : List Nat) (x : EntryRun) : EntryRun :=
  { x with started := true, waitOn := none, units := us.map fun n => { n := n } }

section
variable {s : State} {tok e : Nat} {o : OnEntry}

theorem exec_engineEntryStart_of_wait (h : s.entryAt tok e = some o) (hwait : o.e.waitOn.isSome = true) (hmet : o.e.waitMet = false) :
    exec (.engineEntryStart tok e) s = .next s := by
  show execEngineEntryStart tok e s = _
  simp [execEngineEntryStart, h, hwait, hmet]

/-- Once the WAIT is satisfied the entry starts: with no unit it ends. -/
theorem exec_engineEntryStart_of_met (h : s.entryAt tok e = some o) (hs : o.e.started = false) (hd : o.e.done = false)
    (hw : o.e.waitOn = none ∨ o.e.waitMet = true) : exec (.engineEntryStart tok e) s =
      .next (let t := s.updEntry tok e (EntryRun.startWith (o.firstUnits s))
        if (o.firstUnits s).isEmpty then t.endEntry o else (o.firstUnits s).foldl (fun s n => s.addUnit tok o.e.kind e [] n) t) := by
  have hgo : (o.e.started || o.e.done || (o.e.waitOn.isSome && !o.e.waitMet)) = false := by
    rcases hw with hw | hw <;> simp [hs, hd, hw]
  show execEngineEntryStart tok e s = _
  simp only [execEngineEntryStart, h, hgo]
  rfl

/-- A started entry has one unit of its kind for each of its first units, and nothing but its command and the scheduler differs. -/
theorem exec_engineEntryStart_of_units (h : s.entryAt tok e = some o) (hs : o.e.started = false) (hd : o.e.done = false)
    (hw : o.e.waitOn = none ∨ o.e.waitMet = true) (hu : o.firstUnits s ≠ []) : ∃ (v : State) (l : List SUnit) (r : ProgRun),
      exec (.engineEntryStart tok e) s = .next v ∧ v.sch.units = s.sch.units ++ l ∧ l.map (·.sub) = o.firstUnits s ∧
      (∀ w ∈ l, w.tok = tok ∧ w.kind = o.e.kind ∧ w.entry = e ∧ w.held = false) ∧ v.cmd tok = some { o.c with run := some r } ∧
      r.entries[e]? = some (o.e.startWith (o.firstUnits s)) ∧ (∀ j, j ≠ e → r.entries[j]? = o.r.entries[j]?) ∧ r.tiles = o.r.tiles ∧
      s.SameOthers v tok ∧ { v with cmds := s.cmds, sch := s.sch } = s := by
  obtain ⟨-, -, hentry⟩ := State.entryAt_eq_some h
  let f := EntryRun.startWith (o.firstUnits s)
  obtain ⟨l, hunits, hsubs, hnew⟩ := State.foldl_addUnit_subs tok o.e.kind e (o.firstUnits s) (s.updEntry tok e f)
  have hrest := State.foldl_addUnit_rest tok o.e.kind e (o.firstUnits s) (s.updEntry tok e f) s.sch
  have hcmds := congrArg State.cmds hrest
  have hcmd (k : Nat) := congrArg (fun cs : List Cmd => cs.find? fun c => c.tok == k) hcmds
  refine ⟨_, l, o.r.setEntry e f, (exec_engineEntryStart_of_met h hs hd hw).trans (congrArg _ (if_neg (by simpa using hu))), hunits, hsubs,
    hnew, (hcmd tok).trans (State.cmd_updEntry_self h f), ?_, fun j hj => ?_, rfl,
    fun k hk => (hcmd k).trans (State.cmd_updEntry_ne s e f hk), congrArg (fun t : State => { t with cmds := s.cmds }) hrest⟩
  · rw [ProgRun.entries_setEntry, hentry]
    exact congrArg some (if_pos rfl)
  · rw [ProgRun.entries_setEntry]
    simp [hj]

end

end Sys2Proof.Machine
end

section
/-! SUPPORT. The steps of engine units (06 R187-R191, 07 R226, 08 R259-R274), and the statement O60 settled. -/

namespace Sys2Proof.Machine

section
variable {s : State} {tok : Nat} {e : EntryUnit} {o : OnEntry}

/-! ## SCAN and CARRY -/

/-- The operations that carry state: row, operation code, and one chunk's Y rows and state from its inputs. -/
def carryingOps (tok : Nat) (e : EntryUnit) (o : OnEntry) :
    List ((Hazard → Instr) × Nat × (GlazeAt → State → List GlazeIn → List Val → E (State × List (List Val) × List Val))) :=
  [(.scan tok e, 1, fun a s ins hs => .ok (s, (a.scanAll ins hs).1, (a.scanAll ins hs).2)),
   (.carry tok e, 3, fun a s ins hs => s.carryChunk o.x a ins hs)]

theorem exec_of_carryingOps {i : Hazard → Instr} {op : Nat}
    {f : GlazeAt → State → List GlazeIn → List Val → E (State × List (List Val) × List Val)} {a : GlazeAt}
    (ho : s.onEntry tok e.entry e.unit = some o) (hop : (i, op, f) ∈ carryingOps tok e o) (ha : o.glaze s op = some a)
    (h : Hazard) : exec (i h) s = .next (o.glazeMeet s a h fun s => o.runChunk s a (f a)) := by
  simp only [carryingOps, List.mem_cons, Prod.mk.injEq, List.not_mem_nil, or_false] at hop
  obtain ⟨rfl, rfl, rfl⟩ | ⟨rfl, rfl, rfl⟩ := hop
  · show execScan tok e h s = _
    simp only [execScan, ho, ha]
  · show execCarry tok e h s = _
    simp only [execCarry, ho, ha]

theorem OnEntry.glazeMeet_none {a : GlazeAt} (hport : s.portHeld o.src = false) (k : State → State) : o.glazeMeet s a .none k = k s := by
  unfold OnEntry.glazeMeet
  exact State.meet_none hport ..

/-- An uncorrectable error inside the committed record loses the stream alone (R199). -/
theorem OnEntry.glazeMeet_record {a : GlazeAt} (hport : s.portHeld o.src = false) {w : BitVec 16} {ad : W64} (hkeeps : a.g.keeps = true)
    (hk : a.k = 0) (hlo : a.recAt s o.p false ≤ ad.toNat) (hhi : ad.toNat < a.recAt s o.p false + a.g.recBytes) (k : State → State) :
    o.glazeMeet s a (.ue .hbm w ad) k = (s.noteUe o.src .hbm o.c.client o.c.op o.c.tag w.toNat ad.toNat).loseStream o a := by
  unfold OnEntry.glazeMeet
  rw [State.meet_ue hport (by decide)]
  simp [hkeeps, hk, hlo, hhi]

/-- A chunk whose computations all answer leaves what the last one gives. -/
theorem OnEntry.runChunk_of_ok {a : GlazeAt} {f : State → List GlazeIn → List Val → E (State × List (List Val) × List Val)}
    {s1 v w z : State} {codes : List Nat} {tail : List (List Nat)} {ins : State × List GlazeIn} {r : State × List (List Val) × List Val}
    (hstart : o.startState s a = .ok (s1, codes, tail)) (htail : (if a.k = 0 then s1.copyTail o.x a tail else .ok s1) = .ok v)
    (hins : v.chunkIn o.x a = .ok ins) (hf : f ins.1 ins.2 (a.fromCodes (if a.k = 0 then codes else o.u.buf)) = .ok r)
    (hw : foldE (fun (s : State) y => s.writeY o.x a.g (a.row y.1) y.2) r.1 ((List.range r.2.1.length).zip r.2.1) = .ok w)
    (hz : o.endChunk w a r.2.2 tail = .ok z) : o.runChunk s a f = z := by
  simp only [OnEntry.runChunk, hstart, htail, hins, hf, hw, hz, bind, Except.bind, State.runErr, State.after]

/-! ## MASK and QUERY_BLOCK -/

theorem exec_mask_of_ok {a : GlazeAt} {ins : State × List GlazeIn} {v : State} (ho : s.onEntry tok e.entry e.unit = some o)
    (hport : s.portHeld o.src = false) (ha : o.glaze s 2 = some a) (hins : s.chunkIn o.x a = .ok ins)
    (hv : foldE (fun (s : State) y => s.maskHead o.x a ins.2 y) ins.1 (List.range a.g.h) = .ok v) :
    exec (.mask tok e .none) s = .next ((v.bump64 (0x140008 + 0x1000 * o.inst) a.g.l).advEntry o a.last true []) := by
  show execMask tok e .none s = _
  simp only [execMask, ho, ha, OnEntry.glazeMeet_none hport, hins, hv, bind, Except.bind, pure, Except.pure, State.runErr, State.after]

theorem exec_queryBlock_of_not_lent {b : QueryAt} (ho : s.onEntry tok e.entry e.unit = some o) (hb : o.query s = some b)
    (hl : o.lent b.a = false) : exec (.queryBlock tok e [] .none) s = .next s := by
  show execQueryBlock tok e [] .none s = _
  simp [execQueryBlock, ho, hb, hl]

theorem exec_queryBlock_of_lent {b : QueryAt} {v : State} (ho : s.onEntry tok e.entry e.unit = some o) (hport : s.portHeld o.src = false)
    (hb : o.query s = some b) (hl : o.lent b.a = true)
    (hv : o.queryBlock ((o.lentTiles b.a).foldl (fun s t => s.startInstr t.phys) s) b = .ok v) :
    exec (.queryBlock tok e [] .none) s = .next v := by
  show execQueryBlock tok e [] .none s = _
  simp [execQueryBlock, ho, hb, hl, OnEntry.queryMeet, State.meet_none hport, OnEntry.runQuery, State.lentEvents, hv]

/-! ## Rows of the image ops and CROP_BOX -/

theorem OnEntry.unitWork_of_ok {lost : State → State} {work : State → E State} {v : State} (hport : s.portHeld o.src = false)
    (hv : work s = .ok v) : o.unitWork s .none lost work = v := by
  simp only [OnEntry.unitWork, State.meet_none hport, hv, State.after]

/-- A row that answers counts in the block of the unit's instance (R274). -/
theorem OnEntry.runRow_of_ok {a : ItxAt} {total : Nat} {lost : State → State} {f : State → E (State × RowCount)} {r : State × RowCount}
    (hport : s.portHeld o.src = false) (hk : a.k < total) (hr : f s = .ok r) : o.runRow s a total .none lost f =
      (r.1.countRow 0x150000 o.inst r.2.pixels r.2.pads r.2.nonfin).advEntry o (decide (total ≤ a.k + 1)) (decide (r.2.pixels ≠ 0)) [] := by
  refine OnEntry.unitWork_of_ok hport ?_
  simp only [if_pos hk, hr, bind, Except.bind, pure, Except.pure, State.countRow]

/-- The image ops: row, operation code, rows of a unit, and one row's work. -/
def imageOps (tok : Nat) (e : EntryUnit) : List (Instr × Nat × (ItxAt → Nat) × (ItxAt → Ctx → State → E (State × RowCount))) :=
  [(.txIn tok e .none, 2, fun a => a.th, ItxAt.txInRow), (.txOut tok e .none, 3, fun a => a.th, ItxAt.txOutRow),
   (.s2d tok e .none, 4, fun a => a.g.oh, ItxAt.s2dRow), (.d2s tok e .none, 5, fun a => a.g.oh, ItxAt.d2sRow),
   (.relayout tok e .none, 6, fun a => a.g.oh, ItxAt.relayoutRow)]

theorem exec_of_imageOps {i : Instr} {op : Nat} {n : ItxAt → Nat} {f : ItxAt → Ctx → State → E (State × RowCount)} {a : ItxAt}
    (ho : s.onEntry tok e.entry e.unit = some o) (hop : (i, op, n, f) ∈ imageOps tok e) (ha : o.itx op = some a) :
    ∃ lost, exec i s = .next (o.runRow s a (n a) .none lost (f a o.x)) := by
  simp only [imageOps, List.mem_cons, Prod.mk.injEq, List.not_mem_nil, or_false] at hop
  obtain ⟨rfl, rfl, rfl, rfl⟩ | ⟨rfl, rfl, rfl, rfl⟩ | ⟨rfl, rfl, rfl, rfl⟩ | ⟨rfl, rfl, rfl, rfl⟩ | ⟨rfl, rfl, rfl, rfl⟩ := hop
  · show ∃ lost, execTxIn tok e .none s = _
    simp only [execTxIn, ho, ha]
    exact ⟨_, rfl⟩
  · show ∃ lost, execTxOut tok e .none s = _
    simp only [execTxOut, ho, ha]
    exact ⟨_, rfl⟩
  · show ∃ lost, execS2d tok e .none s = _
    simp only [execS2d, ho, ha]
    exact ⟨_, rfl⟩
  · show ∃ lost, execD2s tok e .none s = _
    simp only [execD2s, ho, ha]
    exact ⟨_, rfl⟩
  · show ∃ lost, execRelayout tok e .none s = _
    simp only [execRelayout, ho, ha]
    exact ⟨_, rfl⟩

/-- The box's words as the unit reads them when it starts the box (R266), or as it keeps them. -/
def OnEntry.boxWords (o : OnEntry) (s : State) (b : Region) : E (State × List Nat) :=
  if o.u.chunk = 0 then (s.rd ((o.x.p.planeLoc o.x.binds b false).plus (32 * o.u.n)) 32).bind fun v => .ok (v.1, wordsOf 8 v.2)
  else .ok (s, o.u.buf)

theorem exec_cropBox_of_ok {i out b : Region} {v : State × List Nat} {r : State × Nat × Nat} (ho : s.onEntry tok e.entry e.unit = some o)
    (hport : s.portHeld o.src = false) (hconv : o.e.conv = false) (hkind : o.e.kind = 4)
    (hi : o.x.region (CropE.ofWords o.ws).inn.index = some i) (hout : o.x.region (CropE.ofWords o.ws).out.index = some out)
    (hb : o.x.region (CropE.ofWords o.ws).box.index = some b) (hv : o.boxWords s b = .ok v)
    (hr : (o.crop i out v.2).run o.x v.1 o.u.chunk = .ok r) : exec (.cropBox tok e .none) s =
      .next (let last := decide ((CropE.ofWords o.ws).outH ≤ o.u.chunk + 1)
        (r.1.countBox 0x154000 o.inst (if last then 1 else 0) r.2.1 (if last && (o.crop i out v.2).invalid then 1 else 0) r.2.2).advEntry
          o last true v.2) := by
  have hcrop : (s.onEntry tok e.entry e.unit).filter (fun o => !o.e.conv && o.e.kind == 4) = some o := by simp [ho, hconv, hkind]
  show execCropBox tok e .none s = _
  simp only [execCropBox, hcrop, hi, hout, hb]
  refine congrArg _ (OnEntry.unitWork_of_ok hport ?_)
  simp only [bind, pure, Except.pure]
  rw [← OnEntry.boxWords, hv]
  simp only [Except.bind, hr, State.countRow, State.countBox]

end

/-! ## The statement -/

/-- Settles O60, one instruction after the other. That one lent tile is enough for a query block and what PIXELS and PAD_TAPS count are the
model's choice (log entries 15, 18). -/
theorem engineEntries : Obligations.EngineEntries := by
  intro s tok e o
  refine ⟨fun h hs hd => ⟨exec_engineEntryStart_of_wait h, exec_engineEntryStart_of_units h hs hd, fun hw hu => ?_⟩,
    fun u ho hport => ⟨fun i op f hop a ha => ⟨?_, ?_⟩, fun a ins v ha hins hv => ?_,
      fun b hb => ⟨exec_queryBlock_of_not_lent ho hb, fun v => exec_queryBlock_of_lent ho hport hb⟩,
      fun i op n f hop a r ha hk hr => ?_, fun i out b v r hconv hkind hi hout hb hv hr => ?_⟩⟩
  · rw [exec_engineEntryStart_of_met h hs hd hw, hu]
    rfl
  · intro s1 codes tail v ins r w z hstart htail hins hf hw hz
    rw [exec_of_carryingOps ho hop ha, OnEntry.glazeMeet_none hport, OnEntry.runChunk_of_ok hstart htail hins hf hw hz]
  · intro w ad hkeeps hk hlo hhi
    rw [exec_of_carryingOps ho hop ha, OnEntry.glazeMeet_record hport hkeeps hk hlo hhi]
  · exact ⟨_, exec_mask_of_ok ho hport ha hins hv, State.counted64_bump64 .., State.bump64_rest ..⟩
  · obtain ⟨lost, hexec⟩ := exec_of_imageOps ho hop ha
    rw [OnEntry.runRow_of_ok hport hk hr] at hexec
    exact ⟨_, hexec, State.countRow_word8 .., State.countRow_word10 .., State.countRow_word18 .., State.countRow_rest ..⟩
  · exact ⟨_, exec_cropBox_of_ok ho hport hconv hkind hi hout hb hv hr, State.countBox_word8 .., State.countBox_word10 ..,
      State.countBox_word18 .., State.countBox_word1C .., State.countBox_rest ..⟩

end Sys2Proof.Machine
end

section
/-! SUPPORT. The CLEAR writes that clear ranges of registers and nothing else (06 R206 to 16 R519, 18 R544): the statement O7 settled. -/

namespace Sys2Proof.Machine

/-- LINK_CLEAR (R471) clears the counters of all links, then those of each port. -/
theorem State.clearLink_eq_clearAll (s : State) :
    s.clearLink = s.clearAll ((0x200020, 0x14) :: (List.range 12).map fun p => (0x200110 + 0x40 * p, 0x1C)) := by
  rw [State.clearAll_cons, State.clearAll, List.foldl_map, State.clearLink]

/-- ING_CLEAR (R291) clears the counters of the block, then those of each sensor. -/
theorem State.clearIng_eq_clearAll (s : State) :
    s.clearIng = s.clearAll ((0x300008, 0x10) :: (List.range 24).map fun i => (0x300108 + 0x20 * i, 0x14)) := by
  rw [State.clearAll_cons, State.clearAll, List.foldl_map, State.clearIng]

/-- A register write whose operation clears some ranges, where every register is open: the step completes and has cleared exactly them. -/
theorem exec_cleared_of_act {s : State} (h : s.openRegs) {i : Instr} {r : Requester} {off : Nat} {f : State → State} {rs : List (Nat × Nat)}
    (hexec : exec i s = .next (s.act r off f)) (hf : ∀ u : State, f u = u.clearAll rs) : ∃ t, exec i s = .next t ∧ s.Cleared t r rs := by
  refine ⟨_, hexec, ?_⟩
  rw [State.act_of_openRegs h, hf]
  exact s.cleared_clearAll r rs

/-- Settles O7: the operation behind each CLEAR bit is a clear of the ranges listed. -/
theorem clearResetsItsCounters : Obligations.ClearResetsItsCounters := by
  intro s r h
  refine ⟨fun n => ⟨?glz, ?att⟩, fun n => ⟨?itx, ?crs, ?rtc⟩, fun n => ?dma, fun n => ?cv, fun n => ?adapt,
    ?hbmErr, ?mig, ?ftl, ?cp, ?sched, ?time, ?dep, ?link, ?ing⟩
  case link => exact exec_cleared_of_act h rfl State.clearLink_eq_clearAll
  case ing => exact exec_cleared_of_act h rfl State.clearIng_eq_clearAll
  all_goals exact exec_cleared_of_act h rfl fun _ => rfl

end Sys2Proof.Machine
end

section
/-! SUPPORT. What a signal to an object leaves alone (13 R404-R413, 14 R443-R451): every ingest context, whether the signal is an add here or a
remote one. -/

namespace Sys2Proof.Machine

section
variable (s : State)

theorem State.settle_ingest : s.settle.ingest = s.ingest := by
  unfold State.settle
  refine foldl_keeps (g := State.ingest) (fun u t => ?_) _ s
  dsimp only
  split
  · rfl
  · split <;> rfl

theorem State.addObj_ingest (i n : Nat) : (s.addObj i n).ingest = s.ingest := State.settle_ingest _

theorem State.sendMsg_ingest (p : Nat) (m : Msg) (n : Nat) : (s.sendMsg p m n).ingest = s.ingest := by
  unfold State.sendMsg
  dsimp only
  split <;> rfl

theorem State.sendTx_ingest (t : OpenTx) (p : Nat) : (s.sendTx t p).ingest = s.ingest := State.sendMsg_ingest ..

theorem State.hubCheck_ingest (n : Nat) (bad : Bool) : (s.hubCheck n bad).ingest = s.ingest := by
  unfold State.hubCheck
  dsimp only
  split <;> rfl

theorem State.failOp_ingest (proxy tok : Option Nat) (st d : Nat) (flag : Bool) : (s.failOp proxy tok st d flag).ingest = s.ingest := by
  cases proxy with
  | none => cases tok <;> rfl
  | some o => cases flag <;> cases tok <;> rfl

theorem State.closeTx_ingest (t : OpenTx) : (s.closeTx t).ingest = s.ingest := by
  unfold State.closeTx
  split <;> rfl

theorem State.failTx_ingest (t : OpenTx) (st : Nat) (flag : Bool) : (s.failTx t st flag).ingest = s.ingest :=
  (State.failOp_ingest ..).trans (State.closeTx_ingest ..)

/-- Issuing a transaction, or failing it where no port is UP, leaves every ingest context. -/
theorem State.tryIssue_ingest (id : Nat) : (s.tryIssue id).ingest = s.ingest := by
  unfold State.tryIssue
  split
  · rfl
  split
  · rfl
  split
  · exact State.failTx_ingest ..
  split
  · rfl
  · refine (State.sendTx_ingest ..).trans ?_
    split
    · exact State.hubCheck_ingest ..
    · rfl

theorem State.issueTx_ingest (t : OpenTx) : (s.issueTx t).ingest = s.ingest := by
  refine (State.tryIssue_ingest ..).trans ?_
  cases t.tok <;> rfl

theorem State.freeSignal_ingest (i n : Nat) : (s.freeSignal i n).ingest = s.ingest := by
  unfold State.freeSignal State.signal
  split
  · rfl
  dsimp only
  split
  · exact State.addObj_ingest ..
  split
  · exact State.addObj_ingest ..
  · exact State.issueTx_ingest ..

end

end Sys2Proof.Machine
end

section
/-! SUPPORT. The units of a command are released at its end (12 R382 step 6, 13 R419): none of it is left, and every command is as before. -/

namespace Sys2Proof.Machine

section
variable {s : State} {u w : SUnit}

theorem State.account_units (s : State) (n : Int) (c : Nat) (f : Acct → Acct) : (s.account n c f).sch.units = s.sch.units := rfl

theorem State.charge_cmds (s : State) (u : SUnit) : (s.charge u).cmds = s.cmds := by
  unfold State.charge
  exact foldl_keeps (g := State.cmds) (fun _ _ => by rfl) _ _

/-- A charge changes of the units no more than since when the charged one holds its resource. -/
theorem State.mem_units_of_charge (h : w ∈ (s.charge u).sch.units) : ∃ v ∈ s.sch.units, v.id = w.id ∧ v.tok = w.tok := by
  obtain ⟨v, hv, rfl⟩ := List.mem_map.1 h
  rw [foldl_keeps (g := fun t : State => t.sch.units) fun _ _ => State.account_units ..] at hv
  refine ⟨v, hv, ?_⟩
  split <;> exact ⟨rfl, rfl⟩

theorem State.dropUnit_cmds (s : State) (u : SUnit) : (s.dropUnit u).cmds = s.cmds := by
  unfold State.dropUnit
  dsimp only
  split
  · exact State.charge_cmds ..
  · rfl

theorem State.mem_units_of_dropUnit (h : w ∈ (s.dropUnit u).sch.units) :
    w.id ≠ u.id ∧ ∃ v ∈ s.sch.units, v.id = w.id ∧ v.tok = w.tok := by
  obtain ⟨hw, hid⟩ := List.mem_filter.1 h
  refine ⟨by simpa using hid, ?_⟩
  split at hw
  · exact State.mem_units_of_charge hw
  · exact ⟨w, hw, rfl, rfl⟩

theorem State.mem_units_of_foldl_dropUnit {us : List SUnit} : ∀ {s : State}, w ∈ (us.foldl (fun s u => s.dropUnit u) s).sch.units →
    (∀ u ∈ us, w.id ≠ u.id) ∧ ∃ v ∈ s.sch.units, v.id = w.id ∧ v.tok = w.tok := by
  induction us with
  | nil => exact fun h => ⟨by simp, w, h, rfl, rfl⟩
  | cons u us ih =>
    intro s h
    obtain ⟨hids, v, hv, hid, htok⟩ := ih h
    obtain ⟨hne, v', hv', hid', htok'⟩ := State.mem_units_of_dropUnit hv
    exact ⟨List.forall_mem_cons.2 ⟨hid ▸ hne, hids⟩, v', hv', hid'.trans hid, htok'.trans htok⟩

/-- A command that has given its units up has none. -/
theorem State.tok_ne_of_mem_dropUnits {tok : Nat} (h : w ∈ (s.dropUnits tok).sch.units) : w.tok ≠ tok := by
  obtain ⟨hids, v, hv, hid, htok⟩ := State.mem_units_of_foldl_dropUnit h
  intro hw
  exact hids v (List.mem_filter.2 ⟨hv, by simp [htok, hw]⟩) hid.symm

theorem State.dropUnits_cmds (s : State) (tok : Nat) : (s.dropUnits tok).cmds = s.cmds :=
  foldl_keeps (g := State.cmds) State.dropUnit_cmds _ s

end

end Sys2Proof.Machine
end

section
/-! SUPPORT. Ingest contexts and the commands that begin on them (09 R275-R277, R281, R283): INGEST_OPEN, INGEST_CLOSE, INGEST_VIDEO, INGEST_STILL
and INGEST_SCAN, one lemma per outcome. -/

namespace Sys2Proof.Machine

@[simp] theorem State.ing_setIng_self (s : State) (i : Nat) (x : Option Ingest) : (s.setIng i x).ing i = x := SMap.get_set_self

theorem State.ing_setIng_ne (s : State) {i k : Nat} (x : Option Ingest) (h : k ≠ i) : (s.setIng i x).ing k = s.ing k := SMap.get_set_ne h

/-! ## INGEST_OPEN (R275-R277) -/

/-- The entries of the sensor table as INGEST_OPEN reads them, 32 words each (R277). -/
def Cmd.sensorWords (c : Cmd) (bs : List Byte) : List (List Nat) :=
  (List.range (c.f 0x44 5 0)).map fun i => wordsOf 32 ((bs.drop (128 * i)).take 128)

/-- The context an INGEST_OPEN describes (R276). -/
def Cmd.context (c : Cmd) (bs : List Byte) : Ingest :=
  { epoch := c.q 0x48, period := c.w 0x50, ringBase := c.q 0x58, ringSlots := c.f 0x54 12 0, slotBytes := c.w 0x60
    sensors := (c.sensorWords bs).map Sensor.ofWords, poseBase := c.q 0x70, poseCount := c.w 0x64, live := c.flag 0
    sealSync := c.f 0x44 29 16 }

/-- A parameter of INGEST_OPEN lies outside its range (R276). -/
def Cmd.openOutOfRange (c : Cmd) : Prop :=
  c.w 0x50 < 1000000 ∨ 1000000000 < c.w 0x50 ∨ c.f 0x54 12 0 < 2 ∨ 4096 < c.f 0x54 12 0 ∨ c.w 0x60 % 4096 ≠ 0 ∨ c.f 0x44 5 0 = 0 ∨
    32 < c.f 0x44 5 0 ∨ c.w 0x64 < 2 ∨ 1048576 < c.w 0x64

/-- The sensor table is refused for an entry that breaks its rules, or for tensors that clash (R276, R277). -/
def Cmd.tableBad (c : Cmd) (bs : List Byte) : Bool :=
  (c.sensorWords bs).any sensorBad || sensorsClash (c.w 0x60) ((c.sensorWords bs).map Sensor.ofWords)

theorem Cmd.tableBad_eq_true {c : Cmd} {bs : List Byte} : c.tableBad bs = true ↔
    (∃ e ∈ c.sensorWords bs, sensorBad e = true) ∨ sensorsClash (c.w 0x60) ((c.sensorWords bs).map Sensor.ofWords) = true := by
  rw [Cmd.tableBad, Bool.or_eq_true, List.any_eq_true]

theorem Cmd.tableBad_eq_false {c : Cmd} {bs : List Byte} (hes : ∀ e ∈ c.sensorWords bs, sensorBad e = false)
    (hxs : sensorsClash (c.w 0x60) ((c.sensorWords bs).map Sensor.ofWords) = false) : c.tableBad bs = false := by
  rw [Cmd.tableBad, hxs, Bool.or_false, List.any_eq_false]
  exact fun e he => Bool.eq_false_iff.1 (hes e he)

section
variable {s : State} {tok : Nat} {c : Cmd} {r : State × List Byte}

theorem execIngestOpen_of_out_of_range (hb : s.Begins tok 0x0500 c) (h : c.openOutOfRange) :
    exec (.ingestOpen tok) s = .next (s.endedAt tok 0x1001 0) := by
  unfold Cmd.openOutOfRange at h
  show execIngestOpen tok s = _
  unfold execIngestOpen
  rw [hb.may]
  dsimp only
  rw [if_pos h, State.instant_eq_endedAt _ _ _ (by decide)]

/-- INGEST_OPEN whose parameters lie in their ranges and whose sensor table can be read: the table, then the scene decide. -/
theorem execIngestOpen_of_table (hb : s.Begins tok 0x0500 c) (h : ¬ c.openOutOfRange)
    (hr : s.rd (.dva (c.q 0x68)) (128 * c.f 0x44 5 0) = .ok r) :
    exec (.ingestOpen tok) s = .next (
      if c.tableBad r.2 then r.1.endedAt tok 0x1001 0
      else if (r.1.ing c.ingScene).isSome then r.1.endedAt tok 0x2006 0
      else if (r.1.scene c.ingScene).isNone then r.1.endedAt tok 0x2007 0
      else (r.1.setIng c.ingScene (some (c.context r.2))).endedAt tok 0 0) := by
  unfold Cmd.openOutOfRange at h
  show execIngestOpen tok s = _
  unfold execIngestOpen
  rw [hb.may]
  dsimp only
  rw [if_neg h, hr]
  simp only [bind, Except.bind, pure, Except.pure]
  rw [← Cmd.sensorWords, ← Cmd.tableBad]
  split
  · rw [← State.instant_eq_endedAt _ _ _ (by decide), State.after]
  split
  · rw [← State.instant_eq_endedAt _ _ _ (by decide), State.after]
  split
  · rw [← State.instant_eq_endedAt _ _ _ (by decide), State.after]
  · rw [← State.instant_eq_endedAt _ _ _ (by decide), State.after, Cmd.context]

/-! ## INGEST_CLOSE (R275) -/

theorem execIngestClose_of_begins (hb : s.Begins tok 0x0501 c) :
    exec (.ingestClose tok) s = .next ((s.setIng c.ingScene none).endedAt tok 0 0) := by
  show execIngestClose tok s = _
  simp [execIngestClose, hb.may, State.instant_eq_endedAt]

/-! ## INGEST_VIDEO, INGEST_STILL and INGEST_SCAN (R281, R283) -/

/-- The commands that begin on a sensor of a KIND: row, opcode, KIND and the kind of the unit. -/
def sensorOps (tok : Nat) : List (Instr × Nat × Nat × Nat) :=
  [(.ingestVideo tok, 0x0502, 1, 7), (.ingestStill tok, 0x0503, 2, 7), (.ingestScan tok, 0x0504, 3, 8)]

theorem exec_of_sensorOps {i : Instr} {op kind unit : Nat} (h : (i, op, kind, unit) ∈ sensorOps tok) (s : State) :
    exec i s = .next (s.beginIngest tok op kind unit 0x48 0x50) := by
  simp only [sensorOps, List.mem_cons, Prod.mk.injEq, List.not_mem_nil, or_false] at h
  obtain ⟨rfl, rfl, rfl, rfl⟩ | ⟨rfl, rfl, rfl, rfl⟩ | ⟨rfl, rfl, rfl, rfl⟩ := h
  · rfl
  · rfl
  · rfl

/-- An ingest command that has begun stands at the start of its bitstream or range. -/
def State.ingestBegun (s : State) (tok : Nat) : State := (s.begin_ tok).updCmd tok fun c => { c with targets := [0] }

/-- Its unit is not granted yet. -/
def State.ingesting (s : State) (tok unit : Nat) : State := (s.ingestBegun tok).addUnit tok unit 0 []

section
variable {op kind unit base bytes : Nat} {x : Ingest} {sn : Sensor}

/-- No context, no such sensor, or a sensor of another KIND: SHAPE_OVER (log entries 25, 32). -/
theorem State.beginIngest_of_other_kind (hb : s.Begins tok op c)
    (h : ∀ x sn, s.ing c.ingScene = some x → x.sensors[c.f 0x40 12 8]? = some sn → sn.kind ≠ kind) :
    s.beginIngest tok op kind unit base bytes = s.endedAt tok 0x1001 0 := by
  unfold State.beginIngest
  rw [hb.may]
  dsimp only
  split
  · exact State.instant_eq_endedAt _ _ _ (by decide)
  next sn hsn =>
    obtain ⟨x, hx, hsn⟩ := Option.bind_eq_some_iff.1 hsn
    rw [if_pos (h x sn hx hsn)]
    exact State.instant_eq_endedAt _ _ _ (by decide)

theorem State.beginIngest_of_kind (hb : s.Begins tok op c) (hx : s.ing c.ingScene = some x) (hsn : x.sensors[c.f 0x40 12 8]? = some sn)
    (hk : sn.kind = kind) : s.beginIngest tok op kind unit base bytes =
      if dvaEnd < c.q base + c.q bytes then s.endedAt tok 0x1006 0
      else if kind = 3 ∧ c.q bytes = 0 then s.endedAt tok 0 0
      else s.ingesting tok unit := by
  unfold State.beginIngest
  rw [hb.may]
  simp [hx, hsn, hk, State.instant_eq_endedAt, State.ingesting, State.ingestBegun]

end

theorem State.cmd_ingesting (s : State) (tok unit k : Nat) : (s.ingesting tok unit).cmd k = (s.ingestBegun tok).cmd k := by
  have h := congrArg (State.cmd · k) (State.addUnit_rest (s.ingestBegun tok) tok unit 0 [] 0 s.sch)
  exact h

theorem State.ingesting_rest (s : State) (tok unit : Nat) : { s.ingesting tok unit with cmds := s.cmds, sch := s.sch } = s := by
  have h := congrArg (fun t : State => { t with cmds := s.cmds }) (State.addUnit_rest (s.ingestBegun tok) tok unit 0 [] 0 s.sch)
  exact h

theorem State.cmd_ingesting_self {unit : Nat} (hc : s.cmd tok = some c) : (s.ingesting tok unit).cmd tok =
    some { c with phase := .running, begun := true, profile := s.profile, targets := [0] } := by
  rw [State.cmd_ingesting, State.ingestBegun, State.begin_, State.cmd_updCmd_self, State.cmd_updCmd_self, hc]
  · rfl
  · exact fun _ => rfl
  · exact fun _ => rfl

theorem State.sameOthers_ingesting (s : State) (tok unit : Nat) : s.SameOthers (s.ingesting tok unit) tok := by
  intro k hk
  rw [State.cmd_ingesting, State.ingestBegun, State.begin_, State.cmd_updCmd_ne _ _ hk, State.cmd_updCmd_ne _ _ hk]
  · exact fun _ => rfl
  · exact fun _ => rfl

end

end Sys2Proof.Machine
end

section
/-! SUPPORT. Sealing and releasing slots (09 R287, R289, R290): INGEST_SEAL with its flags, and SLOT_SEAL. -/

namespace Sys2Proof.Machine

/-! ## INGEST_SEAL (R287, R289) -/

section
variable {s : State} {tok : Nat} {c : Cmd} {x : Ingest}

theorem State.sealRow_of_begins {mine : Cmd → Bool} (hb : s.Begins tok 0x0505 c) (hm : mine c = true) (hx : s.ing c.ingScene = some x) :
    s.sealRow tok mine = (s.begin_ tok).ingestSeal c x := by
  have hx' : (s.begin_ tok).ing c.ingScene = some x := hx
  unfold State.sealRow
  rw [hb.filter_eq hm]
  dsimp only
  rw [hx']

/-- The scene's context after RELEASE_THROUGH, where the command releases. -/
def State.releaseBy (s : State) (c : Cmd) (x : Ingest) : State :=
  if c.flag 1 then s.setIng c.ingScene (some (x.release (c.q 0x50))) else s

theorem State.releaseBy_begin (s : State) (tok : Nat) (c : Cmd) (x : Ingest) :
    (s.begin_ tok).releaseBy c x = (s.releaseBy c x).begin_ tok := by
  unfold State.releaseBy
  split <;> rfl

theorem State.ing_releaseBy_self (hx : s.ing c.ingScene = some x) :
    (s.releaseBy c x).ing c.ingScene = some (if c.flag 1 then x.release (c.q 0x50) else x) := by
  unfold State.releaseBy
  split
  · exact State.ing_setIng_self ..
  · exact hx

theorem State.ing_releaseBy_ne (s : State) (c : Cmd) (x : Ingest) {k : Nat} (h : k ≠ c.ingScene) : (s.releaseBy c x).ing k = s.ing k := by
  unfold State.releaseBy
  split
  · exact State.ing_setIng_ne _ _ h
  · rfl

theorem State.releaseBy_rest (s : State) (c : Cmd) (x : Ingest) : { s.releaseBy c x with ingest := s.ingest } = s := by
  unfold State.releaseBy
  split <;> rfl

/-- Without SEAL, or in live mode, where SEAL has no effect (log entry 32), the command releases and ends. -/
theorem State.ingestSeal_of_no_seal (h : c.flag 0 = false ∨ x.live = true) : s.ingestSeal c x = (s.releaseBy c x).endCmd c.tok 0 0 := by
  have hends : (!c.flag 0 || x.live) = true := by simpa using h
  unfold State.ingestSeal State.releaseBy
  dsimp only
  rw [if_pos hends]
  split <;> rfl

theorem exec_of_sealRow_no_seal {i : Instr} {mine : Cmd → Bool} (hi : exec i s = .next (s.sealRow tok mine)) (hm : mine c = true)
    (hb : s.Begins tok 0x0505 c) (hx : s.ing c.ingScene = some x) (h : c.flag 0 = false ∨ x.live = true) :
    exec i s = .next ((s.releaseBy c x).endedAt tok 0 0) := by
  obtain ⟨-, htok⟩ := State.mem_of_mayBegin hb.may
  rw [hi, State.sealRow_of_begins hb hm hx, State.ingestSeal_of_no_seal h, State.releaseBy_begin, htok,
    ← State.instant_eq_endedAt _ _ _ (by decide), State.instant]

theorem State.ingestSeal_of_seal {r q : State × Ingest} (h0 : c.flag 0 = true) (h1 : c.flag 1 = false) (hlive : x.live = false)
    (hfirst : s.ingestBefore c = false) (hr : State.sealTo c.ingScene (c.q 0x48) (c.q 0x48 + 1 - x.sealedTo) s x = .ok r)
    (hq : State.sealTo c.ingScene (c.q 0x48) (c.q 0x48 + 1 - r.2.sealedTo) r.1 r.2 = .ok q) :
    s.ingestSeal c x = if c.q 0x48 < q.2.sealedTo then q.1.endCmd c.tok 0 0 else q.1 := by
  simp [State.ingestSeal, h0, h1, hlive, hfirst, hr, hq, bind, Except.bind, pure, Except.pure, State.after]

end

/-! ## SLOT_SEAL (R287, R290) -/

/-- A context with its lowest open slot, `k`, sealed. -/
def Ingest.sealed (x : Ingest) (k : Nat) : Ingest := { x with sealedTo := k + 1, slots := x.slots.filter fun y => y.k != k }

section
variable {s : State} {sc : Nat} {x : Ingest} {r : State × Ingest}

theorem State.openSlot_releasedTo {k : Nat} (h : s.openSlot x k = .ok r) : r.2.releasedTo = x.releasedTo := by
  unfold State.openSlot at h
  simp only [bind, Except.bind, pure, Except.pure] at h
  split at h
  · cases h
    rfl
  split at h
  · cases h
  split at h
  · cases h
  · cases h
    rfl

/-- However a slot is sealed, written or not, the scene's context is left with it sealed, and SEAL_SYNC is signalled. -/
theorem State.sealNext_eq_ok (h : s.sealNext sc x = .ok r) : ∃ (u : State) (y : Ingest), y.releasedTo = x.releasedTo ∧
    r = ((u.setIng sc (some (y.sealed x.sealedTo))).freeSignal y.sealSync 1, y.sealed x.sealedTo) := by
  unfold State.sealNext at h
  simp only [bind, Except.bind, pure, Except.pure] at h
  split at h
  · cases h
    exact ⟨s, x, rfl, rfl⟩
  split at h
  · cases h
  next o ho =>
    have hrel := State.openSlot_releasedTo ho
    split at h
    · cases h
      exact ⟨o.1, o.2, hrel, rfl⟩
    split at h
    · cases h
    split at h
    · cases h
    next u hu =>
      cases h
      exact ⟨u, o.2, hrel, rfl⟩

theorem State.sealNext_context (h : s.sealNext sc x = .ok r) :
    r.1.ing sc = some r.2 ∧ r.2.sealedTo = x.sealedTo + 1 ∧ r.2.releasedTo = x.releasedTo := by
  obtain ⟨u, y, hrel, rfl⟩ := State.sealNext_eq_ok h
  refine ⟨?_, rfl, hrel⟩
  rw [State.ing, State.freeSignal_ingest]
  exact State.ing_setIng_self ..

end

/-- The moment at which a live context's lowest open slot is sealed (R287). -/
def State.sealAt (s : State) (x : Ingest) : Nat := x.epoch + (x.sealedTo + 1) * x.period + (s.reg 0x300018).toNat

section
variable {s : State} {k : Fin 24} {it : Nat} {x : Ingest}

theorem exec_slotSeal_of_not_due (hx : s.ing k.val = some x)
    (h : x.live = false ∨ max s.itNow (it % 2 ^ 64) < s.sealAt x) : exec (.slotSeal k it) s = .next (s.advance it) := by
  have hx' : (s.advance it).ing k.val = some x := hx
  have hkeeps : (!(s.advance it).live || !x.live || decide ((s.advance it).itNow < (s.advance it).sealAt x)) = true := by
    rcases h with h | h
    · simp [h]
    · have hearly : (s.advance it).itNow < (s.advance it).sealAt x := h
      simp [hearly]
  show execSlotSeal k it s = _
  unfold execSlotSeal
  dsimp only
  rw [hx']
  dsimp only
  rw [← State.sealAt, if_pos hkeeps]

theorem exec_slotSeal_of_due {r : State × Ingest} (hlive : s.live = true) (hx : s.ing k.val = some x) (hl : x.live = true)
    (h : s.sealAt x ≤ max s.itNow (it % 2 ^ 64)) (hr : (s.advance it).sealNext k.val x = .ok r) :
    exec (.slotSeal k it) s = .next r.1 := by
  have hlive' : (s.advance it).live = true := hlive
  have hx' : (s.advance it).ing k.val = some x := hx
  have hreached : (s.advance it).sealAt x ≤ (s.advance it).itNow := h
  have hdue : ¬ (!(s.advance it).live || !x.live || decide ((s.advance it).itNow < (s.advance it).sealAt x)) = true := by
    simp [hlive', hl, hreached]
  show execSlotSeal k it s = _
  unfold execSlotSeal
  dsimp only
  rw [hx']
  dsimp only
  rw [← State.sealAt, if_neg hdue, hr]

end

end Sys2Proof.Machine
end

section
/-! SUPPORT. Frames and packets of a running ingest command (09 R279-R286), and the statement O58 settled. -/

namespace Sys2Proof.Machine

section
variable {s : State} {tok : Nat} {c : Cmd} {u : SUnit} {x : Ingest} {i : Nat} {sn : Sensor}

theorem State.cmd_of_ingWork {unit : Nat} (h : s.ingWork tok unit = some (c, u, x, i, sn)) : s.cmd tok = some c := by
  unfold State.ingWork at h
  split at h
  · cases h
  next d hd =>
    split at h
    · obtain ⟨sn', -, he⟩ := Option.map_eq_some_iff.1 h
      cases he
      exact State.cmd_of_running (Option.filter_eq_some_iff.1 hd).1
    · cases h

/-! ## The end of an ingest command (R282) -/

theorem State.endIngest_eq (hc : s.cmd tok = some c) : s.endIngest tok = (s.dropUnits tok).updCmd tok fun d =>
    { d with phase := .ended, status := if c.detail = 0 then 0 else 0x0103, detail := c.detail, itDone := (s.dropUnits tok).itNow } := by
  unfold State.endIngest
  rw [hc]
  dsimp only
  rw [State.endCmd_of_no_read]
  split <;> decide

theorem State.cmd_endIngest (hc : s.cmd tok = some c) : (s.endIngest tok).cmd tok =
    some { c with phase := .ended, status := if c.detail = 0 then 0 else 0x0103, detail := c.detail, itDone := (s.dropUnits tok).itNow } := by
  have hc' : (s.dropUnits tok).cmd tok = some c := by rw [State.cmd, State.dropUnits_cmds]; exact hc
  rw [State.endIngest_eq hc, State.cmd_updCmd_self, hc', Option.map_some]
  exact fun _ => rfl

theorem State.endIngest_units (hc : s.cmd tok = some c) : ∀ w ∈ (s.endIngest tok).sch.units, w.tok ≠ tok := by
  rw [State.endIngest_eq hc]
  exact fun _ => State.tok_ne_of_mem_dropUnits

/-! ## A frame (R279-R282) -/

/-- Bytes of the bitstream a frame takes. -/
def Cmd.frameBytes (c : Cmd) (used : Nat) : Nat := min used (c.q 0x50 - c.targets.headD 0)

/-- A frame has been taken: the command stands behind it in its bitstream. -/
def State.pastFrame (s : State) (tok : Nat) (c : Cmd) (used : Nat) (frame : Option Picture) : State :=
  s.updCmd tok fun d => { d with
    total := d.total + 1, targets := [c.targets.headD 0 + c.frameBytes used, if frame.isNone then 1 else 0] }

theorem exec_videoFrame_of_taken {used : Nat} {frame : Option Picture} {r : State × SMap Byte} {v : State}
    (hw : s.ingWork tok 7 = some (c, u, x, i, sn))
    (hr : s.rdCells true (.dva (c.q 0x48 + c.targets.headD 0)) (c.frameBytes used) = .ok r)
    (hv : r.1.takeFrameOf c x i sn ((c.items.getD c.total []).headD 0) (frame.filter fun p => c.decodes p sn) = .ok v) :
    exec (.videoFrame tok used frame) s = .next (
      let t := v.pastFrame tok c used (frame.filter fun p => c.decodes p sn)
      if c.items.length ≤ c.total + 1 then t.endIngest tok else t) := by
  show execVideoFrame tok used frame s = _
  unfold execVideoFrame
  rw [hw]
  dsimp only
  rw [← Cmd.frameBytes, hr]
  simp only [bind, Except.bind, pure, Except.pure, hv, State.after, State.pastFrame]

/-! ## A packet (R283-R285) -/

theorem exec_scanPacket_of_short (hw : s.ingWork tok 8 = some (c, u, x, i, sn)) (h : c.q 0x50 < c.targets.headD 0 + 32) :
    exec (.scanPacket tok) s = .next (s.endIngest tok) := by
  show execScanPacket tok s = _
  unfold execScanPacket
  rw [hw]
  dsimp only
  rw [if_pos h]

/-- The points of a packet of `n`, from its header and its body. -/
def packetPoints (h : SMap Byte) (body : List Byte) (n : Nat) : List ScanPt :=
  (List.range n).map fun j => ScanPt.ofWords (cU h 8 8) (wordsOf 4 ((body.drop (16 * j)).take 16))

/-- A packet that is well-formed and of the command's sensor is taken point by point. -/
theorem exec_scanPacket_of_good {h poses : State × SMap Byte} {body : State × List Byte} {v : State}
    (hw : s.ingWork tok 8 = some (c, u, x, i, sn)) (hfits : c.targets.headD 0 + 32 + 16 * cU h.2 6 2 ≤ c.q 0x50)
    (hmin : 1 ≤ cU h.2 6 2) (hmax : cU h.2 6 2 ≤ 4096) (hh : s.rdCells true (.dva (c.q 0x48 + c.targets.headD 0)) 32 = .ok h)
    (hbody : h.1.rd (.dva (c.q 0x48 + c.targets.headD 0 + 32)) (16 * cU h.2 6 2) = .ok body) (hmagic : cW h.2 0 = 0x31534356)
    (hsensor : cU h.2 4 2 = i) (hcrc : cW h.2 0x14 = crc32c body.2)
    (hposes : body.1.rdCells true (.dva x.poseBase) (48 * x.poseCount) = .ok poses)
    (hv : foldE (fun (s : State) p => s.takePoint c i sn poses.2 p) poses.1 (packetPoints h.2 body.2 (cU h.2 6 2)) = .ok v) :
    exec (.scanPacket tok) s = .next (
      let o := c.targets.headD 0 + 32 + 16 * cU h.2 6 2
      let t := v.updCmd tok fun d => { d with targets := [o] }
      if c.q 0x50 < o + 32 then t.endIngest tok else t) := by
  have hroom : ¬ c.q 0x50 < c.targets.headD 0 + 32 := by omega
  unfold packetPoints at hv
  show execScanPacket tok s = _
  unfold execScanPacket
  rw [hw]
  dsimp only
  rw [if_neg hroom]
  simp only [hh, hbody, hposes, hv, hfits, hmin, hmax, hmagic, hsensor, hcrc, bind, Except.bind, pure, Except.pure, State.after,
    decide_true, Bool.and_self, beq_self_eq_true, Bool.not_true, Bool.false_eq_true, if_true, if_false]

end

/-! ## The statement -/

/-- Settles O58, command by command and outcome by outcome. That a command waits for its scene's context and is ordered by dispatch, that a KIND
which does not match gives SHAPE_OVER, that SEAL has no effect in live mode and that a release goes no further than what is sealed is the model's
choice (log entries 25, 32). -/
theorem ingestWork : Obligations.IngestWork := by
  intro s tok c
  refine ⟨fun hb => ⟨execIngestOpen_of_out_of_range hb, ?openInRange⟩,
    fun hb => ⟨_, execIngestClose_of_begins hb, State.ing_setIng_self .., fun _ hk => State.ing_setIng_ne _ _ hk, rfl⟩, ?begins,
    fun x hb hx => ⟨?noSeal, fun h0 h1 => ⟨fun hl => ?liveSeal, fun r q hl hfirst hr hq => ?replaySeal⟩⟩, fun k it x hlive hx =>
      ⟨exec_slotSeal_of_not_due hx, fun r hl hdue hr => ⟨exec_slotSeal_of_due hlive hx hl hdue hr, State.sealNext_context hr⟩⟩,
    ?frame, fun u x i sn hw => ⟨fun hshort => ?short, ?packet⟩⟩
  case openInRange =>
    intro r _ _ _ _ _ _ _ _ _ hr
    have hrange : ¬ c.openOutOfRange := by unfold Cmd.openOutOfRange; omega
    have hexec := execIngestOpen_of_table hb hrange hr
    refine ⟨fun hbad => ?_, fun hes hxs => ?_⟩
    · rw [if_pos (Cmd.tableBad_eq_true.2 hbad)] at hexec
      exact hexec
    · rw [if_neg (Bool.eq_false_iff.1 (Cmd.tableBad_eq_false hes hxs))] at hexec
      refine ⟨fun hing => ?_, fun hing hsc => ?_, fun hing hsc =>
        ⟨_, ?_, State.ing_setIng_self .., fun _ hk => State.ing_setIng_ne _ _ hk, rfl⟩⟩
      · rw [hexec, if_pos hing]
      · rw [hexec, if_neg (by rw [hing]; decide), if_pos (Option.isNone_iff_eq_none.2 hsc)]
      · obtain ⟨sc, hsc⟩ := Option.isSome_iff_exists.1 hsc
        rw [hexec, if_neg (by rw [hing]; decide), if_neg (by rw [hsc]; exact Bool.false_ne_true)]
        rfl
  case begins =>
    intro i op kind unit hop hb
    have hexec := exec_of_sensorOps hop s
    refine ⟨fun h => by rw [hexec, State.beginIngest_of_other_kind hb h], fun x sn hx hsn hk => ?_⟩
    rw [hexec, State.beginIngest_of_kind hb hx hsn hk]
    refine ⟨fun hover => by rw [if_pos hover], fun hin hpos => ?_⟩
    obtain ⟨w, hunits, hnew⟩ := State.addUnit_units (s.ingestBegun tok) tok unit 0 [] 0
    exact ⟨s.ingesting tok unit, w, by rw [if_neg (by omega), if_neg (by omega)], State.cmd_ingesting_self hb.cmd_eq,
      State.sameOthers_ingesting s tok unit, hunits, hnew.1, hnew.2.1, hnew.2.2, State.ingesting_rest ..⟩
  case noSeal =>
    intro h0 i hi
    refine ⟨s.releaseBy c x, ?_, State.ing_releaseBy_self hx, fun _ hk => State.ing_releaseBy_ne _ _ _ hk, State.releaseBy_rest ..⟩
    obtain ⟨rfl, h1⟩ | ⟨rfl, h1⟩ := hi
    · exact exec_of_sealRow_no_seal rfl (by simp [h1]) hb hx (.inl h0)
    · exact exec_of_sealRow_no_seal rfl (by simp [h0, h1]) hb hx (.inl h0)
  case liveSeal =>
    rw [exec_of_sealRow_no_seal (i := .ingestSeal tok) rfl (by simp [h0]) hb hx (.inr hl), State.releaseBy, if_neg (by simp [h1])]
  case replaySeal =>
    obtain ⟨-, htok⟩ := State.mem_of_mayBegin hb.may
    show execIngestSeal tok s = _
    rw [execIngestSeal, State.sealRow_of_begins hb (by simp [h0]) hx, State.ingestSeal_of_seal h0 h1 hl hfirst hr hq, htok]
  case frame =>
    intro u x i sn used frame r v hw hr hv
    have hexec := exec_videoFrame_of_taken hw hr hv
    refine ⟨_, rfl, fun hmore => ?_, fun hlast => ?_⟩
    · exact hexec.trans (congrArg _ (if_neg (Nat.not_le.2 hmore)))
    · exact hexec.trans (congrArg _ (if_pos hlast))
  case short =>
    have hc := State.cmd_of_ingWork hw
    exact ⟨_, _, exec_scanPacket_of_short hw hshort, State.cmd_endIngest hc, rfl, rfl, rfl, State.endIngest_units hc⟩
  case packet =>
    intro h body poses v off n hfits hmin hmax hh hbody hmagic hsensor hcrc hposes hv
    have hexec := exec_scanPacket_of_good hw hfits hmin hmax hh hbody hmagic hsensor hcrc hposes hv
    refine ⟨_, rfl, fun hmore => ?_, fun hlast => ?_⟩
    · exact hexec.trans (congrArg _ (if_neg (Nat.not_lt.2 hmore)))
    · exact hexec.trans (congrArg _ (if_pos hlast))

end Sys2Proof.Machine
end

section
/-! SUPPORT. The claim table of the retouch engines (10 R313): what an UPDATE's claim does with a descriptor that two commands hold, and the
statement O57 settled. -/

namespace Sys2Proof.Machine

/-! ## A descriptor that two commands hold -/

/-- An UPDATE of the blocks at 0 and 256 that still waits for its claims. -/
def sharedClaimWork : RtcWork := { blocks := [{ idx := 0, addr := 0 }, { idx := 1, addr := 256 }] }

/-- The running command. -/
def sharedClaimCmd : Cmd :=
  { tok := 0, qid := 0, op := 0x0400, flags := 0, tag := 0, notBefore := 0, waitValue := 0, signalValue := 0, signalObj := 0, waitObj := 0
    stream := 0, epoch := 0, seed := 0, par := List.replicate 16 0, phase := .running, begun := true
    items := [[0], [256]], rtc := some sharedClaimWork }

/-- The module that runs it, on retouch engine 0. Both the UPDATE and command 1 hold the descriptor at 0, though R313 makes a claim exclusive. No
claim of the machine leaves such a table, since `takeClaims` adds no entry for a descriptor that another command holds; the statement does not
ask for that. -/
def sharedClaimState : State :=
  { State.reset with
    cmds := [sharedClaimCmd], nextTok := 2, claims := [(0, 0), (0, 1)]
    sch := { units := [{ id := 0, tok := 0, kind := 5, entry := 0, tiles := [], held := true, inst := 0, since := 0, readySeq := 0, readyAt := 0
                         asLc := false }], nextUnit := 1 } }

/-- Command 1 holds the first descriptor, the lowest address of the list. -/
theorem sharedClaimState_claimedElse : sharedClaimState.claimedElse 0 0 = true := by decide

/-- A claim the command has already is passed over before the claims of others are looked at: the second descriptor, above the held one, is
taken. -/
theorem exec_sharedClaim_takes_second : ∃ t, exec (.retouchClaim 0) sharedClaimState = .next t ∧ (256, 0) ∈ t.claims :=
  ⟨_, rfl, by decide +kernel⟩

/-- Refutes O57: its clause on RETOUCH_CLAIM says that a descriptor newly taken stands below every one of the list that another command holds.
In `sharedClaimState` the first descriptor is claimed by the UPDATE and by command 1 alike, and the second one, above it, is taken. The clause
lacks the premise that no descriptor is claimed by two commands, as every claim leaves the table. -/
theorem not_retouchWork : ¬ Obligations.RetouchWork := by
  intro h
  obtain ⟨-, hupdate, -⟩ := h sharedClaimState 0 sharedClaimCmd
  obtain ⟨hclaim, -⟩ := hupdate sharedClaimWork 0 (by decide +kernel) (by decide +kernel)
  obtain ⟨hroom, -⟩ := hclaim rfl
  obtain ⟨t, ht, -, hbelow, -⟩ := hroom (by decide)
  obtain ⟨u, hu, htaken⟩ := exec_sharedClaim_takes_second
  obtain rfl : t = u := Host.Outcome.next.inj (ht.symm.trans hu)
  obtain hold | ⟨-, -, hlt⟩ := hbelow _ htaken
  · exact absurd hold (by decide)
  · exact absurd (hlt 0 (by decide) sharedClaimState_claimedElse) (by decide)

end Sys2Proof.Machine
end
